-- ==== Sys2Proof/Word.lean ====
section
/-!
DEFINITION. The words of the 7212: bytes of the two links and single-precision bit patterns. Counts, indices and
quantities in steps are plain numbers (`Nat`, `Int`), since the manual adds and compares them and never shows their bits.
-/

namespace Sys2Proof

/-- One byte of the host link or of a camera link. -/
abbrev Byte := BitVec 8

/-- A single-precision number, as its 32-bit pattern. -/
abbrev F32 := BitVec 32

end Sys2Proof
end

