-- ==== Sys2Proof/Syntax.lean ====
section
/-!
DEFINITION. The commands of the 7212: one constructor per row of spec/opcode_table.json.

Events name their port or exposure slot by its number in the part (`Fin`). Requests carry their frame tag and their fields
as they stand on the wire (R186), as plain numbers that the owning rule checks: a link above 11 can be asked for, and is
refused. Fixed-point quantities count their steps (log 3).
-/

namespace Sys2Proof

/-- The commands. Each is one whole step of the part (95_what_each_step_holds.md). -/
inductive Instr where
  -- power, line and camera frames
  | powerOn
  | signalDetect (link : Fin 12)
  | signalLoss (link : Fin 12)
  | wakeLimitExpiry (link : Fin 12)
  /-- A frame arrives. `rising` is the edge sense the sampler sees at the port's present tap (R4). -/
  | cameraFrame (link : Fin 12) (rising : Bool) (bytes : List Byte)
  | relayTimeout (link : Fin 12)
  -- intake, tiles, measurement and placement
  | readoutStart (link : Fin 12)
  | readoutEnd (link : Fin 12)
  | intakeRowWriteDone
  | referenceBoxReadDone
  | tileTake
  | placementRowDone
  | readoutLimitExpiry (slot : Fin 4)
  -- drain
  | drainTake
  | drainBlockReadDone
  | pictureBlockEmitted
  -- canvas store
  | zeroingDone
  | flatDataWriteDone
  | refreshDone
  | refreshIntervalExpiry
  | initComplete
  | wakeComplete
  | memoryGrant
  -- host link
  /-- Bytes of the line, the last of which closes a frame body. -/
  | hostFrame (bytes : List Byte)
  | clearSequence
  | outboundGrant
  | messageSent
  | pendingMove
  | unknownKind (tag kind : Byte)
  -- requests
  | linkEnable (tag : Byte) (link : Nat)
  | linkConfig (tag : Byte) (link slots active rows overscan missing low high warm : Nat)
  | linkDisable (tag : Byte) (link : Nat)
  | linkReset (tag : Byte) (link : Nat)
  | linkQuery (tag : Byte) (link : Nat)
  | hkRead (tag : Byte) (link : Nat)
  | relay (tag : Byte) (link : Nat) (outgoing : List Byte) (expected timeout : Nat)
  /-- `initial` is `none` for CARRY. -/
  | exposureOpen (tag : Byte) (exposure mode : Nat) (initial : Option Nat) (lower upper attack decay quota nominal limit : Nat)
  | planPlace (tag : Byte) (exposure segment weight anchorX anchorY : Nat) (colX colY rowX rowY : Int) (cells : List Nat)
  /-- Each record is segment, column, row and expected flux. -/
  | planRef (tag : Byte) (exposure : Nat) (refs : List (Nat × Nat × Nat × F32))
  | exposureCommit (tag : Byte) (exposure : Nat)
  | exposureAbandon (tag : Byte) (exposure : Nat)
  | exposureQuery (tag : Byte) (exposure : Nat)
  /-- Each defect is first column, last column, first row and last row; `flat` is `none` for no flat. -/
  | calLoad (tag : Byte) (segment mode skip level gain : Nat) (flat : Option Nat) (saturation : Nat)
      (defects : List (Nat × Nat × Nat × Nat))
  | calApplyNow (tag : Byte) (segments : BitVec 96)
  | calApplyNextReadout (tag : Byte) (segments : BitVec 96)
  | calApplyDisarm (tag : Byte) (segments : BitVec 96)
  | calQuery (tag : Byte) (segment : Nat)
  | flatBegin (tag : Byte) (index columns rows : Nat) (check : BitVec 32)
  | flatData (tag : Byte) (index offset : Nat) (values : List Nat)
  | flatEnd (tag : Byte) (index : Nat)
  | flatDrop (tag : Byte) (index : Nat)
  | flatQuery (tag : Byte) (index : Nat)
  | storeQuery (tag : Byte)
  | scaleSet (tag : Byte) (exposure value : Nat)
  | canvasOpen (tag : Byte) (width height order : Nat)
  | canvasClose (tag : Byte)
  | cellRelease (tag : Byte) (cell : Nat)
  | cellQuery (tag : Byte) (cell : Nat)
  | canvasAbandon (tag : Byte)
  | drainHold (tag : Byte)
  | drainResume (tag : Byte)
  | park (tag : Byte)
  | unpark (tag : Byte)
  | status (tag : Byte)
  /-- Bit n set masks kind n; bits from 13 on name no kind. -/
  | noticeMask (tag : Byte) (mask : Nat)
  | clear (tag : Byte)
  /-- Bytes of the line, the last of which breaks the frame in progress. -/
  | hostFrameDiscard (bytes : List Byte)
  deriving DecidableEq, Repr

end Sys2Proof
end

