-- ==== Sys2Proof/Decode.lean ====
section
/-!
DEFINITION. The decoder of table words. No row of spec/opcode_table.json gives bits (every row's "fields" is empty and none
has "fixed"), so no word spells a command (log 36). The decoding of host link frames into requests is R186's, in
Machine/Operands.lean.
-/

namespace Sys2Proof

/-- The command a table word spells: none, since the table gives no row any bits. -/
def decodeTableWord (_nbits _w : Nat) : Option Instr := none

end Sys2Proof
end

