-- ==== Sys2Proof/Config.lean ====
section
/-!
DEFINITION. What is fixed for the part: the sizes its chapters give, and the one value the model leaves free.
-/

namespace Sys2Proof.Config

/-- Rows a receive buffer holds (R9). -/
def bufferRows : Nat := 4
/-- Requests the request buffer holds (R175). -/
def requestRoom : Nat := 4
/-- Answers the answer queue holds (R178). -/
def answerRoom : Nat := 8
/-- Notices the notice queue holds (R179). -/
def noticeRoom : Nat := 32
/-- The largest unescaped inbound body, in bytes (R174). -/
def maxBody : Nat := 4109
/-- The largest inbound payload, in bytes (R175). -/
def maxPayload : Nat := 4103
/-- The most refreshes the store may owe (R169). -/
def maxOwed : Nat := 6
/-- Where 8-bit, 16-bit and 32-bit counts saturate. -/
def sat8 : Nat := 255
def sat16 : Nat := 65535
def sat32 : Nat := 4294967295
/-- The greatest weight sum, 4095.9375 in sixteenths (R119). -/
def weightCeiling : Nat := 65535
/-- The places of one tile area or one flat entry: 1024 × 2048 (R164). -/
def areaPlaces : Nat := 2097152
/-- The canvas pixels of one cell (R132). -/
def cellPixels : Nat := 65536

/-- FREE VALUE (log 4). The time remaining of a RUNNING readout limit timer, in ms, at the `n`-th time it is asked for.
The model holds no clock, so nothing constrains it but the bound its user sets. -/
opaque timeRemaining : Nat → Nat

end Sys2Proof.Config
end

