-- ==== Sys2Proof/Machine/State.lean ====
section
/-!
DEFINITION. The state of the 7212, block by block, as plain data; what an event can answer; and the state after power-on.
INVENTORY.md lists each field with the rule that names it. A field the manual calls absent holds its reset value (log 33).
-/

namespace Sys2Proof.Machine

/-! ## Camera links (R1 to R31) -/

/-- R1. -/
inductive PortState where
  | off | down | waking | aligning | synced | reading | fault
  deriving DecidableEq, Repr

/-- Why a port is in FAULT (R1). -/
inductive FaultReason where
  | align
  deriving DecidableEq, Repr

/-- Why a port changed state (R1). `finish` is END. -/
inductive LinkCause where
  | enable | signal | training | wakeLimit | locked | alignFail | start | finish | lockLost | signalLost | disable | reset
  | park
  deriving DecidableEq, Repr

/-- Where a temperature lies against the window (R15). -/
inductive Zone where
  | below | above | inside
  deriving DecidableEq, Repr

/-- Why a frame is bad (R6). -/
inductive BadReason where
  | crc | kind | length
  deriving DecidableEq, Repr

/-- The markers of the relay lane (02_the_relay_lane.md). -/
inductive Marker where
  | none | byte | last | ack | abort
  deriving DecidableEq, Repr

/-- Relay state and phase together (R23): SENDING has the phases WAIT_QUIET and OFFER, RECEIVING has WAIT_BYTE and
ACKNOWLEDGE. -/
inductive RelayPhase where
  | idle | waitQuiet | offer | waitByte | acknowledge
  deriving DecidableEq, Repr

/-- How a relay ends (R30). -/
inductive RelayOutcome where
  | complete | abortedFarEnd | abortedOverlong | timeout | linkLost | cancelled
  deriving DecidableEq, Repr

/-- R17. Temperatures in 0.01 K, the warm factor in sixteenths; bit n of `slots` enables amplifier slot n. -/
structure LinkConfig where
  slots : BitVec 8
  active : Nat
  rows : Nat
  overscan : Nat
  missing : Nat
  low : Nat
  high : Nat
  warm : Nat
  deriving DecidableEq, Repr

/-- R17, power-on column. -/
def LinkConfig.powerOn : LinkConfig :=
  { slots := 0, active := 1024, rows := 2048, overscan := 32, missing := 16, low := 16300, high := 18300, warm := 8 }

/-- What a readout start latches (R13). `none` is unknown. -/
structure Latched where
  time : Option Nat
  temp : Option Nat
  nominal : Bool
  warm : Bool
  deriving DecidableEq, Repr

/-- The readout context (R10). `latched` is absent until the intake has taken the start. -/
structure ReadoutCtx where
  exposure : Nat
  lastRow : Nat
  latched : Option Latched
  deriving DecidableEq, Repr

/-- One amplifier slot's row: raw active and overscan values (R66). -/
structure SlotRow where
  slot : Fin 8
  active : List Nat
  overscan : List Nat
  deriving DecidableEq, Repr

/-- A row of the receive buffer, with the slot rows not yet written or dropped (R9). -/
structure BufRow where
  index : Nat
  slots : List SlotRow
  deriving DecidableEq, Repr

/-- The receive buffer in arrival order: its rows, and the markers attached to them at their place in that order (R9, R11).
`finish` is the END marker. -/
inductive BufItem where
  | truncation
  | start (exposure row : Nat)
  | finish
  | row (r : BufRow)
  deriving DecidableEq, Repr

/-- A complete housekeeping cycle: its twelve words and the zone recorded with it (R14, R15). -/
structure HkCycle where
  words : List Nat
  zone : Zone
  deriving DecidableEq, Repr

/-- The bad-frame capture (R6). -/
structure BadCapture where
  reason : BadReason
  kind : Nat
  flags : Nat
  exposure : Nat
  row : Nat
  length : Nat
  deriving DecidableEq, Repr

/-- R23. -/
structure Relay where
  phase : RelayPhase
  number : Nat
  outgoing : List Byte
  acked : Nat
  expected : Nat
  reply : List Byte
  lastSeen : Bool
  timeout : Nat
  idleFrames : Nat
  abortOwed : Bool
  deriving DecidableEq, Repr

/-- R23 at power-on; the fields R23 leaves open are log 11's. -/
def Relay.reset : Relay :=
  { phase := .idle, number := 0, outgoing := [], acked := 0, expected := 0, reply := [], lastSeen := false, timeout := 0,
    idleFrames := 0, abortOwed := false }

/-- One link port (01_camera_links.md, table at the head). -/
structure Port where
  state : PortState
  reason : Option FaultReason
  signal : Bool
  tap : Nat
  /-- The edge sense at the previous tap: `some true` is rising. -/
  sense : Option Bool
  hunting : Bool
  goodRun : Nat
  badRun : Nat
  wakeLimit : Bool
  cfg : LinkConfig
  ctx : Option ReadoutCtx
  buffer : List BufItem
  /-- The words assembled so far, index 0 first; empty while waiting for index 0. -/
  hkPart : List Nat
  hk : Option HkCycle
  good : Nat
  bad : Nat
  stale : Nat
  overflow : Nat
  capture : Option BadCapture
  relay : Relay
  /-- Lane content of the last outbound frame (R24, log 30). -/
  lane : Option (Marker × Byte)
  deriving DecidableEq, Repr

/-- A port at power-on (R1). -/
def Port.reset : Port :=
  { state := .off, reason := none, signal := false, tap := 0, sense := none, hunting := false, goodRun := 0, badRun := 0,
    wakeLimit := false, cfg := .powerOn, ctx := none, buffer := [], hkPart := [], hk := none, good := 0, bad := 0,
    stale := 0, overflow := 0, capture := none, relay := .reset, lane := none }

/-! ## Segment calibration (R56 to R77) -/

/-- The bias mode with its own field (R56). -/
inductive Bias where
  | overscan (skip : Nat)
  | fixed (level : Nat)
  deriving DecidableEq, Repr

/-- A defect rectangle, inclusive (R56). -/
structure Rect where
  firstCol : Nat
  lastCol : Nat
  firstRow : Nat
  lastRow : Nat
  deriving DecidableEq, Repr

/-- R56. The gain counts 1/4096. -/
structure CalRec where
  bias : Bias
  gain : Nat
  flat : Option (Fin 24)
  saturation : Nat
  defects : List Rect
  columns : Nat
  rows : Nat
  deriving DecidableEq, Repr

/-- The calibration of one segment (R56). -/
structure SegCal where
  holding : Option CalRec
  active : Option CalRec
  armed : Bool
  generation : Nat
  deriving DecidableEq, Repr

def SegCal.reset : SegCal := { holding := none, active := none, armed := false, generation := 0 }

/-- R70. -/
inductive FlatState where
  | empty | loading | valid
  deriving DecidableEq, Repr

/-- A flat library entry (R70). Its values lie in the canvas store. -/
structure FlatEntry where
  state : FlatState
  columns : Nat
  rows : Nat
  expected : BitVec 32
  count : Nat
  running : BitVec 32
  deriving DecidableEq, Repr

def FlatEntry.reset : FlatEntry := { state := .empty, columns := 0, rows := 0, expected := 0, count := 0, running := 0 }

/-! ## Exposure table and photometry fields (R32 to R55, R95) -/

/-- R32. `opened` is OPEN. -/
inductive SlotState where
  | free | opened | committed | reading | placing
  deriving DecidableEq, Repr

/-- R47. -/
inductive TimerState where
  | notStarted | running | stopped | expired
  deriving DecidableEq, Repr

/-- R34. -/
inductive Mode where
  | fixed | tracking | settled
  deriving DecidableEq, Repr

/-- The resolution reasons (R45). -/
inductive Reason where
  | placed | rows | noCalibration | storeFull | noReadout | abandoned | unlisted
  deriving DecidableEq, Repr

/-- A resolution array entry (R32). -/
inductive Entry where
  | notStarted | inStore | resolved (why : Reason)
  deriving DecidableEq, Repr

/-- A placement record (R32): weight in sixteenths, anchor in 1/256 and steps in 1/65536 of a canvas pixel. -/
structure Placement where
  segment : Fin 96
  weight : Nat
  anchorX : Nat
  anchorY : Nat
  colX : Int
  colY : Int
  rowX : Int
  rowY : Int
  cells : List Nat
  deriving DecidableEq, Repr

/-- Why a reference is rejected (R98). -/
inductive RejectReason where
  | edge | missing | flagged | nonpositive
  deriving DecidableEq, Repr

inductive RefResult where
  | unmeasured | accepted | rejected (why : RejectReason)
  deriving DecidableEq, Repr

/-- A reference record (R32). -/
structure RefRec where
  segment : Fin 96
  column : Nat
  row : Nat
  expected : F32
  result : RefResult
  measured : Option F32
  deriving DecidableEq, Repr

/-- The tile totals (R51). -/
structure Totals where
  tiles : Nat
  truncated : Nat
  warm : Nat
  nominal : Nat
  received : Nat
  missing : Nat
  saturated : Nat
  defect : Nat
  spill : Nat
  late : Nat
  deriving DecidableEq, Repr

def Totals.zero : Totals :=
  { tiles := 0, truncated := 0, warm := 0, nominal := 0, received := 0, missing := 0, saturated := 0, defect := 0,
    spill := 0, late := 0 }

/-- The photometry fields (R34, R95): scale and limits in 1/4096, gains in 1/256. -/
structure Photometry where
  mode : Mode
  scale : Nat
  lower : Nat
  upper : Nat
  attack : Nat
  decay : Nat
  quota : Nat
  accepted : Nat
  rejected : Nat
  frozen : Bool
  deriving DecidableEq, Repr

/-- An exposure slot (R32). `limit` is in seconds, `nominal` in ms. -/
structure ExpSlot where
  state : SlotState
  exposure : Nat
  nominal : Nat
  limit : Nat
  timer : TimerState
  photo : Photometry
  placements : List Placement
  refs : List RefRec
  entries : Vector Entry 96
  tallies : Vector Nat 7
  duplicates : Nat
  totals : Totals
  deriving DecidableEq, Repr

/-- A FREE slot: every other field absent or empty (R32). -/
def ExpSlot.empty : ExpSlot :=
  { state := .free, exposure := 0, nominal := 0, limit := 0, timer := .notStarted,
    photo := { mode := .fixed, scale := 0, lower := 0, upper := 0, attack := 0, decay := 0, quota := 0, accepted := 0,
               rejected := 0, frozen := false },
    placements := [], refs := [], entries := Vector.replicate 96 .notStarted, tallies := Vector.replicate 7 0,
    duplicates := 0, totals := .zero }

/-! ## Tile store (R78 to R94) -/

/-- Tile states with the hold reason (R78). -/
inductive TileState where
  | free | filling | heldPlan | heldScale | queued | placing
  deriving DecidableEq, Repr

/-- A tile record (R78). `owner` is the exposure slot, `none` for DETACHED; `held` lists the rows the row map marks held,
rising. -/
structure Tile where
  state : TileState
  holdOrder : Option Nat
  owner : Option (Fin 4)
  exposure : Nat
  segment : Fin 96
  cal : Option CalRec
  generation : Nat
  columns : Nat
  rows : Nat
  limit : Nat
  time : Nat
  temp : Option Nat
  nominal : Bool
  warm : Bool
  truncated : Bool
  held : List Nat
  received : Nat
  missing : Option Nat
  saturated : Nat
  defect : Nat
  accepted : Nat
  rejected : Nat
  spill : Nat
  late : Nat
  reached : Nat
  deriving DecidableEq, Repr

/-- A FREE tile slot: every other field absent (R78). -/
def Tile.empty : Tile :=
  { state := .free, holdOrder := none, owner := none, exposure := 0, segment := 0, cal := none, generation := 0,
    columns := 0, rows := 0, limit := 0, time := 0, temp := none, nominal := false, warm := false, truncated := false,
    held := [], received := 0, missing := none, saturated := 0, defect := 0, accepted := 0, rejected := 0, spill := 0,
    late := 0, reached := 0 }

/-- The tile store (R78). `holding` lists the HELD(SCALE) tiles in order of holding (R86, log 22). -/
structure TileStore where
  slots : Vector Tile 40
  queue : List (Fin 40)
  holdCounter : Nat
  holding : List (Fin 40)
  deriving DecidableEq, Repr

/-- A kept tile under or awaiting measurement at close (R97): the references still to measure, by their place in the slot's
list, and the rows of the present box already read. -/
structure Measuring where
  tile : Fin 40
  refs : List Nat
  boxRow : Nat
  deriving DecidableEq, Repr

/-! ## Placement unit (R111 to R127) -/

/-- The unit states other than IDLE (R111). -/
inductive PlacePhase where
  | waitingZero | claiming | inFlight
  deriving DecidableEq, Repr

/-- The placement context with the unit state (R111); the unit is IDLE when there is none. -/
structure PlaceCtx where
  phase : PlacePhase
  tile : Fin 40
  plan : Placement
  scale : Nat
  warmFactor : Nat
  weight : Nat
  warm : Bool
  nominal : Bool
  width : Nat
  height : Nat
  row : Nat
  waitSet : List Nat
  ended : Bool
  stop : Bool
  deriving DecidableEq, Repr

/-! ## Canvas and drain (R128 to R163) -/

inductive CanvasState where
  | idle | gathering | closed
  deriving DecidableEq, Repr

inductive DrainOrder where
  | ordered | arrival
  deriving DecidableEq, Repr

/-- R131. -/
inductive CellState where
  | untouched | pending | complete | draining | drained | exempt
  deriving DecidableEq, Repr

/-- A cell record (R130). -/
structure Cell where
  state : CellState
  owed : Nat
  resolved : Nat
  placed : Nat
  writtenOff : Nat
  late : Nat
  forced : Bool
  zeroed : Bool
  deriving DecidableEq, Repr

/-- A cell as CANVAS_OPEN creates it (R139). -/
def Cell.fresh : Cell :=
  { state := .untouched, owed := 0, resolved := 0, placed := 0, writtenOff := 0, late := 0, forced := false,
    zeroed := false }

/-- The canvas record and the cell table (R128). -/
structure Canvas where
  state : CanvasState
  width : Nat
  height : Nat
  order : DrainOrder
  commits : Nat
  released : Nat
  cells : List Cell
  deriving DecidableEq, Repr

/-- An IDLE canvas: no cell table, counts 0 (R128). -/
def Canvas.idle : Canvas :=
  { state := .idle, width := 0, height := 0, order := .ordered, commits := 0, released := 0, cells := [] }

/-- An output pixel of a picture block (R157); the weight in sixteenths. -/
structure OutPixel where
  mean : F32
  weight : Nat
  count : Nat
  defect : Bool
  saturated : Bool
  warm : Bool
  nominal : Bool
  empty : Bool
  deriving DecidableEq, Repr

/-- A formed block (R156). -/
structure Block where
  cell : Nat
  number : Nat
  last : Bool
  forced : Bool
  pixels : List OutPixel
  deriving DecidableEq, Repr

inductive DrainState where
  | idle | reading | offered | sending | stopped
  deriving DecidableEq, Repr

/-- The drain unit (R150). `ended` marks a block read or sent whose canvas has been abandoned (R162, log 35). -/
structure Drain where
  state : DrainState
  cell : Nat
  block : Nat
  formed : Option Block
  hold : Bool
  queue : List Nat
  ended : Bool
  deriving DecidableEq, Repr

def Drain.reset : Drain :=
  { state := .idle, cell := 0, block := 0, formed := none, hold := false, queue := [], ended := false }

/-! ## Canvas store (R164 to R173) -/

/-- A calibrated pixel (R66): a value in e⁻/s, or flagged with at least one of DEFECT and SATURATED. -/
inductive CalPixel where
  | value (v : F32)
  | flagged (defect saturated : Bool)
  deriving DecidableEq, Repr

/-- A canvas pixel (R132); the weight sum in sixteenths. -/
structure CanvasPixel where
  flux : F32
  weight : Nat
  count : Nat
  defect : Bool
  saturated : Bool
  warm : Bool
  nominal : Bool
  deriving DecidableEq, Repr

/-- A zeroed canvas pixel (R134); also what an unlisted place reads as (log 5). -/
def CanvasPixel.zero : CanvasPixel :=
  { flux := 0, weight := 0, count := 0, defect := false, saturated := false, warm := false, nominal := false }

/-- The contents of the three regions (R164), each a list of keyed elements with rising keys and no entry equal to what an
unlisted key reads as (log 5). -/
structure Memory where
  tileRows : List (Nat × List CalPixel)
  cells : List (Nat × CanvasPixel)
  flats : List (Nat × Nat)
  deriving DecidableEq, Repr

inductive StoreState where
  | initialising | ready | parked | waking
  deriving DecidableEq, Repr

/-- The rotating kinds of claim (R168). -/
inductive RotKind where
  | zeroing | placement | drain | flat | box
  deriving DecidableEq, Repr

/-- A claim, or, in flight, an access (R167). An intake row write is for its port's head row, a box read for the measurement of
its link. A refresh never waits in the list. -/
inductive Claim where
  | intake (link : Fin 12)
  | box (link : Fin 12)
  | placement
  | drainRead
  | zeroing
  | flatWrite
  | refresh
  deriving DecidableEq, Repr

/-- The canvas store's controller (R165 to R170). -/
structure StoreCtl where
  state : StoreState
  owed : Nat
  late : Nat
  interval : Bool
  zeroQueue : List Nat
  access : Option Claim
  waiting : List Claim
  rotation : List RotKind
  deriving DecidableEq, Repr

/-- The rotation at power-on (R168). -/
def StoreCtl.powerOnRotation : List RotKind := [.zeroing, .placement, .drain, .flat, .box]

def StoreCtl.reset : StoreCtl :=
  { state := .initialising, owed := 0, late := 0, interval := false, zeroQueue := [], access := none, waiting := [],
    rotation := StoreCtl.powerOnRotation }

/-! ## Host link (R174 to R186) -/

/-- The refusal reasons, in the order of their codes (11_host_link_and_message_reference.md). -/
inductive RefuseReason where
  | unknownKind | badLength | badField | notReady | parked | busy | wrongState | noSlot | duplicateTag | notFound | noRoom
  | emptyPlan | segmentOff | cellClosed | owedLimit | planPending | flatNotValid | geometry | empty | isProtected
  | outOfOrder | checkFailed
  deriving DecidableEq, Repr

/-- A checked request, its payload read field by field (R186). `badLength` is a request of a known kind whose payload does not
fit it (R177). -/
inductive Request where
  | unknown (kind : Byte)
  | badLength (kind : Byte)
  | linkEnable (link : Nat)
  | linkConfig (link slots active rows overscan missing low high warm : Nat)
  | linkDisable (link : Nat)
  | linkReset (link : Nat)
  | linkQuery (link : Nat)
  | hkRead (link : Nat)
  | relay (link : Nat) (outgoing : List Byte) (expected timeout : Nat)
  | exposureOpen (exposure mode : Nat) (initial : Option Nat) (lower upper attack decay quota nominal limit : Nat)
  | planPlace (exposure segment weight anchorX anchorY : Nat) (colX colY rowX rowY : Int) (cells : List Nat)
  | planRef (exposure : Nat) (refs : List (Nat × Nat × Nat × F32))
  | exposureCommit (exposure : Nat)
  | exposureAbandon (exposure : Nat)
  | exposureQuery (exposure : Nat)
  | calLoad (segment mode skip level gain : Nat) (flat : Option Nat) (saturation : Nat)
      (defects : List (Nat × Nat × Nat × Nat))
  | calApply (segments : BitVec 96) (when : Nat)
  | calQuery (segment : Nat)
  | flatBegin (index columns rows : Nat) (check : BitVec 32)
  | flatData (index offset : Nat) (values : List Nat)
  | flatEnd (index : Nat)
  | flatDrop (index : Nat)
  | flatQuery (index : Nat)
  | storeQuery
  | scaleSet (exposure value : Nat)
  | canvasOpen (width height order : Nat)
  | canvasClose
  | cellRelease (cell : Nat)
  | cellQuery (cell : Nat)
  | canvasAbandon
  | drainHold
  | drainResume
  | park
  | unpark
  | status
  | noticeMask (mask : Nat)
  | clear
  deriving DecidableEq, Repr

/-- A result: DONE with its payload bytes (R186), or REFUSED with a reason (R178). -/
inductive Result where
  | done (payload : List Byte)
  | refused (reason : RefuseReason)
  deriving DecidableEq, Repr

/-- An answer (R178): the request's frame tag and kind code, and its result. -/
structure Answer where
  tag : Byte
  kind : Byte
  result : Result
  deriving DecidableEq, Repr

/-- The notice kinds, in kind order (table under R181). -/
inductive NoticeKind where
  | ready | linkState | hkChange | readoutIgnored | relayDone | tileReport | scaleFrozen | exposureDone | canvasDone
  | storeFault | lineError | clearDone | faultLink
  deriving DecidableEq, Repr

/-- A notice (R179); its content is coded as R186 says. -/
structure Notice where
  kind : NoticeKind
  content : List Byte
  folded : Nat
  deriving DecidableEq, Repr

/-- A pending entry (R179). -/
structure PendingNotice where
  content : List Byte
  folded : Nat
  deriving DecidableEq, Repr

/-- A message on the line (R182). -/
inductive Message where
  | answer (a : Answer)
  | notice (n : Notice)
  | block (b : Block)
  deriving DecidableEq, Repr

/-- The three sources of the outbound arbiter (R182). -/
inductive Source where
  | answers | notices | blocks
  deriving DecidableEq, Repr

/-- A source's class, 1 or 2, and the set of sources it waits on, without repeats (R182). -/
structure SourceState where
  cls : Nat
  waits : List Source
  deriving DecidableEq, Repr

def SourceState.reset : SourceState := { cls := 1, waits := [] }

/-- The frame receiver (R174, R176). `escaped` is a held 7Dh, `pairs` the held clear-sequence pairs. -/
structure Receiver where
  inFrame : Bool
  body : List Byte
  escaped : Bool
  pairs : Nat
  deriving DecidableEq, Repr

def Receiver.hunting : Receiver := { inFrame := false, body := [], escaped := false, pairs := 0 }

/-- The request handler's BUSY: a FLAT_DATA whose writes are in flight (R72, R177), with the runs not yet written. -/
structure FlatJob where
  tag : Byte
  index : Fin 24
  values : List Nat
  runs : List (Nat × List Nat)
  deriving DecidableEq, Repr

/-- The host link (11_host_link_and_message_reference.md, table at the head). Bit n of `mask` masks kind n. -/
structure HostLink where
  rx : Receiver
  lineErrors : Nat
  requests : List (Byte × Request)
  job : Option FlatJob
  answers : List Answer
  notices : List Notice
  mask : BitVec 13
  pendingNotices : Vector (Option PendingNotice) 13
  line : Option Message
  answerSource : SourceState
  noticeSource : SourceState
  blockSource : SourceState
  deriving DecidableEq, Repr

/-- The host link at power-on: TILE_REPORT, kind 5, is masked. -/
def HostLink.reset : HostLink :=
  { rx := .hunting, lineErrors := 0, requests := [], job := none, answers := [], notices := [], mask := 32,
    pendingNotices := Vector.replicate 13 none, line := none, answerSource := .reset, noticeSource := .reset,
    blockSource := .reset }

/-! ## The whole part -/

/-- The state of the 7212. -/
structure State where
  ports : Vector Port 12
  cal : Vector SegCal 96
  flats : Vector FlatEntry 24
  slots : Vector ExpSlot 4
  /-- The carry scale (R34), in 1/4096. -/
  carry : Nat
  tiles : TileStore
  measuring : Vector (List Measuring) 12
  place : Option PlaceCtx
  canvas : Canvas
  drain : Drain
  store : StoreCtl
  mem : Memory
  host : HostLink
  /-- The model's own: how many free values have been taken (log 4). -/
  freeIndex : Nat
  /-- The commands waiting, first in first out. -/
  pending : List Instr
  deriving DecidableEq, Repr

/-- What stops the machine. The spec names no event that stops the 7212 (INVENTORY.md, Faults), so there is none. -/
inductive Fault where
  deriving DecidableEq, Repr

/-- Commands the machine does not run. -/
inductive Refusal where
  /-- Raised by `exec` for a command that has no meaning in the model yet. Safe: the model stops. -/
  | notModelled (mnemonic : String)
  deriving DecidableEq, Repr

/-- The part right after power is applied: every block's power-on values, the store INITIALISING (R166). -/
def State.reset : State :=
  { ports := Vector.replicate 12 .reset
    cal := Vector.replicate 96 .reset
    flats := Vector.replicate 24 .reset
    slots := Vector.replicate 4 .empty
    carry := 4096
    tiles := { slots := Vector.replicate 40 .empty, queue := [], holdCounter := 0, holding := [] }
    measuring := Vector.replicate 12 []
    place := none
    canvas := .idle
    drain := .reset
    store := .reset
    mem := { tileRows := [], cells := [], flats := [] }
    host := .reset
    freeIndex := 0
    pending := [] }

end Sys2Proof.Machine
end

