-- ==== Sys2Proof/Machine/Ops.lean ====
section
/-!
DEFINITION. The named operations the blocks share: saturating counts, the regions of the canvas store (R164), single-precision
rounding (R68, R98, R119, R157), the two CRCs (R70, R174), and access to ports, segments, slots and tiles by number.
-/

namespace Sys2Proof.Machine

/-! ## Counts -/

/-- Add to a count that saturates at `top`. -/
def satAdd (top a b : Nat) : Nat := if a + b ≤ top then a + b else top

/-- Add one to a count that wraps after 65535 (R23, R56, R86). -/
def wrapSucc16 (n : Nat) : Nat := (n + 1) % 65536

/-! ## Regions of the canvas store -/

namespace Region

variable {α : Type}

/-- What a key reads as; `d` is what an unlisted key reads as. -/
def read (d : α) : List (Nat × α) → Nat → α
  | [], _ => d
  | (k, v) :: rest, key => if k = key then v else read d rest key

/-- Write one key, keeping the keys rising and listing no `d`. -/
def write [DecidableEq α] (d : α) : List (Nat × α) → Nat → α → List (Nat × α)
  | [], key, v => if v = d then [] else [(key, v)]
  | (k, w) :: rest, key, v =>
    if key < k then (if v = d then (k, w) :: rest else (key, v) :: (k, w) :: rest)
    else if key = k then (if v = d then rest else (key, v) :: rest)
    else (k, w) :: write d rest key v

/-- Make the keys from `lo` up to but not including `hi` read as `d`. -/
def clear (lo hi : Nat) : List (Nat × α) → List (Nat × α)
  | [] => []
  | (k, v) :: rest => if lo ≤ k ∧ k < hi then clear lo hi rest else (k, v) :: clear lo hi rest

/-- Write a run of values at rising keys from `key` on. -/
def writeRun [DecidableEq α] (d : α) (m : List (Nat × α)) (key : Nat) : List α → List (Nat × α)
  | [] => m
  | v :: rest => writeRun d (write d m key v) (key + 1) rest

/-- The canonical form, with every key at least `lo`. -/
def wfFrom [DecidableEq α] (d : α) : Nat → List (Nat × α) → Bool
  | _, [] => true
  | lo, (k, v) :: rest => decide (lo ≤ k) && decide (v ≠ d) && wfFrom d (k + 1) rest

/-- The canonical form: keys strictly rising, no entry equal to what an unlisted key reads as. -/
def wf [DecidableEq α] (d : α) (m : List (Nat × α)) : Bool := wfFrom d 0 m

end Region

/-- The store's contents are in canonical form. -/
def Memory.wf (m : Memory) : Bool :=
  Region.wf [] m.tileRows && Region.wf .zero m.cells && Region.wf 0 m.flats

/-- The key of a row of a tile's pixel area (R93). -/
def tileRowKey (t : Fin 40) (row : Nat) : Nat := t.val * 2048 + row

/-- The calibrated pixels of a tile's row. -/
def Memory.tileRow (m : Memory) (t : Fin 40) (row : Nat) : List CalPixel := Region.read [] m.tileRows (tileRowKey t row)

/-- One calibrated pixel; a column the row does not hold reads as a value of 0 and is never asked for (R98, R118). -/
def Memory.tilePixel (m : Memory) (t : Fin 40) (row col : Nat) : CalPixel := (m.tileRow t row).getD col (.value 0)

/-- Write a tile's row whole (R81). -/
def Memory.setTileRow (m : Memory) (t : Fin 40) (row : Nat) (px : List CalPixel) : Memory :=
  { m with tileRows := Region.write [] m.tileRows (tileRowKey t row) px }

/-- The key of a canvas pixel: its cell and its place in the cell's area (R132, R133). -/
def cellKey (cell place : Nat) : Nat := cell * Config.cellPixels + place

/-- One canvas pixel. -/
def Memory.canvasPixel (m : Memory) (cell place : Nat) : CanvasPixel := Region.read .zero m.cells (cellKey cell place)

/-- Write one canvas pixel. -/
def Memory.setCanvasPixel (m : Memory) (cell place : Nat) (p : CanvasPixel) : Memory :=
  { m with cells := Region.write .zero m.cells (cellKey cell place) p }

/-- Clear a cell's whole area (R134, R170). -/
def Memory.zeroCell (m : Memory) (cell : Nat) : Memory :=
  { m with cells := Region.clear (cellKey cell 0) (cellKey (cell + 1) 0) m.cells }

/-- The key of a flat value. -/
def flatKey (entry : Fin 24) (place : Nat) : Nat := entry.val * Config.areaPlaces + place

/-- One flat value, 0 to 65535 (R70). -/
def Memory.flatValue (m : Memory) (entry : Fin 24) (place : Nat) : Nat := Region.read 0 m.flats (flatKey entry place)

/-- Write a run of flat values (R72). -/
def Memory.setFlatRun (m : Memory) (entry : Fin 24) (place : Nat) (values : List Nat) : Memory :=
  { m with flats := Region.writeRun 0 m.flats (flatKey entry place) values }

/-! ## Single precision

Every finite single-precision number is a whole number of 2^-149 units, so sums and products are formed exactly on integers
and rounded once. -/

/-- The unit of the exact form: 2^149 of them make 1. -/
def f32Unit : Nat := 2 ^ 149

/-- The exact value of a finite pattern, in units of 2^-149. -/
def f32Exact (f : F32) : Int :=
  let e := (f.toNat / 2 ^ 23) % 256
  let m := f.toNat % 2 ^ 23
  let mag : Nat := if e = 0 then m else (2 ^ 23 + m) * 2 ^ (e - 1)
  if f.msb then -(mag : Int) else (mag : Int)

/-- The pattern, sign bit clear, of the number nearest `num / den`; a tie takes the one whose last digit is even. -/
def f32RoundMag (num den : Nat) : Nat :=
  let n := num * f32Unit
  let u := n / den
  let k := if u < 2 ^ 24 then 0 else Nat.log2 u - 23
  let d := den * 2 ^ k
  let m := n / d
  let r := n % d
  let m := if 2 * r > d ∨ (2 * r = d ∧ m % 2 = 1) then m + 1 else m
  let bits := k * 2 ^ 23 + m
  if bits < 0x7F800000 then bits else 0x7F800000

/-- The single-precision number nearest `num / den`. A result of zero is positive zero (log 23). -/
def f32OfRatio (num : Int) (den : Nat) : F32 :=
  let mag := f32RoundMag num.natAbs den
  if mag = 0 then 0
  else if num < 0 then BitVec.ofNat 32 (0x80000000 + mag)
  else BitVec.ofNat 32 mag

/-- Positive and finite (R39). -/
def f32PositiveFinite (f : F32) : Bool := decide (0 < f.toNat ∧ f.toNat < 0x7F800000)

/-! ## CRCs -/

/-- One bit of the reflected CRC-32, generator 04C11DB7h (R70). -/
def crc32Bit (c : Nat) : Nat := if c % 2 = 1 then (c / 2) ^^^ 0xEDB88320 else c / 2

/-- Take one byte into the CRC-32 register. -/
def crc32Byte (c : Nat) (b : Byte) : Nat :=
  crc32Bit (crc32Bit (crc32Bit (crc32Bit (crc32Bit (crc32Bit (crc32Bit (crc32Bit (c ^^^ b.toNat))))))))

/-- Continue a CRC-32 over more bytes; the CRC-32 of no bytes is 0. -/
def crc32More (crc : BitVec 32) (bytes : List Byte) : BitVec 32 :=
  BitVec.ofNat 32 ((bytes.foldl crc32Byte (crc.toNat ^^^ 0xFFFFFFFF)) ^^^ 0xFFFFFFFF)

/-- The CRC-32 of the camera links and of flats (R70). -/
def crc32 (bytes : List Byte) : BitVec 32 := crc32More 0 bytes

/-- One bit of the CRC-16, generator 1021h, most significant bit first (R174). -/
def crc16Bit (c : Nat) : Nat := if c ≥ 0x8000 then ((c * 2) % 65536) ^^^ 0x1021 else c * 2

/-- Take one byte into the CRC-16 register. -/
def crc16Byte (c : Nat) (b : Byte) : Nat :=
  crc16Bit (crc16Bit (crc16Bit (crc16Bit (crc16Bit (crc16Bit (crc16Bit (crc16Bit (c ^^^ (b.toNat * 256)))))))))

/-- The CRC-16 of the host link (R174). -/
def crc16 (bytes : List Byte) : Nat := bytes.foldl crc16Byte 0xFFFF

/-! ## Parts of the state by number -/

def allLinks : List (Fin 12) := List.finRange 12
def allSlots : List (Fin 4) := List.finRange 4
def allTiles : List (Fin 40) := List.finRange 40
def allSegments : List (Fin 96) := List.finRange 96
def allAmplifiers : List (Fin 8) := List.finRange 8
def allFlats : List (Fin 24) := List.finRange 24

/-- The segment of an amplifier slot of a link: link × 8 + amplifier slot (00_scope.md). -/
def segmentOf (link : Fin 12) (amp : Fin 8) : Fin 96 := ⟨link.val * 8 + amp.val, by omega⟩

/-- The link of a segment. -/
def linkOf (seg : Fin 96) : Fin 12 := ⟨seg.val / 8, by omega⟩

def State.port (s : State) (l : Fin 12) : Port := s.ports[l]
def State.setPort (s : State) (l : Fin 12) (p : Port) : State := { s with ports := s.ports.set l.val p l.isLt }
def State.modPort (s : State) (l : Fin 12) (f : Port → Port) : State := s.setPort l (f (s.port l))

def State.segCal (s : State) (g : Fin 96) : SegCal := s.cal[g]
def State.setSegCal (s : State) (g : Fin 96) (c : SegCal) : State := { s with cal := s.cal.set g.val c g.isLt }

def State.flat (s : State) (i : Fin 24) : FlatEntry := s.flats[i]
def State.setFlat (s : State) (i : Fin 24) (e : FlatEntry) : State := { s with flats := s.flats.set i.val e i.isLt }

def State.slot (s : State) (k : Fin 4) : ExpSlot := s.slots[k]
def State.setSlot (s : State) (k : Fin 4) (x : ExpSlot) : State := { s with slots := s.slots.set k.val x k.isLt }
def State.modSlot (s : State) (k : Fin 4) (f : ExpSlot → ExpSlot) : State := s.setSlot k (f (s.slot k))

def State.tile (s : State) (t : Fin 40) : Tile := s.tiles.slots[t]
def State.setTile (s : State) (t : Fin 40) (x : Tile) : State :=
  { s with tiles := { s.tiles with slots := s.tiles.slots.set t.val x t.isLt } }
def State.modTile (s : State) (t : Fin 40) (f : Tile → Tile) : State := s.setTile t (f (s.tile t))

def State.measure (s : State) (l : Fin 12) : List Measuring := s.measuring[l]
def State.setMeasure (s : State) (l : Fin 12) (m : List Measuring) : State :=
  { s with measuring := s.measuring.set l.val m l.isLt }

/-- A cell record of the open canvas. -/
def State.cell? (s : State) (i : Nat) : Option Cell := s.canvas.cells[i]?
def State.setCell (s : State) (i : Nat) (c : Cell) : State :=
  { s with canvas := { s.canvas with cells := s.canvas.cells.set i c } }

/-- The state of cell `i`, if there is such a cell. -/
def State.cellIs (s : State) (i : Nat) (st : CellState) : Bool :=
  match s.cell? i with
  | some c => decide (c.state = st)
  | none => false

/-- An entry of a slot's resolution array. -/
def ExpSlot.entry (x : ExpSlot) (g : Fin 96) : Entry := x.entries[g]
def ExpSlot.setEntry (x : ExpSlot) (g : Fin 96) (e : Entry) : ExpSlot := { x with entries := x.entries.set g.val e g.isLt }

/-- The slot is committed: its plan binds (R32, R33). -/
def ExpSlot.isCommitted (x : ExpSlot) : Bool :=
  decide (x.state = .committed ∨ x.state = .reading ∨ x.state = .placing)

/-- The placement record for a segment. -/
def ExpSlot.placementFor (x : ExpSlot) (g : Fin 96) : Option Placement := x.placements.find? fun p => p.segment = g

/-- The plan names the segment. -/
def ExpSlot.planned (x : ExpSlot) (g : Fin 96) : Bool := (x.placementFor g).isSome

/-- A segment is listed when the slot is committed and the plan names it (R32). -/
def ExpSlot.listed (x : ExpSlot) (g : Fin 96) : Bool := x.isCommitted && x.planned g

/-- The entry is RESOLVED. -/
def Entry.isResolved : Entry → Bool
  | .resolved _ => true
  | .notStarted => false
  | .inStore => false

/-- The non-FREE slot that carries an exposure tag (R35: there is at most one). A tag of 0 never matches (R43). -/
def State.slotOf (s : State) (exposure : Nat) : Option (Fin 4) :=
  if exposure = 0 then none
  else allSlots.find? fun k => decide ((s.slot k).state ≠ .free ∧ (s.slot k).exposure = exposure)

/-- The tiles that belong to an exposure slot, in tile slot order. -/
def State.tilesOf (s : State) (k : Fin 4) : List (Fin 40) :=
  allTiles.filter fun t => decide ((s.tile t).state ≠ .free ∧ (s.tile t).owner = some k)

/-- The FILLING tile of a segment into which rows may still be written: not yet closed (R81, R97). -/
def State.fillingTile (s : State) (g : Fin 96) : Option (Fin 40) :=
  allTiles.find? fun t => decide ((s.tile t).state = .filling ∧ (s.tile t).segment = g ∧ (s.tile t).missing = none)

end Sys2Proof.Machine
end

