-- ==== Sys2Proof/Machine/Wire.lean ====
section
/-!
DEFINITION. The coding of fields on the host link (R186), and the framing of a message in bytes (R174). Each block codes the
contents of its own answers and notices with these fields (log 24).
-/

namespace Sys2Proof.Machine

/-! ## Fields (R186) -/

/-- A whole number of 1, 2 or 4 bytes, low byte first. -/
def code8 (n : Nat) : List Byte := [BitVec.ofNat 8 n]
def code16 (n : Nat) : List Byte := [BitVec.ofNat 8 n, BitVec.ofNat 8 (n / 256)]
def code32 (n : Nat) : List Byte := code16 n ++ code16 (n / 65536)

/-- The number spelt by bytes, low byte first. -/
def bytesToNat : List Byte → Nat
  | [] => 0
  | b :: rest => b.toNat + 256 * bytesToNat rest

/-- A single-precision number. -/
def codeF32 (f : F32) : List Byte := code32 f.toNat

/-- A yes or no. -/
def codeFlag (b : Bool) : List Byte := code8 b.toNat

/-- A field that may be none: every bit set. -/
def codeOpt8 : Option Nat → List Byte
  | none => code8 0xFF
  | some n => code8 n
def codeOpt16 : Option Nat → List Byte
  | none => code16 0xFFFF
  | some n => code16 n
def codeOpt32 : Option Nat → List Byte
  | none => code32 0xFFFFFFFF
  | some n => code32 n

/-- A part given only in some cases, after its presence byte. -/
def codePart : Option (List Byte) → List Byte
  | none => code8 0
  | some p => code8 1 ++ p

/-- A list after a count of 1 byte. -/
def codeList8 {α : Type} (f : α → List Byte) (l : List α) : List Byte := code8 l.length ++ l.flatMap f

/-- A list after a count of 2 bytes. -/
def codeList16 {α : Type} (f : α → List Byte) (l : List α) : List Byte := code16 l.length ++ l.flatMap f

/-- Bits `8 k` to `8 k + 7` of a set as one byte. -/
def codeBitsByte (member : Nat → Bool) (k : Nat) : Byte :=
  BitVec.ofNat 8 ((List.range 8).foldl (fun acc i => acc + (if member (8 * k + i) then 2 ^ i else 0)) 0)

/-- A set of the members 0 to `n - 1`, one bit each, in whole bytes. -/
def codeBits (n : Nat) (member : Nat → Bool) : List Byte :=
  (List.range ((n + 7) / 8)).map (codeBitsByte fun i => decide (i < n) && member i)

/-! ## Refusals, notices and blocks -/

/-- The codes of the refusal reasons. -/
def RefuseReason.code : RefuseReason → Nat
  | .unknownKind => 0x01 | .badLength => 0x02 | .badField => 0x03 | .notReady => 0x04 | .parked => 0x05 | .busy => 0x06
  | .wrongState => 0x07 | .noSlot => 0x08 | .duplicateTag => 0x09 | .notFound => 0x0A | .noRoom => 0x0B
  | .emptyPlan => 0x0C | .segmentOff => 0x0D | .cellClosed => 0x0E | .owedLimit => 0x0F | .planPending => 0x10
  | .flatNotValid => 0x11 | .geometry => 0x12 | .empty => 0x13 | .isProtected => 0x14 | .outOfOrder => 0x15
  | .checkFailed => 0x16

/-- The notice kind numbers (table under R181). -/
def NoticeKind.num : NoticeKind → Fin 13
  | .ready => 0 | .linkState => 1 | .hkChange => 2 | .readoutIgnored => 3 | .relayDone => 4 | .tileReport => 5
  | .scaleFrozen => 6 | .exposureDone => 7 | .canvasDone => 8 | .storeFault => 9 | .lineError => 10 | .clearDone => 11
  | .faultLink => 12

/-- The notice kinds in kind order. -/
def noticeKinds : List NoticeKind :=
  [.ready, .linkState, .hkChange, .readoutIgnored, .relayDone, .tileReport, .scaleFrozen, .exposureDone, .canvasDone,
   .storeFault, .lineError, .clearDone, .faultLink]

/-- An answer's payload. -/
def Answer.payload (a : Answer) : List Byte :=
  [a.kind] ++
    match a.result with
    | .done p => code8 0 ++ p
    | .refused r => code8 r.code

/-- A notice's payload. -/
def Notice.payload (n : Notice) : List Byte := code8 n.kind.num.val ++ code16 n.folded ++ n.content

/-- The flag bits from the given ones, bit 0 first. -/
def flagBits (l : List Bool) : Nat := l.foldr (fun b acc => b.toNat + 2 * acc) 0

/-- An output pixel in its 8 bytes. -/
def OutPixel.code (p : OutPixel) : List Byte :=
  codeF32 p.mean ++ code16 p.weight ++ code8 p.count ++ code8 (flagBits [p.defect, p.saturated, p.warm, p.nominal, p.empty])

/-- A picture block's payload. -/
def Block.payload (b : Block) : List Byte :=
  code16 b.cell ++ code8 ((b.number - 1) * 16) ++ code8 16 ++ code8 (flagBits [b.last, b.forced]) ++ code8 b.number
    ++ code16 0 ++ b.pixels.flatMap OutPixel.code

/-! ## Frames (R174) -/

/-- The unescaped body: kind, frame tag, payload length, payload and CRC-16. -/
def frameBody (kind tag : Byte) (payload : List Byte) : List Byte :=
  let head := [kind, tag] ++ code16 payload.length ++ payload
  head ++ code16 (crc16 head)

/-- Escape one body byte. -/
def escapeByte (b : Byte) : List Byte :=
  if b = 0x7E then [0x7D, 0x5E] else if b = 0x7D then [0x7D, 0x5D] else [b]

/-- A body between its flags, as it goes on the line. -/
def frameBytes (body : List Byte) : List Byte := [0x7E] ++ body.flatMap escapeByte ++ [0x7E]

/-- The kind, frame tag and payload of an outbound message. -/
def Message.bytes : Message → List Byte
  | .answer a => frameBytes (frameBody 0x80 a.tag a.payload)
  | .notice n => frameBytes (frameBody 0x81 0 n.payload)
  | .block b => frameBytes (frameBody 0x82 0 b.payload)

/-- The bytes the line is sending. -/
def State.lineBytes (s : State) : List Byte :=
  match s.host.line with
  | none => []
  | some m => m.bytes

/-- A camera link frame: leading fields, row data and CRC-32. -/
def cameraFrameBytes (kind flags exposure row hkIndex hkValue : Nat) (lane marker : Nat) (data : List Byte) : List Byte :=
  let head := code8 kind ++ code8 flags ++ code16 exposure ++ code16 row ++ code8 hkIndex ++ code16 hkValue
    ++ code8 lane ++ code8 marker ++ data
  head ++ code32 (crc32 head).toNat

/-- A marker's code in the camera link frame. -/
def Marker.code : Marker → Nat
  | .none => 0 | .byte => 1 | .last => 2 | .ack => 3 | .abort => 4

/-- What a port sends toward its readout controller (R1, sends column). -/
inductive ReturnLine where
  | nothing
  /-- Sent continuously. The manual gives its content nowhere, so it has no bytes here (log 30). -/
  | wakePattern
  /-- One for each frame that arrives (R24). -/
  | idleFrames
  deriving DecidableEq, Repr

/-- R1. The port state decides what the port sends. -/
def PortState.sends : PortState → ReturnLine
  | .off => .nothing
  | .down => .nothing
  | .waking => .wakePattern
  | .aligning => .idleFrames
  | .synced => .idleFrames
  | .reading => .idleFrames
  | .fault => .nothing

/-- The idle frame a port last sent toward its readout controller, while it sends idle frames (R1, R24); a port that sends none, or has
sent none yet, has no bytes. -/
def State.returnBytes (s : State) (l : Fin 12) : List Byte :=
  let p := s.port l
  match p.state.sends, p.lane with
  | .idleFrames, some (m, b) => cameraFrameBytes 1 0 0 0 0 0 b.toNat m.code []
  | .idleFrames, none => []
  | .nothing, _ => []
  | .wakePattern, _ => []

end Sys2Proof.Machine
end

