-- ==== Sys2Proof/Machine/Operands.lean ====
section
/-!
DEFINITION. Reading a request's fields from its payload (R186): every form of every request of the index, with the exact length
that R177 asks for.
-/

namespace Sys2Proof.Machine

/-- A reader of payload bytes: the value and the bytes left, or `none` where the payload is too short. -/
abbrev Take (α : Type) := StateT (List Byte) Option α

/-- One byte. -/
def takeByte : Take Byte := fun bytes =>
  match bytes with
  | [] => none
  | b :: rest => some (b, rest)

/-- Whole numbers of 1, 2 and 4 bytes, low byte first. -/
def take8 : Take Nat := do return (← takeByte).toNat
def take16 : Take Nat := do
  let lo ← take8
  let hi ← take8
  return lo + 256 * hi
def take32 : Take Nat := do
  let lo ← take16
  let hi ← take16
  return lo + 65536 * hi

/-- A signed number of 4 bytes. -/
def takeI32 : Take Int := do return (BitVec.ofNat 32 (← take32)).toInt

/-- A single-precision number. -/
def takeF32 : Take F32 := do return BitVec.ofNat 32 (← take32)

/-- A field that may be none. -/
def takeOpt8 : Take (Option Nat) := do
  let n ← take8
  return if n = 0xFF then none else some n
def takeOpt32 : Take (Option Nat) := do
  let n ← take32
  return if n = 0xFFFFFFFF then none else some n

/-- `n` entries. -/
def takeN {α : Type} (f : Take α) : Nat → Take (List α)
  | 0 => pure []
  | n + 1 => do
    let a ← f
    let rest ← takeN f n
    return a :: rest

/-- A list after a count of 1 byte, or of 2 bytes. -/
def takeList8 {α : Type} (f : Take α) : Take (List α) := do takeN f (← take8)
def takeList16 {α : Type} (f : Take α) : Take (List α) := do takeN f (← take16)

/-- A segment mask. -/
def takeSegments : Take (BitVec 96) := do return BitVec.ofNat 96 (bytesToNat (← takeN takeByte 12))

/-- A reference record of PLAN_REF: segment, column, row, expected flux. -/
def takeRef : Take (Nat × Nat × Nat × F32) := do
  let segment ← take8
  let column ← take16
  let row ← take16
  let expected ← takeF32
  return (segment, column, row, expected)

/-- A defect rectangle of CAL_LOAD: first and last column, first and last row. -/
def takeRect : Take (Nat × Nat × Nat × Nat) := do
  let c0 ← take16
  let c1 ← take16
  let r0 ← take16
  let r1 ← take16
  return (c0, c1, r0, r1)

/-- R17. -/
def takeLinkConfig : Take Request := do
  let link ← take8
  let slots ← take8
  let active ← take16
  let rows ← take16
  let overscan ← take8
  let missing ← take8
  let low ← take16
  let high ← take16
  let warm ← take8
  return .linkConfig link slots active rows overscan missing low high warm

/-- R25. -/
def takeRelay : Take Request := do
  let link ← take8
  let outgoing ← takeList8 takeByte
  let expected ← take8
  let timeout ← take8
  return .relay link outgoing expected timeout

/-- R35. -/
def takeExposureOpen : Take Request := do
  let exposure ← take16
  let mode ← take8
  let initial ← takeOpt32
  let lower ← take32
  let upper ← take32
  let attack ← take16
  let decay ← take16
  let quota ← take8
  let nominal ← take32
  let limit ← take16
  return .exposureOpen exposure mode initial lower upper attack decay quota nominal limit

/-- R37. -/
def takePlanPlace : Take Request := do
  let exposure ← take16
  let segment ← take8
  let weight ← take8
  let anchorX ← take32
  let anchorY ← take32
  let colX ← takeI32
  let colY ← takeI32
  let rowX ← takeI32
  let rowY ← takeI32
  let cells ← takeList8 take16
  return .planPlace exposure segment weight anchorX anchorY colX colY rowX rowY cells

/-- R58. -/
def takeCalLoad : Take Request := do
  let segment ← take8
  let mode ← take8
  let skip ← take8
  let level ← take16
  let gain ← take32
  let flat ← takeOpt8
  let saturation ← take16
  let defects ← takeList8 takeRect
  return .calLoad segment mode skip level gain flat saturation defects

/-- R71. -/
def takeFlatBegin : Take Request := do
  let index ← take8
  let columns ← take16
  let rows ← take16
  let check ← take32
  return .flatBegin index columns rows (BitVec.ofNat 32 check)

/-- R72. -/
def takeFlatData : Take Request := do
  let index ← take8
  let offset ← take32
  let values ← takeList16 take16
  return .flatData index offset values

/-- The fields of a request of each kind (index of requests); `none` for a kind that names no request. -/
def takeRequest (kind : Nat) : Option (Take Request) :=
  match kind with
  | 0x01 => some do return .linkEnable (← take8)
  | 0x02 => some takeLinkConfig
  | 0x03 => some do return .linkDisable (← take8)
  | 0x04 => some do return .linkReset (← take8)
  | 0x05 => some do return .linkQuery (← take8)
  | 0x06 => some do return .hkRead (← take8)
  | 0x07 => some takeRelay
  | 0x08 => some takeExposureOpen
  | 0x09 => some takePlanPlace
  | 0x0A => some do return .planRef (← take16) (← takeList8 takeRef)
  | 0x0B => some do return .exposureCommit (← take16)
  | 0x0C => some do return .exposureAbandon (← take16)
  | 0x0D => some do return .exposureQuery (← take16)
  | 0x0E => some takeCalLoad
  | 0x0F => some do return .calApply (← takeSegments) (← take8)
  | 0x10 => some do return .calQuery (← take8)
  | 0x11 => some takeFlatBegin
  | 0x12 => some takeFlatData
  | 0x13 => some do return .flatEnd (← take8)
  | 0x14 => some do return .flatDrop (← take8)
  | 0x15 => some do return .flatQuery (← take8)
  | 0x16 => some (pure .storeQuery)
  | 0x17 => some do return .scaleSet (← take16) (← take32)
  | 0x18 => some do return .canvasOpen (← take8) (← take8) (← take8)
  | 0x19 => some (pure .canvasClose)
  | 0x1A => some do return .cellRelease (← take16)
  | 0x1B => some do return .cellQuery (← take16)
  | 0x1C => some (pure .canvasAbandon)
  | 0x1D => some (pure .drainHold)
  | 0x1E => some (pure .drainResume)
  | 0x1F => some (pure .park)
  | 0x20 => some (pure .unpark)
  | 0x21 => some (pure .status)
  | 0x22 => some do return .noticeMask (← take16)
  | 0x23 => some (pure .clear)
  | _ => none

/-- A checked frame's request (R177, lines 1 and 3). -/
def readRequest (kind : Byte) (payload : List Byte) : Request :=
  match takeRequest kind.toNat with
  | none => .unknown kind
  | some f =>
    match f payload with
    | some (r, []) => r
    | some (_, _ :: _) => .badLength kind
    | none => .badLength kind

/-- The kind code of a request. -/
def Request.kind : Request → Byte
  | .unknown k => k
  | .badLength k => k
  | .linkEnable _ => 0x01
  | .linkConfig _ _ _ _ _ _ _ _ _ => 0x02
  | .linkDisable _ => 0x03
  | .linkReset _ => 0x04
  | .linkQuery _ => 0x05
  | .hkRead _ => 0x06
  | .relay _ _ _ _ => 0x07
  | .exposureOpen _ _ _ _ _ _ _ _ _ _ => 0x08
  | .planPlace _ _ _ _ _ _ _ _ _ _ => 0x09
  | .planRef _ _ => 0x0A
  | .exposureCommit _ => 0x0B
  | .exposureAbandon _ => 0x0C
  | .exposureQuery _ => 0x0D
  | .calLoad _ _ _ _ _ _ _ _ => 0x0E
  | .calApply _ _ => 0x0F
  | .calQuery _ => 0x10
  | .flatBegin _ _ _ _ => 0x11
  | .flatData _ _ _ => 0x12
  | .flatEnd _ => 0x13
  | .flatDrop _ => 0x14
  | .flatQuery _ => 0x15
  | .storeQuery => 0x16
  | .scaleSet _ _ => 0x17
  | .canvasOpen _ _ _ => 0x18
  | .canvasClose => 0x19
  | .cellRelease _ => 0x1A
  | .cellQuery _ => 0x1B
  | .canvasAbandon => 0x1C
  | .drainHold => 0x1D
  | .drainResume => 0x1E
  | .park => 0x1F
  | .unpark => 0x20
  | .status => 0x21
  | .noticeMask _ => 0x22
  | .clear => 0x23

end Sys2Proof.Machine
end

