-- ==== Sys2Proof/Machine/Notices.lean ====
section
/-!
DEFINITION. The notice mechanism (R179 to R181), the answer queue (R178), discards (R174) and the outbound arbiter (R182).
-/

namespace Sys2Proof.Machine

/-! ## Notices -/

/-- The mask masks a kind. -/
def HostLink.masked (h : HostLink) (k : NoticeKind) : Bool := h.mask.getLsbD k.num.val

/-- The pending entry of a kind. -/
def HostLink.pendingOf (h : HostLink) (k : NoticeKind) : Option PendingNotice := h.pendingNotices[k.num]

def HostLink.setPending (h : HostLink) (k : NoticeKind) (p : Option PendingNotice) : HostLink :=
  { h with pendingNotices := h.pendingNotices.set k.num.val p k.num.isLt }

/-- A notice of this kind can join the queue now: its kind is unmasked and there is room. -/
def HostLink.takes (h : HostLink) (k : NoticeKind) : Bool :=
  !h.masked k && decide (h.notices.length < Config.noticeRoom)

/-- The pending entry after one more notice is folded in. -/
def foldNotice (old : Option PendingNotice) (content : List Byte) : PendingNotice :=
  match old with
  | none => { content := content, folded := 1 }
  | some p => { content := content, folded := satAdd Config.sat16 p.folded 1 }

/-- R179. Offer a notice: to the queue, or to its kind's pending entry. -/
def HostLink.raise (h : HostLink) (k : NoticeKind) (content : List Byte) : HostLink :=
  if h.takes k then { h with notices := h.notices ++ [{ kind := k, content := content, folded := 1 }] }
  else h.setPending k (some (foldNotice (h.pendingOf k) content))

def State.raise (s : State) (k : NoticeKind) (content : List Byte) : State := { s with host := s.host.raise k content }

/-- R181, one kind. -/
def HostLink.moveKind (h : HostLink) (k : NoticeKind) : HostLink :=
  match h.pendingOf k with
  | none => h
  | some p =>
    if h.takes k then
      { h.setPending k none with notices := h.notices ++ [{ kind := k, content := p.content, folded := p.folded }] }
    else h

/-- R181. Move pending entries of unmasked kinds in kind order while there is room. -/
def HostLink.movePending (h : HostLink) : HostLink := noticeKinds.foldl HostLink.moveKind h

def State.movePending (s : State) : State := { s with host := s.host.movePending }

/-! ## Answers and discards -/

/-- R178. An answer joins the tail of the queue. -/
def State.queueAnswer (s : State) (tag kind : Byte) (result : Result) : State :=
  { s with host := { s.host with answers := s.host.answers ++ [{ tag := tag, kind := kind, result := result }] } }

/-- What an owner makes of a request: the state after, and the answer's result, if one is due now (R177, R178). -/
abbrev Reply := State × Option Result

/-- REFUSED: every refusal but CHECK_FAILED leaves the state as it was. -/
def State.refuse (s : State) (why : RefuseReason) : Reply := (s, some (.refused why))

/-- DONE with its result payload. -/
def State.done (s : State) (payload : List Byte) : Reply := (s, some (.done payload))

/-- The causes of LINE_ERROR (R174). -/
inductive LineCause where
  | crc | length | escape | overrun
  deriving DecidableEq, Repr

def LineCause.code : LineCause → Nat
  | .crc => 0 | .length => 1 | .escape => 2 | .overrun => 3

/-- R174. A discard: the count rises and LINE_ERROR carries the cause and the count after the rise. -/
def State.lineError (s : State) (cause : LineCause) : State :=
  let n := satAdd Config.sat32 s.host.lineErrors 1
  State.raise { s with host := { s.host with lineErrors := n } } .lineError (code8 cause.code ++ code32 n)

/-! ## The outbound arbiter (R182) -/

/-- A source waits while it has a message. -/
def State.waits (s : State) : Source → Bool
  | .answers => !s.host.answers.isEmpty
  | .notices => !s.host.notices.isEmpty
  | .blocks => decide (s.drain.state = .offered)

/-- The sources in the order in which equals are granted. -/
def allSources : List Source := [.answers, .notices, .blocks]

def HostLink.source (h : HostLink) : Source → SourceState
  | .answers => h.answerSource
  | .notices => h.noticeSource
  | .blocks => h.blockSource

def HostLink.setSource (h : HostLink) (x : Source) (v : SourceState) : HostLink :=
  match x with
  | .answers => { h with answerSource := v }
  | .notices => { h with noticeSource := v }
  | .blocks => { h with blockSource := v }

/-- The source the arbiter grants: the waiting source of lowest class, the earlier in order among equals. -/
def State.grantee (s : State) : Option Source :=
  let cands := allSources.filter s.waits
  match cands.find? fun x => decide ((s.host.source x).cls = 1) with
  | some x => some x
  | none => cands.head?

/-- Remove a source from a set; a set that becomes empty brings its source back to class 1. -/
def SourceState.remove (v : SourceState) (x : Source) : SourceState :=
  if x ∈ v.waits then
    let rest := v.waits.filter fun y => decide (y ≠ x)
    { cls := if rest = [] then 1 else v.cls, waits := rest }
  else v

/-- Step 2 of a grant, and what happens when a source stops waiting without one. -/
def HostLink.removeSource (h : HostLink) (x : Source) : HostLink :=
  allSources.foldl (fun h y => if y = x then h else h.setSource y ((h.source y).remove x)) h

def State.removeSource (s : State) (x : Source) : State := { s with host := s.host.removeSource x }

/-- Step 3 of a grant: the class and set of the granted source, from the other sources that wait. -/
def SourceState.granted (others : List Source) : SourceState :=
  { cls := if others = [] then 1 else 2, waits := others }

/-- The message of a source, and the part without it (step 1). -/
def State.takeMessage (s : State) : Source → Option (Message × State)
  | .answers =>
    match s.host.answers with
    | [] => none
    | a :: rest => some (.answer a, { s with host := { s.host with answers := rest } })
  | .notices =>
    match s.host.notices with
    | [] => none
    | n :: rest => some (.notice n, { s with host := { s.host with notices := rest } })
  | .blocks =>
    match s.drain.formed with
    | none => none
    | some b => some (.block b, { s with drain := { s.drain with state := .sending } })

/-- One grant to source `x`, with room in the notice queue refilled in the same event (R181). -/
def State.grantSource (s : State) (x : Source) : State :=
  match s.takeMessage x with
  | none => s
  | some (m, s) =>
    let others := allSources.filter fun y => decide (y ≠ x) && s.waits y
    let h := (s.host.removeSource x).setSource x (.granted others)
    let s := { s with host := { h with line := some m } }
    if x = .notices then s.movePending else s

/-- R182. A grant is made when the line is FREE and a source waits. -/
def State.outboundGrant (s : State) : State :=
  match s.host.line with
  | some _ => s
  | none =>
    match s.grantee with
    | none => s
    | some x => s.grantSource x

end Sys2Proof.Machine
end

