-- ==== Sys2Proof/Machine/Receiver.lean ====
section
/-!
DEFINITION. The frame receiver of the host link, byte by byte (R174, R176), and the frame check (R175).
-/

namespace Sys2Proof.Machine

/-- What a byte can bring about. -/
inductive RxEvent where
  | body (bytes : List Byte)
  | discard (cause : LineCause)
  | clearSequence
  deriving DecidableEq, Repr

/-- A byte taken in HUNTING with nothing held. -/
def huntByte (b : Byte) : Receiver :=
  if b = 0x7E then { Receiver.hunting with inFrame := true }
  else if b = 0x7D then { Receiver.hunting with escaped := true }
  else .hunting

/-- Add a byte to the body; one that would pass the largest body ends it (R174). -/
def Receiver.addByte (r : Receiver) (b : Byte) : Receiver × Option RxEvent :=
  if r.body.length < Config.maxBody then ({ r with body := r.body ++ [b], escaped := false }, none)
  else (.hunting, some (.discard .length))

/-- A pair 7Dh C1h is counted; the fourth makes the clear sequence (R176). -/
def Receiver.addPair (r : Receiver) : Receiver × Option RxEvent :=
  if r.pairs + 1 = 4 then (.hunting, some .clearSequence)
  else ({ r with escaped := false, pairs := r.pairs + 1 }, none)

/-- A run of pairs is broken by `b`, which is then taken in HUNTING (R176). -/
def Receiver.breakRun (r : Receiver) (b : Byte) : Receiver × Option RxEvent :=
  (huntByte b, if r.inFrame then some (.discard .escape) else none)

/-- The byte after a held 7Dh (R174, R176); a bad pair's second byte is used up (log 27). -/
def Receiver.escapedByte (r : Receiver) (b : Byte) : Receiver × Option RxEvent :=
  if b = 0xC1 then r.addPair
  else if r.pairs ≠ 0 ∨ r.inFrame = false then r.breakRun b
  else if b = 0x5E then r.addByte 0x7E
  else if b = 0x5D then r.addByte 0x7D
  else (.hunting, some (.discard .escape))

/-- One byte of the line. -/
def Receiver.byte (r : Receiver) (b : Byte) : Receiver × Option RxEvent :=
  if r.escaped then r.escapedByte b
  else if b = 0x7D then ({ r with escaped := true }, none)
  else if r.pairs ≠ 0 then r.breakRun b
  else if r.inFrame = false then (huntByte b, none)
  else if b = 0x7E then
    ({ Receiver.hunting with inFrame := true }, if r.body = [] then none else some (.body r.body))
  else r.addByte b

/-- A body that passed the frame check, or the cause of its discard (R175). `waiting` is how many requests the buffer holds. -/
def frameCheck (body : List Byte) (waiting : Nat) : Except LineCause (Byte × Byte × List Byte) :=
  match body with
  | kind :: tag :: lo :: hi :: rest =>
    let n := lo.toNat + 256 * hi.toNat
    if body.length < 6 ∨ n ≠ body.length - 6 ∨ Config.maxPayload < n then .error .length
    else if crc16 (body.take (body.length - 2)) ≠ bytesToNat (body.drop (body.length - 2)) then .error .crc
    else if Config.requestRoom ≤ waiting then .error .overrun
    else .ok (kind, tag, rest.take n)
  | _ => .error .length

end Sys2Proof.Machine
end

