-- ==== Sys2Proof/Machine/Flags.lean ====
section
/-!
DEFINITION. The flag computations: the flags of a calibrated pixel (R69), of a canvas pixel (R119, R120), and of an output pixel
(R157).
-/

namespace Sys2Proof.Machine

/-- R69. The place lies in a rectangle of the defect list. -/
def Rect.covers (r : Rect) (col row : Nat) : Bool :=
  decide (r.firstCol ≤ col ∧ col ≤ r.lastCol ∧ r.firstRow ≤ row ∧ row ≤ r.lastRow)

/-- R69. SATURATED: the raw value is at or above the saturation level. -/
def CalRec.saturates (r : CalRec) (raw : Nat) : Bool := decide (r.saturation ≤ raw)

/-- R69. DEFECT: the place is in the defect list, or its flat value is 0. -/
def CalRec.defective (r : CalRec) (flat row col : Nat) : Bool :=
  r.defects.any (fun d => d.covers col row) || decide (flat = 0)

/-- The pixel carries SATURATED, or DEFECT. -/
def CalPixel.isSaturated : CalPixel → Bool
  | .value _ => false
  | .flagged _ st => st
def CalPixel.isDefect : CalPixel → Bool
  | .value _ => false
  | .flagged d _ => d

/-- The pixel carries a flag and no value. -/
def CalPixel.isFlagged : CalPixel → Bool
  | .value _ => false
  | .flagged _ _ => true

/-- R119. The flags a value pixel sets in its target: WARM_HIT and NOMINAL_TIME_HIT as its tile is flagged. -/
def CanvasPixel.hitValue (p : CanvasPixel) (warm nominal : Bool) : CanvasPixel :=
  { p with warm := p.warm || warm, nominal := p.nominal || nominal }

/-- R120. The flags a flagged pixel sets in its target. -/
def CanvasPixel.hitFlagged (p : CanvasPixel) (defect saturated : Bool) : CanvasPixel :=
  { p with defect := p.defect || defect, saturated := p.saturated || saturated }

/-- R157. EMPTY: no contribution was added. -/
def CanvasPixel.isEmpty (p : CanvasPixel) : Bool := decide (p.count = 0)

/-- R157. The output pixel of a canvas pixel. -/
def CanvasPixel.output (p : CanvasPixel) : OutPixel :=
  { mean := if p.weight = 0 then 0 else f32OfRatio (f32Exact p.flux * 16) (p.weight * f32Unit)
    weight := p.weight, count := p.count, defect := p.defect, saturated := p.saturated, warm := p.warm
    nominal := p.nominal, empty := p.isEmpty }

end Sys2Proof.Machine
end

