-- ==== Sys2Proof/Machine/Arbiter.lean ====
section
/-!
DEFINITION. The memory arbiter of the canvas store: claims, withdrawals and grants (R167, R168). A grant is made at the end of
the event that gives cause for it (log 7).
-/

namespace Sys2Proof.Machine

/-- The rotating kind of a claim; intake row writes and refreshes stand outside the rotation (R168). -/
def Claim.rotKind : Claim → Option RotKind
  | .intake _ => none
  | .refresh => none
  | .zeroing => some .zeroing
  | .placement => some .placement
  | .drainRead => some .drain
  | .flatWrite => some .flat
  | .box _ => some .box

/-- The claim is an intake row write. -/
def Claim.isIntake : Claim → Bool
  | .intake _ => true
  | .box _ | .placement | .drainRead | .zeroing | .flatWrite | .refresh => false

/-- The claim waits or is in flight. -/
def StoreCtl.holds (st : StoreCtl) (c : Claim) : Bool := decide (st.access = some c ∨ c ∈ st.waiting)

/-- Make a claim: it waits behind the claims already waiting (R167). -/
def StoreCtl.claim (st : StoreCtl) (c : Claim) : StoreCtl :=
  if st.holds c then st else { st with waiting := st.waiting ++ [c] }

/-- Withdraw a claim, waiting or in flight (R167). -/
def StoreCtl.withdraw (st : StoreCtl) (c : Claim) : StoreCtl :=
  { st with waiting := st.waiting.filter (fun x => decide (x ≠ c))
            access := if st.access = some c then none else st.access }

def State.holdsClaim (s : State) (c : Claim) : Bool := s.store.holds c
def State.claim (s : State) (c : Claim) : State := { s with store := s.store.claim c }
def State.withdraw (s : State) (c : Claim) : State := { s with store := s.store.withdraw c }

/-- The store holds no access any more: one completes. -/
def State.freeStore (s : State) : State := { s with store := { s.store with access := none } }

/-- The first kind in the rotation with a claim waiting, and its longest-waiting claim (R168, line 3). -/
def pickRotating (waiting : List Claim) : List RotKind → Option (RotKind × Claim)
  | [] => none
  | k :: rest =>
    match waiting.find? fun c => decide (c.rotKind = some k) with
    | some c => some (k, c)
    | none => pickRotating waiting rest

/-- The grant R168 chooses: the claim, and the rotation after it. -/
def StoreCtl.choose (st : StoreCtl) : Option (Claim × List RotKind) :=
  if Config.maxOwed ≤ st.owed then some (.refresh, st.rotation)
  else
    match st.waiting.find? Claim.isIntake with
    | some c => some (c, st.rotation)
    | none =>
      match pickRotating st.waiting st.rotation with
      | some (k, c) => some (c, st.rotation.filter (fun x => decide (x ≠ k)) ++ [k])
      | none => if 0 < st.owed then some (.refresh, st.rotation) else none

/-- R167. In READY, with no access in flight, grant what R168 chooses. -/
def StoreCtl.grant (st : StoreCtl) : StoreCtl :=
  if st.state = .ready ∧ st.access = none then
    match st.choose with
    | some (c, rot) =>
      { st with access := some c, waiting := st.waiting.filter (fun x => decide (x ≠ c)), rotation := rot }
    | none => st
  else st

/-- A granted placement row is in flight (R111, R116). -/
def State.markPlacement (s : State) : State :=
  match s.place with
  | some ctx =>
    if ctx.phase = .claiming ∧ s.store.access = some .placement then
      { s with place := some { ctx with phase := .inFlight } }
    else s
  | none => s

/-- R167. Make the grant that is due, if one is. -/
def State.grant (s : State) : State := State.markPlacement { s with store := s.store.grant }

end Sys2Proof.Machine
end

