-- ==== Sys2Proof/Machine/Canvas.lean ====
section
/-!
DEFINITION. Cells and the canvas record (R128 to R149): paying owed, completion, the end of a wait on a cell, zeroing jobs
(R134, R170), the finish of a canvas (R145), and the drain's taking of a cell (R152 to R155).
-/

namespace Sys2Proof.Machine

/-! ## Codes -/

def CanvasState.code : CanvasState → Nat
  | .idle => 0 | .gathering => 1 | .closed => 2

def DrainOrder.code : DrainOrder → Nat
  | .ordered => 0 | .arrival => 1

def CellState.code : CellState → Nat
  | .untouched => 0 | .pending => 1 | .complete => 2 | .draining => 3 | .drained => 4 | .exempt => 5

/-- The six cell states in the order of R130. -/
def cellStates : List CellState := [.untouched, .pending, .complete, .draining, .drained, .exempt]

/-- The number of cells in a state. -/
def Canvas.count (c : Canvas) (st : CellState) : Nat := c.cells.countP fun x => decide (x.state = st)

/-! ## Waits of the placement unit (R117) -/

/-- The row in hand waits on nothing more: its access is claimed. -/
def State.claimRow (s : State) (ctx : PlaceCtx) : State :=
  State.claim { s with place := some { ctx with phase := .claiming, waitSet := [] } } .placement

/-- Cell `i` leaves the wait set, if it is there. -/
def State.leaveWait (s : State) (i : Nat) : State :=
  match s.place with
  | none => s
  | some ctx =>
    if ctx.phase = .waitingZero ∧ i ∈ ctx.waitSet then
      let rest := ctx.waitSet.filter fun j => decide (j ≠ i)
      if rest = [] then s.claimRow ctx else { s with place := some { ctx with waitSet := rest } }
    else s

/-! ## Completion and payment -/

/-- R137. A PENDING cell becomes COMPLETE with the given record, and joins the drain queue. -/
def State.completeCell (s : State) (i : Nat) (c : Cell) : State :=
  let s := s.setCell i { c with state := .complete }
  State.leaveWait { s with drain := { s.drain with queue := s.drain.queue ++ [i] } } i

/-- R136. The history counts of a cell after one more resolution. -/
def Cell.resolve (c : Cell) (placed : Bool) : Cell :=
  { c with
    resolved := satAdd Config.sat16 c.resolved 1
    placed := if placed then satAdd Config.sat16 c.placed 1 else c.placed
    writtenOff := if placed then c.writtenOff else satAdd Config.sat16 c.writtenOff 1 }

/-- R46, R135, R136, R137. A resolution of a listed segment reaches one cell of its list. -/
def State.payCell (placed : Bool) (s : State) (i : Nat) : State :=
  match s.cell? i with
  | none => s
  | some c =>
    let c := c.resolve placed
    if c.state = .pending then
      let c := { c with owed := c.owed - 1 }
      if c.owed = 0 ∧ s.canvas.state = .closed then s.completeCell i c else s.setCell i c
    else s.setCell i c

/-- A resolution reaches the cells of its list, in order. -/
def State.payCells (s : State) (placed : Bool) (cells : List Nat) : State := cells.foldl (State.payCell placed) s

/-! ## Zeroing jobs (R134, R170) -/

/-- A cell's job joins the tail of the queue unless its index is there already; a job that becomes the head is claimed. -/
def State.queueZeroing (s : State) (i : Nat) : State :=
  if i ∈ s.store.zeroQueue then s
  else
    let q := s.store.zeroQueue ++ [i]
    let s := { s with store := { s.store with zeroQueue := q } }
    if q = [i] then s.claim .zeroing else s

/-- The canvas's part in the completion of a job for index `i` (R134). -/
def State.cellZeroed (s : State) (i : Nat) : State :=
  match s.cell? i with
  | none => s
  | some c =>
    if c.state = .pending ∨ c.state = .complete then s.setCell i { c with zeroed := true } else s

/-! ## The end of a canvas -/

/-- R125. The canvas has returned to IDLE: a placement under way is marked, and stops waiting. -/
def State.endPlacementCanvas (s : State) : State :=
  match s.place with
  | none => s
  | some ctx =>
    let ctx := { ctx with ended := true }
    if ctx.phase = .waitingZero then s.claimRow ctx else { s with place := some ctx }

/-- R129. The canvas becomes IDLE and its cell table ceases. -/
def State.canvasToIdle (s : State) : State := State.endPlacementCanvas { s with canvas := .idle }

/-- A sum over all cells, saturating (R146). -/
def Canvas.sum (c : Canvas) (f : Cell → Nat) : Nat := c.cells.foldl (fun acc x => satAdd Config.sat32 acc (f x)) 0

/-- The content of CANVAS_DONE (R146). `freed` is present for ABANDONED. -/
def Canvas.doneContent (c : Canvas) (freed : Option Nat) : List Byte :=
  code8 (match freed with | none => 0 | some _ => 1) ++ code8 c.width ++ code8 c.height ++ code8 c.order.code
    ++ code16 c.commits ++ code16 c.released ++ cellStates.flatMap (fun st => code16 (c.count st))
    ++ code32 (c.sum Cell.placed) ++ code32 (c.sum Cell.writtenOff) ++ code32 (c.sum Cell.late)
    ++ codePart (freed.map code8)

/-- Every cell is DRAINED or EXEMPT. -/
def Canvas.allDrained (c : Canvas) : Bool := c.cells.all fun x => decide (x.state = .drained ∨ x.state = .exempt)

/-- R145. The finish test. -/
def State.finishTest (s : State) : State :=
  if s.canvas.state = .closed ∧ s.canvas.allDrained = true then
    (s.raise .canvasDone (s.canvas.doneContent none)).canvasToIdle
  else s

/-! ## The drain's taking of a cell -/

/-- R154. The lowest index whose cell is neither DRAINED nor EXEMPT, with that cell. -/
def lowestOpen : Nat → List Cell → Option (Nat × Cell)
  | _, [] => none
  | i, c :: rest => if c.state = .drained ∨ c.state = .exempt then lowestOpen (i + 1) rest else some (i, c)

/-- R153, R154. The cell the drain order names, if one may be taken. -/
def State.drainCandidate (s : State) : Option Nat :=
  match s.canvas.order with
  | .arrival =>
    match s.drain.queue with
    | [] => none
    | i :: _ =>
      match s.cell? i with
      | some c => if c.zeroed = true then some i else none
      | none => none
  | .ordered =>
    match lowestOpen 0 s.canvas.cells with
    | some (i, c) => if c.state = .complete ∧ c.zeroed = true then some i else none
    | none => none

/-- R155. Take cell `i`. -/
def State.drainCell (s : State) (i : Nat) : State :=
  let s := match s.cell? i with
    | some c => s.setCell i { c with state := .draining }
    | none => s
  State.claim { s with drain := { s.drain with
    state := .reading, cell := i, block := 1, queue := s.drain.queue.filter fun j => decide (j ≠ i) } } .drainRead

/-- R152. Take a cell if one may be taken. -/
def State.drainTake (s : State) : State :=
  if s.drain.state = .idle ∧ s.drain.hold = false ∧ s.canvas.state ≠ .idle ∧ s.store.state = .ready then
    match s.drainCandidate with
    | some i => s.drainCell i
    | none => s
  else s

/-- The end of an event that may have made claims or completed cells: the drain takes, and the arbiter grants (R152, R167). -/
def State.settle (s : State) : State := s.drainTake.grant

end Sys2Proof.Machine
end

