-- ==== Sys2Proof/Machine/Slots.lean ====
section
/-!
DEFINITION. The exposure table's shared operations: resolution (R45, R46), the settling of a slot's state (R33), finishing
(R50), tile totals (R51), and the leaving of a tile (R89, R91).
-/

namespace Sys2Proof.Machine

/-! ## Codes -/

def SlotState.code : SlotState → Nat
  | .free => 0 | .opened => 1 | .committed => 2 | .reading => 3 | .placing => 4

def TimerState.code : TimerState → Nat
  | .notStarted => 0 | .running => 1 | .stopped => 2 | .expired => 3

def Mode.code : Mode → Nat
  | .fixed => 0 | .tracking => 1 | .settled => 2

/-- The reasons in the order of R45; also the index of a reason's tally. -/
def Reason.num : Reason → Fin 7
  | .placed => 0 | .rows => 1 | .noCalibration => 2 | .storeFull => 3 | .noReadout => 4 | .abandoned => 5
  | .unlisted => 6

/-- A resolution entry: its state byte and its reason byte. -/
def Entry.code : Entry → List Byte
  | .notStarted => [0, 0xFF]
  | .inStore => [1, 0xFF]
  | .resolved r => [2, BitVec.ofNat 8 r.num.val]

/-- The ten tile totals (R51). -/
def Totals.code (t : Totals) : List Byte :=
  [t.tiles, t.truncated, t.warm, t.nominal, t.received, t.missing, t.saturated, t.defect, t.spill, t.late].flatMap code32

/-! ## Settling and finishing -/

/-- How an exposure ends (R50). -/
inductive DoneOutcome where
  | finished | abandoned | overrun
  deriving DecidableEq, Repr

def DoneOutcome.code : DoneOutcome → Nat
  | .finished => 0 | .abandoned => 1 | .overrun => 2

/-- The content of EXPOSURE_DONE (R50). -/
def ExpSlot.doneContent (x : ExpSlot) (k : Fin 4) (o : DoneOutcome) : List Byte :=
  code16 x.exposure ++ code8 k.val ++ code8 o.code ++ x.tallies.toList.flatMap code8 ++ code16 x.duplicates
    ++ code8 x.placements.length ++ code8 x.refs.length ++ code8 x.photo.accepted ++ code8 x.photo.rejected
    ++ code8 x.photo.mode.code ++ code32 x.photo.scale ++ codeFlag x.photo.frozen ++ x.totals.code

/-- The slot ends: EXPOSURE_DONE is raised and the slot becomes FREE and empty (R32, R50). -/
def State.endSlot (s : State) (k : Fin 4) (o : DoneOutcome) : State :=
  (s.raise .exposureDone ((s.slot k).doneContent k o)).setSlot k .empty

/-- R50. The slot finishes: its scale becomes the carry scale, and it ends. -/
def State.finishSlot (s : State) (k : Fin 4) : State :=
  State.endSlot { s with carry := (s.slot k).photo.scale } k .finished

/-- Some listed segment is NOT_STARTED. -/
def ExpSlot.awaits (x : ExpSlot) : Bool := x.placements.any fun p => decide (x.entry p.segment = .notStarted)

/-- Every listed segment is RESOLVED. -/
def ExpSlot.allResolved (x : ExpSlot) : Bool := x.placements.all fun p => (x.entry p.segment).isResolved

/-- R33. Settle the state of a committed slot, and stop its timer once no listed segment is NOT_STARTED. -/
def State.settleSlot (s : State) (k : Fin 4) : State :=
  let x := s.slot k
  if x.isCommitted = false then s
  else if x.timer = .notStarted then s.setSlot k { x with state := .committed }
  else if x.timer = .running ∧ x.awaits = true then s.setSlot k { x with state := .reading }
  else
    let x := { x with timer := if x.timer = .running then .stopped else x.timer }
    if x.allResolved = false ∨ s.tilesOf k ≠ [] then s.setSlot k { x with state := .placing }
    else (s.setSlot k x).finishSlot k

/-! ## Resolution -/

/-- R46, without the settling: the entry, the tally, and the cells of a listed segment. An entry already RESOLVED stays. -/
def State.recordResolution (s : State) (k : Fin 4) (g : Fin 96) (why : Reason) : State :=
  let x := s.slot k
  if (x.entry g).isResolved then s
  else
    let x := { x.setEntry g (.resolved why) with
               tallies := x.tallies.set why.num.val (x.tallies[why.num] + 1) why.num.isLt }
    let s := s.setSlot k x
    if x.isCommitted then
      match x.placementFor g with
      | some p => s.payCells (decide (why = .placed)) p.cells
      | none => s
    else s

/-! ## Leaving the store -/

/-- Why a tile leaves (R89, R90). -/
inductive TileOutcome where
  | placed | rows | unlisted | overrun | abandoned
  deriving DecidableEq, Repr

/-- The outcome and, for a discard, its cause (R91). -/
def TileOutcome.code : TileOutcome → List Byte
  | .placed => code8 0 ++ codePart none
  | .rows => code8 1 ++ codePart (some (code8 0))
  | .unlisted => code8 1 ++ codePart (some (code8 1))
  | .overrun => code8 1 ++ codePart (some (code8 2))
  | .abandoned => code8 1 ++ codePart (some (code8 3))

/-- The flags NOMINAL_TIME, WARM and TRUNCATED as one group. -/
def Tile.flagByte (t : Tile) : List Byte := code8 (flagBits [t.nominal, t.warm, t.truncated])

/-- The content of TILE_REPORT (R91). -/
def Tile.report (t : Tile) (n : Fin 40) (o : TileOutcome) : List Byte :=
  code8 n.val ++ code16 t.exposure ++ codeOpt8 (t.owner.map Fin.val) ++ code8 t.segment.val ++ o.code
    ++ code16 t.generation ++ t.flagByte ++ code32 t.time ++ codeOpt32 t.temp ++ code16 t.received
    ++ codeOpt16 t.missing ++ code32 t.saturated ++ code32 t.defect ++ code32 t.spill ++ code32 t.late
    ++ code8 t.accepted ++ code8 t.rejected
    ++ codePart (if t.state = .placing then some (code16 t.reached) else none)

/-- R51. A slot's totals with a leaving tile's counts added. -/
def Totals.add (t : Totals) (x : Tile) : Totals :=
  { tiles := satAdd Config.sat32 t.tiles 1
    truncated := satAdd Config.sat32 t.truncated x.truncated.toNat
    warm := satAdd Config.sat32 t.warm x.warm.toNat
    nominal := satAdd Config.sat32 t.nominal x.nominal.toNat
    received := satAdd Config.sat32 t.received x.received
    missing := satAdd Config.sat32 t.missing (x.missing.getD 0)
    saturated := satAdd Config.sat32 t.saturated x.saturated
    defect := satAdd Config.sat32 t.defect x.defect
    spill := satAdd Config.sat32 t.spill x.spill
    late := satAdd Config.sat32 t.late x.late }

/-- A link's intake row write claim is for this segment: the head slot row's tile (R9, R81). -/
def Port.writesSegment (p : Port) (g : Fin 96) : Bool :=
  match p.buffer with
  | .row r :: _ =>
    match r.slots with
    | sr :: _ => decide (sr.slot.val = g.val % 8)
    | [] => false
  | _ => false

/-- R81, R100. A tile that closes or leaves while an intake row write for it is claimed withdraws the claim. -/
def State.withdrawWrite (s : State) (g : Fin 96) : State :=
  if (s.port (linkOf g)).writesSegment g then s.withdraw (.intake (linkOf g)) else s

/-- R100. A tile that leaves while it is measured, or waits to be, leaves the measurement; its box read is withdrawn. -/
def State.dropMeasuring (s : State) (t : Fin 40) (l : Fin 12) : State :=
  match s.measure l with
  | [] => s
  | m :: rest =>
    if m.tile = t then (s.withdraw (.box l)).setMeasure l rest
    else s.setMeasure l (m :: rest.filter fun m => decide (m.tile ≠ t))

/-- R89, steps 1 to 4. -/
def State.leaveStore (s : State) (t : Fin 40) (o : TileOutcome) : State :=
  let x := s.tile t
  let s := match x.owner with
    | some k => s.modSlot k fun y => { y with totals := y.totals.add x }
    | none => s
  let s := s.raise .tileReport (x.report t o)
  let s := { s with tiles := { s.tiles with
    queue := s.tiles.queue.filter fun u => decide (u ≠ t)
    holding := s.tiles.holding.filter fun u => decide (u ≠ t) } }
  s.setTile t .empty

/-- A discard: a FILLING tile's claims and measurement end with it (R81, R100), and it leaves the store. -/
def State.discardTile (s : State) (t : Fin 40) (o : TileOutcome) : State :=
  let x := s.tile t
  if x.state = .filling then
    if x.missing = none then (s.withdrawWrite x.segment).leaveStore t o
    else (s.dropMeasuring t (linkOf x.segment)).leaveStore t o
  else s.leaveStore t o

end Sys2Proof.Machine
end

