-- ==== Sys2Proof/Machine/Calibration.lean ====
section
/-!
DEFINITION. Segment calibration: the match of a record (R57), transfers (R61, R63), the bias, value and flags of a pixel (R66 to
R69), and the naming of flats (R75).
-/

namespace Sys2Proof.Machine

/-! ## Records -/

/-- The part that fails the match (R57, R64). -/
inductive MatchFail where
  | columns | rows | overscan
  deriving DecidableEq, Repr

def MatchFail.code : MatchFail → Nat
  | .columns => 0 | .rows => 1 | .overscan => 2

/-- The bias mode leaves enough overscan columns (R57, R58). -/
def Bias.fits (b : Bias) (overscan : Nat) : Bool :=
  match b with
  | .overscan skip => decide (skip + 4 ≤ overscan)
  | .fixed _ => true

/-- R57. The first failing part of the match of a record against a link's configuration. -/
def CalRec.mismatch (r : CalRec) (cfg : LinkConfig) : Option MatchFail :=
  if r.columns ≠ cfg.active then some .columns
  else if r.rows ≠ cfg.rows then some .rows
  else if r.bias.fits cfg.overscan = false then some .overscan
  else none

/-- A record names a flat. -/
def CalRec.names (r : CalRec) (i : Fin 24) : Bool := decide (r.flat = some i)

/-- A holding, or an active, record of a segment names the flat. -/
def SegCal.holdingNames (c : SegCal) (i : Fin 24) : Bool := (c.holding.map fun r => r.names i).getD false
def SegCal.activeNames (c : SegCal) (i : Fin 24) : Bool := (c.active.map fun r => r.names i).getD false

/-- R75. Some record names the flat. -/
def State.flatNamed (s : State) (i : Fin 24) : Bool :=
  allSegments.any fun g => (s.segCal g).holdingNames i || (s.segCal g).activeNames i

/-- R61, R63. Copy holding to active, with a new generation; the segment is armed no longer. -/
def SegCal.transfer (c : SegCal) : SegCal :=
  { c with active := c.holding, generation := wrapSucc16 c.generation, armed := false }

/-- R63. The armed transfer of one segment. -/
def State.armedTransfer (s : State) (g : Fin 96) : State :=
  let c := s.segCal g
  if c.armed then s.setSegCal g c.transfer else s

/-! ## Pixel values -/

/-- R67. The bias as an exact fraction: numerator and denominator. -/
def CalRec.biasOf (r : CalRec) (overscan : List Nat) : Nat × Nat :=
  match r.bias with
  | .fixed level => (level, 1)
  | .overscan skip => ((overscan.drop skip).foldl (· + ·) 0, (overscan.drop skip).length)

/-- R68. The value `(D − B) × gain ÷ (F × t)`: `flat` counts 1/16384, `time` is in ms, `gain` counts 1/4096. -/
def pixelValue (raw : Nat) (bias : Nat × Nat) (gain flat time : Nat) : F32 :=
  f32OfRatio (((raw : Int) * bias.2 - bias.1) * gain * 16384 * 1000) (bias.2 * 4096 * flat * time)

/-- R68, R69. One calibrated pixel. -/
def CalRec.pixel (r : CalRec) (bias : Nat × Nat) (flat time row col raw : Nat) : CalPixel :=
  let saturated := r.saturates raw
  let defect := r.defective flat row col
  if saturated || defect then .flagged defect saturated else .value (pixelValue raw bias r.gain flat time)

/-- The flat value a record uses at a place: 1.0 where it names none (R68). -/
def State.flatAt (s : State) (r : CalRec) (place : Nat) : Nat :=
  match r.flat with
  | none => 16384
  | some i => s.mem.flatValue i place

/-- R66. A slot row calibrated with a tile's captured record and latched time. -/
def State.calibrateRow (s : State) (x : Tile) (r : CalRec) (row : Nat) (sr : SlotRow) : List CalPixel :=
  let bias := r.biasOf sr.overscan
  sr.active.zipIdx.map fun (raw, col) => r.pixel bias (s.flatAt r (row * x.columns + col)) x.time row col raw

/-- The pixels of a row that carry a flag (R69). -/
def countSaturated (px : List CalPixel) : Nat := px.countP CalPixel.isSaturated
def countDefect (px : List CalPixel) : Nat := px.countP CalPixel.isDefect

end Sys2Proof.Machine
end

