-- ==== Sys2Proof/Machine/Scale.lean ====
section
/-!
DEFINITION. The photometry loop (R95 to R110): clamping, the update of the scale, the freeze and its triggers; and the moves of
tiles into holding and into the placement queue (R86, R87). An operation that queues tiles is given `take`, the placement unit's
taking from the queue (R87), or nothing where the unit is busy completing a tile (R122).
-/

namespace Sys2Proof.Machine

/-- R96. -/
def clampScale (lower upper v : Nat) : Nat := if v < lower then lower else if upper < v then upper else v

/-- R101. The scale after an accepted reference of expected flux `e` and measured flux `m`, both exact and `m` positive. -/
def Photometry.updated (p : Photometry) (e m : Int) : Nat :=
  let s : Int := p.scale
  let g : Int := if 4096 * e < s * m then p.attack else p.decay
  -- s + g × (r − s) in 1/4096, over the denominator 256 × m
  let num := 256 * s * m + g * (4096 * e - s * m)
  let den := 256 * m
  clampScale p.lower p.upper ((2 * num + den) / (2 * den)).toNat

/-! ## Moves of tiles -/

/-- A tile becomes HELD(SCALE) and takes its hold order (R86). -/
def State.holdTile (s : State) (t : Fin 40) : State :=
  let s := s.modTile t fun x => { x with state := .heldScale, holdOrder := some s.tiles.holdCounter }
  { s with tiles := { s.tiles with
    holdCounter := wrapSucc16 s.tiles.holdCounter, holding := s.tiles.holding ++ [t] } }

/-- A tile becomes QUEUED at the tail of the placement queue (R87). -/
def State.queueTile (s : State) (t : Fin 40) : State :=
  let s := s.modTile t fun x => { x with state := .queued, holdOrder := none }
  { s with tiles := { s.tiles with
    queue := s.tiles.queue ++ [t], holding := s.tiles.holding.filter fun u => decide (u ≠ t) } }

/-! ## Freeze (R103 to R107) -/

inductive FreezeCause where
  | quota | exhausted | storePressure
  deriving DecidableEq, Repr

def FreezeCause.code : FreezeCause → Nat
  | .quota => 0 | .exhausted => 1 | .storePressure => 2

/-- The HELD(SCALE) tiles of a slot, in order of holding. -/
def State.heldTiles (s : State) (k : Fin 4) : List (Fin 40) :=
  s.tiles.holding.filter fun t => decide ((s.tile t).owner = some k)

/-- The content of SCALE_FROZEN (R107); `at_` is the segment that found no room. -/
def ExpSlot.frozenContent (x : ExpSlot) (k : Fin 4) (cause : FreezeCause) (moved : Nat) (at_ : Option (Fin 96)) : List Byte :=
  code16 x.exposure ++ code8 k.val ++ code8 cause.code ++ code32 x.photo.scale ++ code8 x.photo.accepted
    ++ code8 x.photo.rejected ++ code8 moved ++ codePart (at_.map fun g => code8 (linkOf g).val ++ code8 g.val)

/-- A trigger can freeze the slot: it is SETTLED, non-FREE and not frozen (R103). -/
def ExpSlot.freezable (x : ExpSlot) : Bool :=
  decide (x.state ≠ .free ∧ x.photo.mode = .settled ∧ x.photo.frozen = false)

/-- R103. A trigger reaches a slot. -/
def State.freezeSlot (take : State → State) (s : State) (k : Fin 4) (cause : FreezeCause) (at_ : Option (Fin 96)) : State :=
  let x := s.slot k
  if x.freezable then
    let moved := s.heldTiles k
    let s := s.setSlot k { x with photo := { x.photo with frozen := true } }
    let s := take (moved.foldl State.queueTile s)
    s.raise .scaleFrozen (x.frozenContent k cause moved.length at_)
  else s

/-- A listed segment is accounted for: RESOLVED, or its tile HELD(SCALE) (R105). -/
def State.accounted (s : State) (k : Fin 4) (g : Fin 96) : Bool :=
  ((s.slot k).entry g).isResolved || (s.heldTiles k).any fun t => decide ((s.tile t).segment = g)

/-- R105. The EXHAUSTED trigger's test. -/
def State.exhaustedTest (take : State → State) (s : State) (k : Fin 4) : State :=
  let x := s.slot k
  if x.isCommitted = true ∧ x.placements.all (fun p => s.accounted k p.segment) = true then
    s.freezeSlot take k .exhausted none
  else s

/-- R46. A resolution with what follows it: the slot's state is settled and the freeze conditions are checked. -/
def State.resolve (take : State → State) (s : State) (k : Fin 4) (g : Fin 96) (why : Reason) : State :=
  if ((s.slot k).entry g).isResolved then s
  else State.exhaustedTest take ((s.recordResolution k g why).settleSlot k) k

/-- R106. STORE_PRESSURE reaches every slot with HELD(SCALE) tiles, in slot order. -/
def State.pressFreeze (take : State → State) (s : State) (at_ : Fin 96) : State :=
  allSlots.foldl (fun s k => if s.heldTiles k = [] then s else s.freezeSlot take k .storePressure (some at_)) s

end Sys2Proof.Machine
end

