-- ==== Sys2Proof/Machine/Placement.lean ====
section
/-!
DEFINITION. The placement unit (R111 to R127): taking, weight, mapping, rows, the judging and adding of pixels, completion and
stop.
-/

namespace Sys2Proof.Machine

/-- R113. The effective weight, in sixteenths. -/
def effectiveWeight (warm : Bool) (weight factor : Nat) : Nat :=
  if warm then max 1 ((weight * factor + 8) / 16) else weight

/-! ## Mapping (R114) -/

/-- A position in 1/65536 canvas pixel to the nearest canvas pixel, a tie to the higher. -/
def nearestPixel (x : Int) : Int := (x + 32768) / 65536

/-- The canvas pixel of a tile pixel. -/
def Placement.pixel (p : Placement) (col row : Nat) : Int × Int :=
  (nearestPixel (p.anchorX * 256 + col * p.colX + row * p.rowX),
   nearestPixel (p.anchorY * 256 + col * p.colY + row * p.rowY))

/-- The cell and the place within the cell of a canvas pixel, if it lies on a canvas of `w` by `h` cells. -/
def canvasTarget (w h : Nat) (xy : Int × Int) : Option (Nat × Nat) :=
  if 0 ≤ xy.1 ∧ xy.1 < 256 * w ∧ 0 ≤ xy.2 ∧ xy.2 < 256 * h then
    let x := xy.1.toNat
    let y := xy.2.toNat
    some ((y / 256) * w + x / 256, (y % 256) * 256 + x % 256)
  else none

/-- The target of a pixel of the tile being placed. -/
def PlaceCtx.target (ctx : PlaceCtx) (col row : Nat) : Option (Nat × Nat) :=
  canvasTarget ctx.width ctx.height (ctx.plan.pixel col row)

/-! ## Rows -/

/-- R116. The cells a row waits on: named, targeted, PENDING and not zeroed. -/
def State.waitSet (s : State) (ctx : PlaceCtx) (columns row : Nat) : List Nat :=
  ctx.plan.cells.filter fun i =>
    (match s.cell? i with
     | some c => decide (c.state = .pending ∧ c.zeroed = false)
     | none => false)
    && (List.range columns).any fun c => decide ((ctx.target c row).map Prod.fst = some i)

/-- The next held row at or after `row`. -/
def Tile.nextHeld (x : Tile) (row : Nat) : Option Nat := x.held.find? fun r => decide (row ≤ r ∧ r < x.rows)

/-- R115, R116. Begin held row `row`: rows before it are passed over. -/
def State.startRow (s : State) (ctx : PlaceCtx) (row : Nat) : State :=
  let x := s.tile ctx.tile
  let s := s.setTile ctx.tile { x with reached := row }
  let ctx := { ctx with row := row }
  let waits := if ctx.ended then [] else s.waitSet ctx x.columns row
  if waits = [] then s.claimRow ctx else { s with place := some { ctx with phase := .waitingZero, waitSet := waits } }

/-- R122. Completion, up to the unit's return to IDLE. -/
def State.completePlacement (s : State) (t : Fin 40) : State :=
  let s := s.modTile t fun x => { x with reached := x.rows }
  let x := s.tile t
  let s := s.leaveStore t .placed
  let s := match x.owner with
    | some k => s.resolve id k x.segment .placed
    | none => s
  { s with place := none }

/-- R115, R122. Go on at row `row`: begin the next held row, or complete. -/
def State.nextRow (s : State) (ctx : PlaceCtx) (row : Nat) : State :=
  match (s.tile ctx.tile).nextHeld row with
  | some r => s.startRow ctx r
  | none => s.completePlacement ctx.tile

/-- R112. The context of a tile as it is taken. -/
def State.placeContext (s : State) (t : Fin 40) (x : Tile) (slot : ExpSlot) (p : Placement) : PlaceCtx :=
  let factor := (s.port (linkOf x.segment)).cfg.warm
  { phase := .claiming, tile := t, plan := p, scale := slot.photo.scale, warmFactor := factor,
    weight := effectiveWeight x.warm p.weight factor, warm := x.warm, nominal := x.nominal,
    width := s.canvas.width, height := s.canvas.height, row := 0, waitSet := [],
    ended := decide (s.canvas.state = .idle), stop := false }

/-- R112. Take tile `t`, which has left the queue, and begin row 0. -/
def State.takeTile (s : State) (t : Fin 40) : State :=
  let x := s.tile t
  match x.owner with
  | none => s
  | some k =>
    let slot := s.slot k
    match slot.placementFor x.segment with
    | none => s
    | some p =>
      let ctx := s.placeContext t x slot p
      let s := { s.setTile t { x with state := .placing } with place := some ctx }
      s.nextRow ctx 0

/-- R87, R112. While the unit is IDLE and the queue is not empty, take its head; `n` bounds the tiles taken. -/
def State.takeTiles : Nat → State → State
  | 0, s => s
  | n + 1, s =>
    match s.place, s.tiles.queue with
    | none, t :: rest => State.takeTiles n (State.takeTile { s with tiles := { s.tiles with queue := rest } } t)
    | none, [] => s
    | some _, _ => s

/-- R87. The taking from the placement queue: each of the 40 tiles is taken at most once. -/
def State.take (s : State) : State := s.takeTiles 41

/-! ## Pixels (R118 to R120, R125) -/

/-- R119. Add a value, with scale `scale` (1/4096) and effective weight `e`, to a canvas pixel. -/
def CanvasPixel.add (p : CanvasPixel) (v : F32) (scale e : Nat) (warm nominal : Bool) : CanvasPixel :=
  let a := min e (Config.weightCeiling - p.weight)
  { p.hitValue warm nominal with
    flux := f32OfRatio (f32Exact p.flux * 65536 + f32Exact v * scale * a) (65536 * f32Unit)
    weight := p.weight + a
    count := satAdd Config.sat8 p.count 1 }

/-- R119, R120. What a good pixel does to its target. -/
def PlaceCtx.mark (ctx : PlaceCtx) (px : CalPixel) (p : CanvasPixel) : CanvasPixel :=
  match px with
  | .value v => p.add v ctx.scale ctx.weight ctx.warm ctx.nominal
  | .flagged d st => p.hitFlagged d st

/-- A late pixel in the tile's count (R118, R125). -/
def State.lateInTile (s : State) (t : Fin 40) : State :=
  s.modTile t fun x => { x with late := satAdd Config.sat32 x.late 1 }

/-- A spill pixel (R118). -/
def State.spillInTile (s : State) (t : Fin 40) : State :=
  s.modTile t fun x => { x with spill := satAdd Config.sat32 x.spill 1 }

/-- R118. Judge one pixel of the row in hand. -/
def State.judgePixel (ctx : PlaceCtx) (s : State) (col : Nat) : State :=
  if ctx.ended then s.lateInTile ctx.tile
  else
    match ctx.target col ctx.row with
    | none => s.spillInTile ctx.tile
    | some (cell, place) =>
      if cell ∈ ctx.plan.cells then
        match s.cell? cell with
        | none => s.lateInTile ctx.tile
        | some c =>
          if c.state = .pending then
            let px := s.mem.tilePixel ctx.tile ctx.row col
            { s with mem := s.mem.setCanvasPixel cell place (ctx.mark px (s.mem.canvasPixel cell place)) }
          else (s.setCell cell { c with late := satAdd Config.sat32 c.late 1 }).lateInTile ctx.tile
      else s.spillInTile ctx.tile

/-- R118. Judge the pixels of the row in column order. -/
def State.judgeRow (s : State) (ctx : PlaceCtx) : State :=
  (List.range (s.tile ctx.tile).columns).foldl (State.judgePixel ctx) s

/-! ## Stop -/

/-- R124. A detached tile is stopped: it is discarded ABANDONED, and the unit is IDLE. The event that stops it has the unit take the next
head of the queue once its own steps are done. -/
def State.stopTile (s : State) (t : Fin 40) : State := { s.discardTile t .abandoned with place := none }

/-- R118. The completion of the row in hand. -/
def State.rowDone (s : State) (ctx : PlaceCtx) : State :=
  let s := s.judgeRow ctx
  let s := s.modTile ctx.tile fun x => { x with reached := ctx.row + 1 }
  State.take (if ctx.stop then s.stopTile ctx.tile else s.nextRow ctx (ctx.row + 1))

/-- R124. The abandonment of the slot meets the tile being placed: a row in flight is let finish, any other is withdrawn. -/
def State.stopDetached (s : State) (t : Fin 40) : State :=
  match s.place with
  | none => s
  | some ctx =>
    if ctx.tile = t then
      if ctx.phase = .inFlight then { s with place := some { ctx with stop := true } }
      else (s.withdraw .placement).stopTile t
    else s

end Sys2Proof.Machine
end

