-- ==== Sys2Proof/Machine/Intake.lean ====
section
/-!
DEFINITION. The intake and the tile store: filling (R81), close (R82, R83), measurement (R97 to R99), routing (R84), the taking of
markers from a receive buffer (R9, R11, R12), association and allocation (R43, R44, R80), and the latch (R13).
-/

namespace Sys2Proof.Machine

/-! ## Measurement -/

/-- The columns or rows of a reference box. -/
def boxSpan (centre : Nat) : List Nat := (List.range 9).map fun i => centre - 4 + i

/-- EDGE (R98): the box leaves the tile. -/
def Tile.boxOutside (x : Tile) (col row : Nat) : Bool :=
  decide (col < 4 ∨ x.columns ≤ col + 4 ∨ row < 4 ∨ x.rows ≤ row + 4)

/-- MISSING (R98): a box row is not held. -/
def Tile.boxMissing (x : Tile) (row : Nat) : Bool := (boxSpan row).any fun r => decide (r ∉ x.held)

/-- The 81 pixels of a box. -/
def Memory.box (m : Memory) (t : Fin 40) (col row : Nat) : List CalPixel :=
  (boxSpan row).flatMap fun r => (boxSpan col).map fun c => m.tilePixel t r c

/-- The exact sum of the values of a box. -/
def boxSum (px : List CalPixel) : Int :=
  px.foldl (fun acc p => match p with | .value v => acc + f32Exact v | .flagged _ _ => acc) 0

/-- FLAGGED and NONPOSITIVE (R98): the result and the measured flux kept. -/
def judgeBox (px : List CalPixel) : RefResult × Option F32 :=
  if px.any CalPixel.isFlagged then (.rejected .flagged, none)
  else
    let flux := f32OfRatio (boxSum px) f32Unit
    if 0 < f32Exact flux then (.accepted, some flux) else (.rejected .nonpositive, some flux)

/-- R101. The photometry fields after an accepted reference. -/
def Photometry.accept (p : Photometry) (e m : F32) : Photometry :=
  let moves := decide (p.mode = .tracking ∨ (p.mode = .settled ∧ p.frozen = false))
  { p with accepted := p.accepted + 1, scale := if moves then p.updated (f32Exact e) (f32Exact m) else p.scale }

/-- R99, R101, R104. Record the result of the slot's `i`-th reference, measured in tile `t`. -/
def State.recordRef (s : State) (t : Fin 40) (k : Fin 4) (i : Nat) (result : RefResult) (flux : Option F32) : State :=
  match (s.slot k).refs[i]? with
  | none => s
  | some ref =>
    let x := s.slot k
    let x := { x with refs := x.refs.set i { ref with result := result, measured := flux } }
    match result, flux with
    | .accepted, some m =>
      let s := s.setSlot k { x with photo := x.photo.accept ref.expected m }
      let s := s.modTile t fun y => { y with accepted := y.accepted + 1 }
      if (s.slot k).photo.accepted = x.photo.quota then s.freezeSlot State.take k .quota none else s
    | _, _ =>
      let s := s.setSlot k { x with photo := { x.photo with rejected := x.photo.rejected + 1 } }
      s.modTile t fun y => { y with rejected := y.rejected + 1 }

/-- R84. Route a measured tile, with the checks that follow. -/
def State.routeTile (s : State) (t : Fin 40) (k : Fin 4) : State :=
  let x := s.slot k
  let s :=
    if x.state = .opened then s.modTile t fun y => { y with state := .heldPlan }
    else if x.photo.mode = .settled ∧ x.photo.frozen = false then s.holdTile t
    else (s.queueTile t).take
  (s.exhaustedTest State.take k).settleSlot k

/-- R97, R98. One step of a link's measurement: the next reference is judged at once, or its box is claimed; a tile with no
reference left is routed. Answers whether the measurement can go on at once. -/
def State.measureStep (s : State) (l : Fin 12) : State × Bool :=
  match s.measure l with
  | [] => (s, false)
  | m :: rest =>
    let x := s.tile m.tile
    match x.owner with
    | none => (s.setMeasure l rest, true)
    | some k =>
      match m.refs with
      | [] => ((s.setMeasure l rest).routeTile m.tile k, true)
      | i :: is =>
        let go := { m with refs := is, boxRow := 0 } :: rest
        match (s.slot k).refs[i]? with
        | none => (s.setMeasure l go, true)
        | some ref =>
          if x.boxOutside ref.column ref.row then
            ((s.setMeasure l go).recordRef m.tile k i (.rejected .edge) none, true)
          else if x.boxMissing ref.row then
            ((s.setMeasure l go).recordRef m.tile k i (.rejected .missing) none, true)
          else (s.claim (.box l), false)

/-- Run a link's measurement until it waits for a box read or ends. -/
def State.measureLoop (l : Fin 12) : Nat → State → State
  | 0, s => s
  | n + 1, s =>
    let r := s.measureStep l
    if r.2 then State.measureLoop l n r.1 else r.1

/-- The steps a link's measurement can still take. -/
def State.measureFuel (s : State) (l : Fin 12) : Nat := (s.measure l).foldl (fun acc m => acc + m.refs.length + 1) 1

def State.measureRun (s : State) (l : Fin 12) : State := s.measureLoop l (s.measureFuel l)

/-! ## Close -/

/-- The references of a segment, by their place in the slot's list (R97). -/
def ExpSlot.refsFor (x : ExpSlot) (g : Fin 96) : List Nat :=
  (x.refs.zipIdx.filter fun r => decide (r.1.segment = g)).map Prod.snd

/-- R83. A tile closes: it is discarded ROWS, or goes on to measurement. -/
def State.closeTile (l : Fin 12) (truncated : Bool) (s : State) (t : Fin 40) : State :=
  let x := s.tile t
  if x.state = .filling ∧ x.missing = none then
    let missing := x.rows - x.received
    let s := (s.withdrawWrite x.segment).setTile t { x with missing := some missing, truncated := truncated }
    match x.owner with
    | none => s.discardTile t .rows
    | some k =>
      if x.limit < missing then State.resolve State.take (s.discardTile t .rows) k x.segment .rows
      else
        let m := { tile := t, refs := (s.slot k).refsFor x.segment, boxRow := 0 }
        let idle := decide (s.measure l = [])
        let s := s.setMeasure l (s.measure l ++ [m])
        if idle then s.measureRun l else s
  else s

/-- The FILLING tiles of a link not yet closed, in segment order. -/
def State.openTiles (s : State) (l : Fin 12) : List (Fin 40) := allAmplifiers.filterMap fun a => s.fillingTile (segmentOf l a)

/-- R82. Close the FILLING tiles of a link. -/
def State.closeTiles (s : State) (l : Fin 12) (truncated : Bool) : State :=
  (s.openTiles l).foldl (State.closeTile l truncated) s

/-! ## Taking rows and END markers -/

/-- The slot rows of a row from the first that has a FILLING tile; those before it are dropped (R81). -/
def State.liveSlots (s : State) (l : Fin 12) (slots : List SlotRow) : List SlotRow :=
  slots.dropWhile fun sr => (s.fillingTile (segmentOf l sr.slot)).isNone

def State.setBuffer (s : State) (l : Fin 12) (items : List BufItem) : State := s.modPort l fun p => { p with buffer := items }

/-- R9, R11, R81. Take rows and END markers from the head of the buffer until a write is claimed, a close is under way, or a
readout start is reached. -/
def State.intakeItems (l : Fin 12) : List BufItem → State → State
  | [], s => s.setBuffer l []
  | .truncation :: rest, s => s.setBuffer l (.truncation :: rest)
  | .start e r :: rest, s => s.setBuffer l (.start e r :: rest)
  | .finish :: rest, s =>
    let s := (s.setBuffer l rest).closeTiles l false
    if s.measure l = [] then State.intakeItems l rest s else s
  | .row b :: rest, s =>
    match s.liveSlots l b.slots with
    | [] => State.intakeItems l rest s
    | sr :: more => (s.setBuffer l (.row { b with slots := sr :: more } :: rest)).claim (.intake l)

/-- The intake acts on a link's buffer, unless a close of the link is under way (R97) or a write is claimed. -/
def State.intakeRun (s : State) (l : Fin 12) : State :=
  if s.measure l = [] ∧ s.holdsClaim (.intake l) = false then State.intakeItems l (s.port l).buffer s else s

/-- A link's measurement goes on, and after it the intake (R97). -/
def State.resumeLink (s : State) (l : Fin 12) : State := (s.measureRun l).intakeRun l

/-- R81. The write of the head slot row completes. -/
def State.writeRow (s : State) (l : Fin 12) : State :=
  match (s.port l).buffer with
  | .row b :: rest =>
    match b.slots with
    | sr :: more =>
      let s := s.setBuffer l (.row { b with slots := more } :: rest)
      match s.fillingTile (segmentOf l sr.slot) with
      | none => s
      | some t =>
        let x := s.tile t
        match x.cal with
        | none => s
        | some r =>
          let px := s.calibrateRow x r b.index sr
          let s := { s with mem := s.mem.setTileRow t b.index px }
          s.setTile t { x with
            held := x.held ++ [b.index], received := x.received + 1
            saturated := satAdd Config.sat32 x.saturated (countSaturated px)
            defect := satAdd Config.sat32 x.defect (countDefect px) }
    | [] => s
  | _ => s

/-! ## Readout start -/

/-- R13. The latched values of a readout of exposure `e`. -/
def Port.latch (p : Port) (e : Nat) (nominal : Option Nat) : Latched :=
  let fallback : Latched := { time := nominal, temp := none, nominal := true, warm := false }
  match p.hk with
  | none => fallback
  | some c =>
    let time := c.words.getD 2 0 + 65536 * c.words.getD 3 0
    if c.words.getD 1 0 = e ∧ 1 ≤ time then
      let temp := c.words.getD 4 0
      { time := some time, temp := some temp, nominal := false, warm := decide (temp < p.cfg.low ∨ p.cfg.high < temp) }
    else fallback

/-- The lowest FREE tile slot. -/
def State.freeTile (s : State) : Option (Fin 40) := allTiles.find? fun t => decide ((s.tile t).state = .free)

/-- R80. The record of a tile allocated to a segment. -/
def allocatedTile (k : Fin 4) (e : Nat) (g : Fin 96) (r : CalRec) (generation : Nat) (cfg : LinkConfig) (lat : Latched) : Tile :=
  { Tile.empty with
    state := .filling, owner := some k, exposure := e, segment := g, cal := some r, generation := generation
    columns := cfg.active, rows := cfg.rows, limit := cfg.missing
    time := lat.time.getD 0, temp := lat.temp, nominal := lat.nominal, warm := lat.warm }

/-- R44, the third case: test the segment and allocate. -/
def State.startSegment (s : State) (l : Fin 12) (k : Fin 4) (e : Nat) (lat : Latched) (g : Fin 96) : State :=
  let cfg := (s.port l).cfg
  let c := s.segCal g
  match c.active with
  | none => s.resolve State.take k g .noCalibration
  | some r =>
    if r.mismatch cfg ≠ none then s.resolve State.take k g .noCalibration
    else
      match s.freeTile with
      | none => (s.resolve State.take k g .storeFull).pressFreeze State.take g
      | some t =>
        (s.setTile t (allocatedTile k e g r c.generation cfg lat)).modSlot k fun x => x.setEntry g .inStore

/-- R44. Handle one enabled amplifier slot of an associated readout start; nothing is left to handle once the slot has ended
(log 20). -/
def State.handleSegment (l : Fin 12) (k : Fin 4) (e : Nat) (lat : Latched) (s : State) (a : Fin 8) : State :=
  let g := segmentOf l a
  let x := s.slot k
  if x.state = .free ∨ x.exposure ≠ e then s
  else if x.entry g ≠ .notStarted then
    s.setSlot k { x with duplicates := satAdd Config.sat16 x.duplicates 1 }
  else if x.state ≠ .opened ∧ x.listed g = false then s
  else s.startSegment l k e lat g

/-- The enabled amplifier slots of a link, in slot order. -/
def LinkConfig.enabled (c : LinkConfig) : List (Fin 8) := allAmplifiers.filter fun a => c.slots.getLsbD a.val

/-- R43. Associate a readout start. -/
def State.associate (s : State) (l : Fin 12) (e row : Nat) : State :=
  match s.slotOf e with
  | none => s.raise .readoutIgnored (code8 l.val ++ code16 e ++ code16 row)
  | some k =>
    let lat := (s.port l).latch e (some (s.slot k).nominal)
    let s := s.modSlot k fun x => if x.timer = .notStarted then { x with timer := .running } else x
    State.settleSlot ((s.port l).cfg.enabled.foldl (State.handleSegment l k e lat) s) k

/-- A START marker still waits behind the one being taken. -/
def hasStart (items : List BufItem) : Bool :=
  items.any fun x => match x with | .start _ _ => true | _ => false

/-- R13. The latched values are shown in the context of the readout that the start begins. -/
def State.latchContext (s : State) (l : Fin 12) (lat : Latched) (rest : List BufItem) : State :=
  s.modPort l fun p =>
    match p.ctx with
    | none => p
    | some c => if hasStart rest then p else { p with ctx := some { c with latched := some lat } }

/-- R12. The intake takes a readout start: armed transfers, association and allocation, and the latch. -/
def State.takeStart (s : State) (l : Fin 12) (e row : Nat) (rest : List BufItem) : State :=
  let s := allAmplifiers.foldl (fun s a => s.armedTransfer (segmentOf l a)) s
  let lat := (s.port l).latch e ((s.slotOf e).map fun k => (s.slot k).nominal)
  (s.latchContext l lat rest).associate l e row

/-- R11, R12. Take the truncation and START markers at the head of the buffer. -/
def State.takeMarkers (l : Fin 12) : List BufItem → State → State
  | .truncation :: rest, s =>
    let s := (s.setBuffer l rest).closeTiles l true
    if s.measure l = [] then State.takeMarkers l rest s else s
  | .start e r :: rest, s => (s.setBuffer l rest).takeStart l e r rest
  | _, s => s

/-- The intake takes a readout start at the head of the buffer, when it may act on the buffer at all (R9, R97). -/
def State.readoutStart (s : State) (l : Fin 12) : State :=
  if s.measure l = [] ∧ s.holdsClaim (.intake l) = false then
    (State.takeMarkers l (s.port l).buffer s).resumeLink l
  else s

end Sys2Proof.Machine
end

