-- ==== Sys2Proof/Machine/Exposures.lean ====
section
/-!
DEFINITION. The exposure table's requests and the readout limit (R35 to R54), and SCALE_SET (R108).
-/

namespace Sys2Proof.Machine

/-! ## EXPOSURE_OPEN (R35, R36) -/

/-- A scale or limit in range: 1/16 to 16 in 1/4096. -/
def scaleInRange (v : Nat) : Bool := decide (256 ≤ v ∧ v ≤ 65536)

/-- The mode a code names. -/
def modeOf (code : Nat) : Option Mode :=
  match code with
  | 0 => some .fixed
  | 1 => some .tracking
  | 2 => some .settled
  | _ => none

/-- The lowest-numbered FREE exposure slot. -/
def State.freeSlot (s : State) : Option (Fin 4) := allSlots.find? fun k => decide ((s.slot k).state = .free)

/-- R35, check 1. -/
def exposureFieldsOk (exposure : Nat) (initial : Option Nat) (lower upper attack decay quota nominal limit : Nat) : Bool :=
  decide (1 ≤ exposure ∧ exposure ≤ 65535) && (initial.map scaleInRange).getD true && scaleInRange lower
    && scaleInRange upper && decide (lower ≤ upper) && decide (attack ≤ 256) && decide (decay ≤ 256)
    && decide (1 ≤ quota ∧ quota ≤ 32) && decide (1 ≤ nominal ∧ nominal ≤ 3600000) && decide (limit ≤ 600)

/-- R36. The slot EXPOSURE_OPEN fills. -/
def openedSlot (exposure : Nat) (mode : Mode) (scale lower upper attack decay quota nominal limit : Nat) : ExpSlot :=
  { ExpSlot.empty with
    state := .opened, exposure := exposure, nominal := nominal, limit := if limit = 0 then 60 else limit
    photo := { mode := mode, scale := clampScale lower upper scale, lower := lower, upper := upper, attack := attack,
               decay := decay, quota := quota, accepted := 0, rejected := 0, frozen := false } }

def State.exposureOpen (s : State) (exposure mode : Nat) (initial : Option Nat)
    (lower upper attack decay quota nominal limit : Nat) : Reply :=
  match modeOf mode with
  | none => s.refuse .badField
  | some m =>
    if exposureFieldsOk exposure initial lower upper attack decay quota nominal limit = false then s.refuse .badField
    else if s.canvas.state ≠ .gathering then s.refuse .wrongState
    else if (s.slotOf exposure).isSome then s.refuse .duplicateTag
    else
      match s.freeSlot with
      | none => s.refuse .noSlot
      | some k =>
        let x := openedSlot exposure m (initial.getD s.carry) lower upper attack decay quota nominal limit
        (s.setSlot k x).done (code8 k.val ++ code32 x.photo.scale)

/-! ## PLAN_PLACE (R37, R38) and PLAN_REF (R39) -/

/-- A step component of at most 4 canvas pixels (R32). -/
def stepOk (z : Int) : Bool := decide (-262144 ≤ z ∧ z ≤ 262144)

/-- The fields of a placement are in range (R37, check 3); an anchor at the far edge is in range (log 25). -/
def Canvas.placeFieldsOk (c : Canvas) (segment weight anchorX anchorY : Nat) (steps : List Int) (cells : List Nat) : Bool :=
  decide (segment < 96) && decide (1 ≤ weight ∧ weight ≤ 255) && decide (anchorX ≤ c.width * 65536)
    && decide (anchorY ≤ c.height * 65536) && steps.all stepOk && decide (1 ≤ cells.length ∧ cells.length ≤ 16)
    && cells.all (fun i => decide (i < c.width * c.height)) && decide cells.Nodup

/-- R38. The list with a record at its place in segment order, replacing one for its segment. -/
def insertPlacement (p : Placement) : List Placement → List Placement
  | [] => [p]
  | q :: rest =>
    if p.segment < q.segment then p :: q :: rest
    else if p.segment = q.segment then p :: rest
    else q :: insertPlacement p rest

def State.planPlace (s : State) (exposure segment weight anchorX anchorY : Nat) (colX colY rowX rowY : Int)
    (cells : List Nat) : Reply :=
  match s.slotOf exposure with
  | none => s.refuse .notFound
  | some k =>
    let x := s.slot k
    if x.state ≠ .opened then s.refuse .wrongState
    else if h : segment < 96 then
      if s.canvas.placeFieldsOk segment weight anchorX anchorY [colX, colY, rowX, rowY] cells = false then
        s.refuse .badField
      else
        let p : Placement := { segment := ⟨segment, h⟩, weight := weight, anchorX := anchorX, anchorY := anchorY,
                               colX := colX, colY := colY, rowX := rowX, rowY := rowY, cells := cells }
        let l := insertPlacement p x.placements
        (s.setSlot k { x with placements := l }).done (code8 (x.planned p.segment).toNat ++ code8 l.length)
    else s.refuse .badField

/-- R39, check 3, for one record. -/
def refOk (r : Nat × Nat × Nat × F32) : Bool :=
  decide (r.1 < 96 ∧ r.2.1 ≤ 1023 ∧ r.2.2.1 ≤ 2047) && f32PositiveFinite r.2.2.2

/-- A checked reference record. -/
def refRec (r : Nat × Nat × Nat × F32) : RefRec :=
  { segment := Fin.ofNat 96 r.1, column := r.2.1, row := r.2.2.1, expected := r.2.2.2, result := .unmeasured,
    measured := none }

def State.planRef (s : State) (exposure : Nat) (refs : List (Nat × Nat × Nat × F32)) : Reply :=
  match s.slotOf exposure with
  | none => s.refuse .notFound
  | some k =>
    let x := s.slot k
    if x.state ≠ .opened then s.refuse .wrongState
    else if refs.length = 0 ∨ 8 < refs.length ∨ refs.all refOk = false then s.refuse .badField
    else if 32 < x.refs.length + refs.length then s.refuse .noRoom
    else
      let l := x.refs ++ refs.map refRec
      (s.setSlot k { x with refs := l }).done (code8 l.length)

/-! ## EXPOSURE_COMMIT (R40 to R42) -/

/-- The segment's amplifier slot is enabled in its link's configuration. -/
def State.segmentEnabled (s : State) (g : Fin 96) : Bool := (s.port (linkOf g)).cfg.slots.getLsbD (g.val % 8)

/-- The placements whose segments are not RESOLVED. -/
def ExpSlot.owing (x : ExpSlot) : List Placement := x.placements.filter fun p => !(x.entry p.segment).isResolved

/-- R40, check 5, for one cell. -/
def State.cellClosed (s : State) (i : Nat) : Bool :=
  match s.cell? i with
  | none => false
  | some c => decide (c.state ≠ .untouched ∧ c.state ≠ .pending)

/-- R40, check 6, for one cell. -/
def State.overOwed (s : State) (x : ExpSlot) (i : Nat) : Bool :=
  match s.cell? i with
  | none => false
  | some c => decide (255 < c.owed + x.owing.countP fun p => decide (i ∈ p.cells))

/-- R40. The first check that fails. -/
def State.commitRefusal (s : State) (x : ExpSlot) : Option RefuseReason :=
  let cells := x.placements.flatMap Placement.cells
  if x.placements = [] then some .emptyPlan
  else if x.placements.all (fun p => s.segmentEnabled p.segment) = false then some .segmentOff
  else if cells.any s.cellClosed then some .cellClosed
  else if cells.any (s.overOwed x) then some .owedLimit
  else none

/-- R41, step 1, for one cell of a placement that owes; R136 for one that is already RESOLVED. -/
def State.promise (owes : Bool) (s : State) (i : Nat) : State :=
  match s.cell? i with
  | none => s
  | some c => if owes then s.setCell i { c with owed := c.owed + 1 } else s.setCell i (c.resolve false)

/-- R41, step 2, for one named cell. -/
def State.touch (s : State) (i : Nat) : State :=
  match s.cell? i with
  | none => s
  | some c => if c.state = .untouched then (s.setCell i { c with state := .pending }).queueZeroing i else s

/-- R41. The commit acts on the canvas. -/
def State.commitCells (s : State) (x : ExpSlot) : State :=
  let s := x.placements.foldl
    (fun s p => p.cells.foldl (State.promise !(x.entry p.segment).isResolved) s) s
  let s := (x.placements.flatMap Placement.cells).foldl State.touch s
  { s with canvas := { s.canvas with commits := satAdd Config.sat16 s.canvas.commits 1 } }

/-- R42, step 1. The HELD(PLAN) tiles of listed segments move on; they are taken once the commit has ended (log 21). -/
def State.commitMoves (s : State) (x : ExpSlot) (moving : List (Fin 40)) : State :=
  moving.foldl (fun s t => if x.photo.mode = .settled ∧ x.photo.frozen = false then s.holdTile t else s.queueTile t) s

/-- R42, step 2. One tile of an unlisted segment is discarded, and its segment resolved UNLISTED. -/
def State.discardUnlisted (k : Fin 4) (s : State) (t : Fin 40) : State :=
  let g := (s.tile t).segment
  (s.discardTile t .unlisted).recordResolution k g .unlisted

/-- The links of some tiles, in the order of the tiles. Where one event discards tiles of several links, their measurement and intake
go on in this order, tile slot order, and their claims wait in it (log 40). -/
def State.linksOf (s : State) (ts : List (Fin 40)) : List (Fin 12) := ts.map fun t => linkOf (s.tile t).segment

/-- R41, R42. The commit of a slot that has passed its checks. A link whose tile under measurement the commit discards goes on only at
the end, after the state that the answer gives is fixed (log 41), and several such links in tile slot order (log 40). -/
def State.commit (s : State) (k : Fin 4) : Reply :=
  let x := s.slot k
  let s := s.commitCells x
  let moving := (s.tilesOf k).filter fun t => decide ((s.tile t).state = .heldPlan) && x.planned (s.tile t).segment
  let dropped := (s.tilesOf k).filter fun t => !x.planned (s.tile t).segment
  let links := s.linksOf dropped
  let s := s.commitMoves x moving
  let s := dropped.foldl (State.discardUnlisted k) s
  let s := (s.modSlot k fun y => { y with state := .committed }).settleSlot k
  let s := (s.exhaustedTest State.take k).take
  let after := (s.slot k).state
  let s := (links.foldl State.resumeLink s).settle
  s.done (code8 after.code ++ code8 x.owing.length ++ code8 (x.placements.length - x.owing.length)
    ++ code8 moving.length ++ code8 dropped.length)

def State.exposureCommit (s : State) (exposure : Nat) : Reply :=
  match s.slotOf exposure with
  | none => s.refuse .notFound
  | some k =>
    let x := s.slot k
    if x.state ≠ .opened then s.refuse .wrongState
    else
      match s.commitRefusal x with
      | some why => s.refuse why
      | none => s.commit k

/-! ## EXPOSURE_ABANDON (R52, R53) -/

/-- The segments an abandonment resolves (R52, step 4). -/
def ExpSlot.abandoned (x : ExpSlot) : List (Fin 96) :=
  allSegments.filter fun g =>
    if x.isCommitted then x.planned g && !(x.entry g).isResolved else decide (x.entry g = .inStore)

/-- R52, R53, R124. A slot is abandoned. Its PLACING tile, where it is stopped at once, leaves after the slot's end. -/
def State.abandonSlot (s : State) (k : Fin 4) : State :=
  let tiles := s.tilesOf k
  let gone := tiles.filter fun t => decide ((s.tile t).state ≠ .placing)
  let placing := tiles.filter fun t => decide ((s.tile t).state = .placing)
  let s := gone.foldl (fun s t => s.discardTile t .abandoned) s
  let s := placing.foldl (fun s t => s.modTile t fun x => { x with owner := none }) s
  let s := (s.slot k).abandoned.foldl (fun s g => s.recordResolution k g .abandoned) s
  let s := s.endSlot k .abandoned
  placing.foldl State.stopDetached s

/-- R124. The unit takes the head of the queue where an event found it busy and has left it IDLE; `before` is what it was doing. -/
def State.takeFreed (s : State) (before : Option PlaceCtx) : State :=
  if before ≠ none ∧ s.place = none then s.take else s

/-- R52, R53. The links of the slot's tiles go on after its end, in tile slot order (log 40). -/
def State.exposureAbandon (s : State) (exposure : Nat) : Reply :=
  match s.slotOf exposure with
  | none => s.refuse .notFound
  | some k =>
    let links := s.linksOf (s.tilesOf k)
    let u := (s.abandonSlot k).takeFreed s.place
    (State.settle (links.foldl State.resumeLink u)).done (code8 k.val)

/-! ## The readout limit (R47 to R49) -/

/-- R48. Expiry in an OPEN slot. The links of its tiles go on after its end, in tile slot order (log 40). -/
def State.overrun (s : State) (k : Fin 4) : State :=
  let tiles := s.tilesOf k
  let links := s.linksOf tiles
  let s := tiles.foldl (fun s t => s.discardTile t .overrun) s
  State.settle (links.foldl State.resumeLink (s.endSlot k .overrun))

/-- R49. Expiry in a committed slot. -/
def State.writeOff (s : State) (k : Fin 4) : State :=
  let s := s.modSlot k fun x => { x with timer := .expired }
  let late := (s.slot k).placements.filterMap fun p =>
    if (s.slot k).entry p.segment = .notStarted then some p.segment else none
  State.settle ((late.foldl (fun s g => s.resolve State.take k g .noReadout) s).settleSlot k)

/-- R47. The readout limit of a slot expires. -/
def State.limitExpiry (s : State) (k : Fin 4) : State :=
  let x := s.slot k
  if x.timer ≠ .running then s
  else if x.state = .opened then s.overrun k
  else if x.isCommitted then s.writeOff k
  else s

/-! ## EXPOSURE_QUERY (R54) -/

/-- A reference's result: its state byte and its reason byte. -/
def RefResult.code : RefResult → List Byte
  | .unmeasured => [0, 0xFF]
  | .accepted => [1, 0xFF]
  | .rejected .edge => [2, 0]
  | .rejected .missing => [2, 1]
  | .rejected .flagged => [2, 2]
  | .rejected .nonpositive => [2, 3]

def RefRec.code (r : RefRec) : List Byte :=
  code8 r.segment.val ++ code16 r.column ++ code16 r.row ++ codeF32 r.expected ++ r.result.code
    ++ codePart (r.measured.map codeF32)

/-- The photometry fields in the order of R95. -/
def Photometry.code (p : Photometry) : List Byte :=
  code8 p.mode.code ++ code32 p.scale ++ code32 p.lower ++ code32 p.upper ++ code16 p.attack ++ code16 p.decay
    ++ code8 p.quota ++ code8 p.accepted ++ code8 p.rejected ++ codeFlag p.frozen

/-- The time remaining of a RUNNING timer in ms, a free value within the readout limit (log 4). -/
def State.remaining (s : State) (x : ExpSlot) : Nat := Config.timeRemaining s.freeIndex % (x.limit * 1000 + 1)

/-- The result of EXPOSURE_QUERY (R54). -/
def State.exposureContent (s : State) (k : Fin 4) (x : ExpSlot) : List Byte :=
  code8 k.val ++ code8 x.state.code ++ code16 x.exposure ++ code32 x.nominal ++ code16 x.limit ++ code8 x.timer.code
    ++ codePart (if x.timer = .running then some (code32 (s.remaining x)) else none)
    ++ codeList8 (fun p => code8 p.segment.val) x.placements ++ codeList8 RefRec.code x.refs
    ++ x.entries.toList.flatMap Entry.code ++ x.tallies.toList.flatMap code8 ++ code16 x.duplicates ++ x.totals.code
    ++ x.photo.code

def State.exposureQuery (s : State) (exposure : Nat) : Reply :=
  match s.slotOf exposure with
  | none => s.refuse .notFound
  | some k =>
    let x := s.slot k
    let used := if x.timer = .running then 1 else 0
    State.done { s with freeIndex := s.freeIndex + used } (s.exposureContent k x)

/-! ## SCALE_SET (R108) -/

def State.scaleSet (s : State) (exposure value : Nat) : Reply :=
  match s.slotOf exposure with
  | none => s.refuse .notFound
  | some k =>
    let x := s.slot k
    if scaleInRange value = false then s.refuse .badField
    else if x.photo.mode = .settled ∧ x.photo.frozen = true then s.refuse .wrongState
    else
      let v := clampScale x.photo.lower x.photo.upper value
      (s.setSlot k { x with photo := { x.photo with scale := v } }).done (code32 v ++ codeFlag (decide (v ≠ value)))

end Sys2Proof.Machine
end

