-- ==== Sys2Proof/Machine/Links.lean ====
section
/-!
DEFINITION. The link ports' shared operations: changes of state (R1), wake and detection (R3), the loss of a link (R7, R8, R18,
R19, R21), housekeeping (R13 to R15), and the relay lane (R23 to R31).
-/

namespace Sys2Proof.Machine

/-! ## Codes -/

/-- A port state: its state byte and its reason byte. -/
def PortState.code : PortState → Nat
  | .off => 0 | .down => 1 | .waking => 2 | .aligning => 3 | .synced => 4 | .reading => 5 | .fault => 6

def portCode (st : PortState) (reason : Option FaultReason) : List Byte :=
  code8 st.code ++ code8 (match reason with | none => 0xFF | some .align => 0)

def LinkCause.code : LinkCause → Nat
  | .enable => 0 | .signal => 1 | .training => 2 | .wakeLimit => 3 | .locked => 4 | .alignFail => 5 | .start => 6
  | .finish => 7 | .lockLost => 8 | .signalLost => 9 | .disable => 10 | .reset => 11 | .park => 12

def Zone.code : Zone → Nat
  | .below => 0 | .above => 1 | .inside => 2

/-! ## Changes of state -/

/-- R1. A port takes a state, with its fault reason; a change raises LINK_STATE. -/
def State.setPortState (s : State) (l : Fin 12) (st : PortState) (reason : Option FaultReason) (cause : LinkCause) : State :=
  let p := s.port l
  let t := s.setPort l { p with state := st, reason := reason }
  if p.state = st then t
  else t.raise .linkState (code8 l.val ++ portCode p.state p.reason ++ portCode st reason ++ code8 cause.code)

/-- R1. Entry to FAULT with reason ALIGN: LINK_STATE, then FAULT_LINK with the tap. -/
def State.portFault (s : State) (l : Fin 12) : State :=
  let s := (s.modPort l fun p => { p with hkPart := [] }).setPortState l .fault (some .align) .alignFail
  s.raise .faultLink (code8 l.val ++ code8 0 ++ code8 (s.port l).tap)

/-- What entry to WAKING does beside the state (R3, R14, R24): a fresh wake limit, no cycle under assembly, no abort owed. -/
def Port.woken (p : Port) : Port :=
  { p with wakeLimit := true, hkPart := [], relay := { p.relay with abortOwed := false } }

/-- R3. A detection, acted on only in DOWN with signal while the store is READY. -/
def State.detect (s : State) (l : Fin 12) : State :=
  let p := s.port l
  if p.state = .down ∧ p.signal = true ∧ s.store.state = .ready then
    (s.modPort l Port.woken).setPortState l .waking none .signal
  else s

/-! ## Relay (R23 to R31) -/

/-- A relay is in flight (R23). -/
def Relay.inFlight (r : Relay) : Bool := decide (r.phase ≠ .idle)

def RelayOutcome.code : RelayOutcome → List Byte
  | .complete => code8 0 ++ codePart none
  | .abortedFarEnd => code8 1 ++ codePart (some (code8 0))
  | .abortedOverlong => code8 1 ++ codePart (some (code8 1))
  | .timeout => code8 2 ++ codePart none
  | .linkLost => code8 3 ++ codePart none
  | .cancelled => code8 4 ++ codePart none

/-- The content of RELAY_DONE (R30). -/
def Relay.doneContent (r : Relay) (l : Fin 12) (o : RelayOutcome) : List Byte :=
  code8 l.val ++ code16 r.number ++ o.code ++ code8 r.acked ++ codeList8 (fun b => [b]) r.reply

/-- The record as a relay ends: IDLE, with its counts and reply bytes kept (R23). -/
def Relay.ended (r : Relay) : Relay := { r with phase := .idle, outgoing := [] }

/-- R30. The relay of a link, with record `r`, ends. -/
def State.endRelay (s : State) (l : Fin 12) (r : Relay) (o : RelayOutcome) : State :=
  (s.modPort l fun p => { p with relay := r.ended }).raise .relayDone (r.doneContent l o)

/-- A relay in flight ends, if there is one (R31). -/
def State.cutRelay (s : State) (l : Fin 12) (o : RelayOutcome) : State :=
  let r := (s.port l).relay
  if r.inFlight then s.endRelay l r o else s

/-- What a lane marker does to a relay in flight (R26 to R28). -/
inductive RelayStep where
  | ignored
  | progress (r : Relay)
  | ends (r : Relay) (o : RelayOutcome)
  deriving DecidableEq, Repr

/-- R26, R27, R28. -/
def Relay.mark (r : Relay) (m : Marker) (b : Byte) : RelayStep :=
  if m = .abort then .ends { r with abortOwed := false } .abortedFarEnd
  else
    match r.phase with
    | .idle => .ignored
    | .waitQuiet =>
      if m = .none then
        if r.acked < r.outgoing.length then .progress { r with phase := .offer }
        else if r.expected = 0 then .ends r .complete
        else .progress { r with phase := .waitByte }
      else .ignored
    | .offer => if m = .ack then .progress { r with acked := r.acked + 1, phase := .waitQuiet } else .ignored
    | .waitByte =>
      if m = .byte ∨ m = .last then
        if r.reply.length < r.expected then
          .progress { r with reply := r.reply ++ [b], lastSeen := decide (m = .last), phase := .acknowledge }
        else .ends { r with abortOwed := true } .abortedOverlong
      else .ignored
    | .acknowledge =>
      if m = .none then (if r.lastSeen then .ends r .complete else .progress { r with phase := .waitByte }) else .ignored

/-- R29. A frame without progress is counted; at the timeout the relay ends. -/
def State.relayIdle (s : State) (l : Fin 12) : State :=
  let r := (s.port l).relay
  if r.inFlight then
    let r := { r with idleFrames := r.idleFrames + 1 }
    if r.timeout ≤ r.idleFrames then s.endRelay l r .timeout else s.modPort l fun p => { p with relay := r }
  else s

/-- The step of R26 or R27 that ends a relay COMPLETE or OVERLONG is progress, so it leaves no frame counted; the ABORT of R28 is
neither progress nor counted, and leaves the count (R29, log 39). -/
def Relay.endCount (r : Relay) (o : RelayOutcome) : Relay :=
  { r with idleFrames := if o = .abortedFarEnd then r.idleFrames else 0 }

/-- R29. The relay takes the lane of a good or stale frame. -/
def State.relayFrame (s : State) (l : Fin 12) (m : Marker) (b : Byte) : State :=
  let r := (s.port l).relay
  if r.inFlight then
    match r.mark m b with
    | .ignored => s.relayIdle l
    | .progress r => s.modPort l fun p => { p with relay := { r with idleFrames := 0 } }
    | .ends r o => s.endRelay l (r.endCount o) o
  else s

/-- R24. The lane content of an outbound frame. -/
def Relay.lane (r : Relay) : Marker × Byte :=
  if r.abortOwed then (.abort, 0)
  else
    match r.phase with
    | .offer =>
      match r.outgoing.drop r.acked with
      | [] => (.none, 0)
      | [b] => (.last, b)
      | b :: _ :: _ => (.byte, b)
    | .acknowledge => (.ack, 0)
    | .idle | .waitQuiet | .waitByte => (.none, 0)

/-- R24. A port that sends idle frames (R1) answers an arrival with one; ABORT sent is owed no longer. -/
def State.sendLane (s : State) (l : Fin 12) : State :=
  let p := s.port l
  if p.state.sends = .idleFrames then
    s.setPort l { p with lane := some p.relay.lane, relay := { p.relay with abortOwed := false } }
  else s

/-! ## Loss of the link -/

/-- The closing of a link (R7, R8, R18, R19): the buffer, the context and the cycle under assembly are dropped, the intake's write
is withdrawn, the FILLING tiles close as TRUNCATED, and the relay ends. -/
def State.closeLink (s : State) (l : Fin 12) (o : RelayOutcome) : State :=
  let s := s.modPort l fun p => { p with buffer := [], ctx := none, hkPart := [] }
  ((s.withdraw (.intake l)).closeTiles l true).cutRelay l o

/-- What entry to DOWN or OFF does beside the state: the wake limit stops, and an abort owed is dropped (R24). -/
def Port.dropped (p : Port) : Port :=
  { p with wakeLimit := false, relay := { p.relay with abortOwed := false } }

/-- The lock counts and the fault reason are cleared too (R18, R19). -/
def Port.cleared (p : Port) : Port := { p.dropped with goodRun := 0, badRun := 0 }

/-- A port goes to `st` and its link closes; the notices come in R7's order. -/
def State.loseLink (s : State) (l : Fin 12) (st : PortState) (cause : LinkCause) (o : RelayOutcome) (f : Port → Port) : State :=
  let s := s.setPortState l st none cause
  let s := s.closeLink l o
  s.modPort l f

/-! ## Housekeeping (R14, R15) -/

/-- R15. The zone of a temperature. -/
def LinkConfig.zone (c : LinkConfig) (temp : Nat) : Zone :=
  if temp < c.low then .below else if c.high < temp then .above else .inside

/-- R15. The causes FIRST, STATUS, LOW_EDGE and HIGH_EDGE of a completion after the one recorded. -/
def hkCauses (old : Option HkCycle) (new : HkCycle) : List Bool :=
  match old with
  | none => [true, false, false, false]
  | some o =>
    [false, decide (o.words.getD 5 0 ≠ new.words.getD 5 0),
     decide (o.zone ≠ new.zone ∧ (o.zone = .below ∨ new.zone = .below)),
     decide (o.zone ≠ new.zone ∧ (o.zone = .above ∨ new.zone = .above))]

/-- R15. A cycle completes. -/
def State.hkComplete (s : State) (l : Fin 12) (words : List Nat) : State :=
  let p := s.port l
  let c : HkCycle := { words := words, zone := p.cfg.zone (words.getD 4 0) }
  let causes := hkCauses p.hk c
  let s := s.setPort l { p with hk := some c, hkPart := [] }
  if causes.any id then s.raise .hkChange (code8 (flagBits causes) ++ code8 l.val ++ words.flatMap code16) else s

/-- R14. The assembler takes a word. -/
def State.hkWord (s : State) (l : Fin 12) (index value : Nat) : State :=
  let p := s.port l
  if index = 0 then s.setPort l { p with hkPart := [value] }
  else if p.hkPart ≠ [] ∧ index = p.hkPart.length then
    let words := p.hkPart ++ [value]
    if words.length = 12 then s.hkComplete l words else s.setPort l { p with hkPart := words }
  else s.setPort l { p with hkPart := [] }

end Sys2Proof.Machine
end

