-- ==== Sys2Proof/Machine/Frames.lean ====
section
/-!
DEFINITION. The arrival of a camera link frame: reading and judging it (R6), alignment (R4), the hunt and lock (R5, R7), and the
actions of its flags, tag and row (R9 to R11).
-/

namespace Sys2Proof.Machine

/-! ## Reading a frame (layout of the camera link frame) -/

/-- Two bytes of a frame; a byte the frame does not have reads as 0 (log 13). -/
def word16 (bytes : List Byte) (i : Nat) : Nat := (bytes.getD i 0).toNat + 256 * (bytes.getD (i + 1) 0).toNat

def frameKind (bytes : List Byte) : Nat := (bytes.getD 0 0).toNat
def frameFlags (bytes : List Byte) : Nat := (bytes.getD 1 0).toNat
def frameTag (bytes : List Byte) : Nat := word16 bytes 2
def frameRow (bytes : List Byte) : Nat := word16 bytes 4

/-- START and END (bits 0 and 1 of the flags). -/
def frameStart (bytes : List Byte) : Bool := decide (frameFlags bytes % 2 = 1)
def frameEnd (bytes : List Byte) : Bool := decide (frameFlags bytes / 2 % 2 = 1)

/-- The relay marker. A code outside the layout names no marker, and the relay does not use it (log 34). -/
def frameMarker (bytes : List Byte) : Option Marker :=
  match (bytes.getD 10 0).toNat with
  | 0 => some .none
  | 1 => some .byte
  | 2 => some .last
  | 3 => some .ack
  | 4 => some .abort
  | _ => none

/-- The training pattern: 16 bytes alternating 55h and AAh. -/
def trainPattern : List Byte :=
  [0x55, 0xAA, 0x55, 0xAA, 0x55, 0xAA, 0x55, 0xAA, 0x55, 0xAA, 0x55, 0xAA, 0x55, 0xAA, 0x55, 0xAA]

/-- A TRAIN frame as a port that does not decode recognises it: by its kind and its pattern (R3, log 13). -/
def isTrain (bytes : List Byte) : Bool :=
  decide (frameKind bytes = 2 ∧ (bytes.drop 11).take 16 = trainPattern)

/-- The length a kind requires under a configuration (R6). -/
def LinkConfig.frameLength (c : LinkConfig) (kind : Nat) : Nat :=
  if kind = 1 then 15
  else if kind = 2 then 31
  else 15 + c.enabled.length * (2 * (c.active + c.overscan))

/-- R6. The first reason for which a frame is bad. -/
def LinkConfig.judge (c : LinkConfig) (bytes : List Byte) : Option BadReason :=
  let n := bytes.length
  if n < 4 ∨ (crc32 (bytes.take (n - 4))).toNat ≠ bytesToNat (bytes.drop (n - 4)) then some .crc
  else if frameKind bytes < 1 ∨ 3 < frameKind bytes then some .kind
  else if n ≠ c.frameLength (frameKind bytes) then some .length
  else none

/-- Raw values of 2 bytes. -/
def rawWords : List Byte → List Nat
  | lo :: hi :: rest => (lo.toNat + 256 * hi.toNat) :: rawWords rest
  | [_] => []
  | [] => []

/-- The slot rows of a ROW frame, in slot order. -/
def cutRows (active overscan : Nat) : List (Fin 8) → List Nat → List SlotRow
  | [], _ => []
  | a :: rest, ws =>
    { slot := a, active := ws.take active, overscan := (ws.drop active).take overscan }
      :: cutRows active overscan rest (ws.drop (active + overscan))

/-- The row a good ROW frame carries. -/
def LinkConfig.rowOf (c : LinkConfig) (bytes : List Byte) : BufRow :=
  { index := frameRow bytes
    slots := cutRows c.active c.overscan c.enabled (rawWords ((bytes.drop 11).take (bytes.length - 15))) }

/-! ## The receive buffer -/

/-- The rows in a receive buffer. -/
def bufferedRows (items : List BufItem) : Nat :=
  items.countP fun x => match x with | .row _ => true | .truncation | .start _ _ | .finish => false

/-- R9 to R11. A ROW frame's markers and, if it was accepted, its row enter the buffer; a row that finds no room is dropped and
counted. Where the row does not enter and the buffer is empty, the markers are taken at once. -/
def State.enterRow (s : State) (l : Fin 12) (before : List BufItem) (row : Option BufRow) (after : List BufItem) : State :=
  let p := s.port l
  let room := decide (bufferedRows p.buffer < Config.bufferRows)
  let enters := row.isSome && room
  let items := before ++ (match row with | some r => if room then [.row r] else [] | none => []) ++ after
  let lost := row.isSome && !room
  let s := s.setPort l { p with
    buffer := p.buffer ++ items
    overflow := if lost then satAdd Config.sat32 p.overflow 1 else p.overflow }
  if p.buffer = [] ∧ enters = false then s.readoutStart l else s.intakeRun l

/-- A stale row is counted (R10). -/
def State.countStale (s : State) (l : Fin 12) : State :=
  s.modPort l fun p => { p with stale := satAdd Config.sat32 p.stale 1 }

/-- R10, R11. A ROW frame with START: the context, the state, and its markers and row. -/
def State.rowStart (s : State) (l : Fin 12) (bytes : List Byte) : State :=
  let p := s.port l
  let stale := decide (p.cfg.rows ≤ frameRow bytes)
  let ctx : ReadoutCtx := { exposure := frameTag bytes, lastRow := frameRow bytes, latched := none }
  let before : List BufItem :=
    (if p.state = .reading then [BufItem.truncation] else []) ++ [.start (frameTag bytes) (frameRow bytes)]
  let s := (s.modPort l fun p => { p with ctx := some ctx }).setPortState l .reading none .start
  let s := if frameEnd bytes then (s.modPort l fun p => { p with ctx := none }).setPortState l .synced none .finish else s
  let s := if stale then s.countStale l else s
  s.enterRow l before (if stale then none else some (p.cfg.rowOf bytes)) (if frameEnd bytes then [.finish] else [])

/-- R10, R11. A ROW frame without START in READING. -/
def State.rowInReadout (s : State) (l : Fin 12) (c : ReadoutCtx) (bytes : List Byte) : State :=
  let p := s.port l
  if frameTag bytes ≠ c.exposure then s.countStale l
  else
    let stale := decide (frameRow bytes ≤ c.lastRow ∨ p.cfg.rows ≤ frameRow bytes)
    let s := if stale then s.countStale l else s.modPort l fun p => { p with ctx := some { c with lastRow := frameRow bytes } }
    let s := if frameEnd bytes then (s.modPort l fun p => { p with ctx := none }).setPortState l .synced none .finish else s
    s.enterRow l [] (if stale then none else some (p.cfg.rowOf bytes)) (if frameEnd bytes then [.finish] else [])

/-- R10, R11. The flags, tag and row of a good ROW frame in SYNCED or READING. -/
def State.rowFrame (s : State) (l : Fin 12) (bytes : List Byte) : State :=
  if frameStart bytes then s.rowStart l bytes
  else
    match (s.port l).ctx with
    | some c => s.rowInReadout l c bytes
    | none => s.countStale l

/-- A good ROW frame is stale for lock (R7, R10). -/
def Port.staleRow (p : Port) (bytes : List Byte) : Bool :=
  if frameStart bytes then decide (p.cfg.rows ≤ frameRow bytes)
  else
    match p.ctx with
    | none => true
    | some c =>
      decide (frameTag bytes ≠ c.exposure ∨ frameRow bytes ≤ c.lastRow ∨ p.cfg.rows ≤ frameRow bytes)

/-! ## Good and bad frames -/

/-- R6. A bad frame is counted and captured, and the cycle under assembly is discarded (R14). -/
def Port.badFrame (p : Port) (why : BadReason) (bytes : List Byte) : Port :=
  { p with
    bad := satAdd Config.sat32 p.bad 1
    hkPart := []
    capture := some { reason := why, kind := frameKind bytes, flags := frameFlags bytes, exposure := frameTag bytes,
                      row := frameRow bytes, length := bytes.length } }

/-- R6. What every good frame brings: the counter, the housekeeping word and the relay lane. -/
def State.goodFrame (s : State) (l : Fin 12) (bytes : List Byte) : State :=
  let s := s.modPort l fun p => { p with good := satAdd Config.sat32 p.good 1 }
  let s := s.hkWord l (bytes.getD 6 0).toNat (word16 bytes 7)
  match frameMarker bytes with
  | some m => s.relayFrame l m (bytes.getD 9 0)
  | none => s.relayIdle l

/-- R5. A frame while hunting. -/
def State.huntFrame (s : State) (l : Fin 12) (bytes : List Byte) : State :=
  match (s.port l).cfg.judge bytes with
  | none =>
    let s := s.goodFrame l bytes
    let p := s.port l
    if p.goodRun + 1 = 2 then (s.setPort l { p with goodRun := 0, badRun := 0 }).setPortState l .synced none .locked
    else s.setPort l { p with goodRun := p.goodRun + 1, badRun := 0 }
  | some why =>
    let s := s.modPort l fun p => p.badFrame why bytes
    let p := s.port l
    let s := s.setPort l { p with badRun := p.badRun + 1, goodRun := 0 }
    if p.badRun + 1 = 4 then s.portFault l else s

/-- R7. Loss of lock. -/
def State.loseLock (s : State) (l : Fin 12) : State := s.loseLink l .waking .lockLost .linkLost Port.woken

/-- R6, R7, R10. A frame in SYNCED or READING. -/
def State.lockedFrame (s : State) (l : Fin 12) (bytes : List Byte) : State :=
  match (s.port l).cfg.judge bytes with
  | none =>
    let s := s.goodFrame l bytes
    if frameKind bytes = 3 then
      let stale := (s.port l).staleRow bytes
      let s := if stale then s else s.modPort l fun p => { p with badRun := 0 }
      s.rowFrame l bytes
    else s.modPort l fun p => { p with badRun := 0 }
  | some why =>
    let s := s.modPort l fun p => { p.badFrame why bytes with badRun := p.badRun + 1 }
    if 4 ≤ (s.port l).badRun then s.loseLock l else s.relayIdle l

/-- R4. A TRAIN frame while stepping; `rising` is the sense sampled at the present tap. -/
def State.tapStep (s : State) (l : Fin 12) (rising : Bool) : State :=
  let p := s.port l
  if p.sense = some !rising then s.setPort l { p with hunting := true, sense := none }
  else if p.tap = 63 then s.portFault l
  else s.setPort l { p with tap := p.tap + 1, sense := some rising }

/-- R3, R4. The first TRAIN frame in WAKING: entry to ALIGNING. -/
def State.trainFound (s : State) (l : Fin 12) : State :=
  let s := s.modPort l fun p =>
    { p with wakeLimit := false, tap := 0, sense := none, hunting := false, goodRun := 0, badRun := 0 }
  s.setPortState l .aligning none .training

/-- R1, R6. A frame arrives at a port, and the outbound frame follows (R24). -/
def State.frameArrives (s : State) (l : Fin 12) (rising : Bool) (bytes : List Byte) : State :=
  let p := s.port l
  match p.state with
  | .off | .down | .fault => s
  | .waking => if isTrain bytes then (s.trainFound l).sendLane l else s
  | .aligning =>
    if p.hunting then (s.huntFrame l bytes).sendLane l
    else if isTrain bytes then (s.tapStep l rising).sendLane l
    else s.sendLane l
  | .synced | .reading => (s.lockedFrame l bytes).sendLane l

end Sys2Proof.Machine
end

