-- ==== Sys2Proof/Machine/LinkRequests.lean ====
section
/-!
DEFINITION. The link ports' requests (R2, R16 to R20, R25) and their line events (R3, R8).
-/

namespace Sys2Proof.Machine

/-- A request that names a link, 0 to 11; a higher number is refused BAD_FIELD. -/
def State.withLink (s : State) (link : Nat) (f : Fin 12 → Reply) : Reply :=
  if h : link < 12 then f ⟨link, h⟩ else s.refuse .badField

/-- R2. -/
def State.linkEnable (s : State) (link : Nat) : Reply :=
  s.withLink link fun l =>
    if (s.port l).state = .off then
      State.done (((s.modPort l fun p => { p.dropped with hkPart := [] }).setPortState l .down none .enable).detect l) []
    else s.done []

/-- R17. The parts of a configuration are in range. -/
def linkConfigOk (slots active rows overscan missing low high warm : Nat) : Bool :=
  decide (slots ≤ 255) && decide (64 ≤ active ∧ active ≤ 1024 ∧ active % 16 = 0) && decide (64 ≤ rows ∧ rows ≤ 2048)
    && decide (overscan ≤ 64) && decide (missing ≤ 255) && decide (low < high ∧ high ≤ 65535)
    && decide (1 ≤ warm ∧ warm ≤ 16)

/-- R17. -/
def State.linkConfig (s : State) (link slots active rows overscan missing low high warm : Nat) : Reply :=
  s.withLink link fun l =>
    if linkConfigOk slots active rows overscan missing low high warm = false then s.refuse .badField
    else if (s.port l).state = .reading ∨ 0 < bufferedRows (s.port l).buffer then s.refuse .busy
    else
      State.done (s.modPort l fun p => { p with
        cfg := { slots := BitVec.ofNat 8 slots, active := active, rows := rows, overscan := overscan, missing := missing,
                 low := low, high := high, warm := warm } }) []

/-- R18. -/
def State.linkDisable (s : State) (link : Nat) : Reply :=
  s.withLink link fun l =>
    if (s.port l).state = .off then s.done []
    else State.done (s.loseLink l .off .disable .cancelled Port.cleared).settle []

/-- R19. -/
def State.linkReset (s : State) (link : Nat) : Reply :=
  s.withLink link fun l =>
    if (s.port l).state = .off then s.refuse .wrongState
    else if (s.port l).state = .down then s.done []
    else State.done ((s.loseLink l .down .reset .cancelled Port.cleared).detect l).settle []

/-- The relay state of R23, and the phase, absent in IDLE. -/
def RelayPhase.code : RelayPhase → List Byte
  | .idle => [0, 0xFF]
  | .waitQuiet => [1, 0]
  | .offer => [1, 1]
  | .waitByte => [2, 2]
  | .acknowledge => [2, 3]

/-- What LINK_QUERY reports of the relay (R23). -/
def Relay.code (r : Relay) : List Byte :=
  r.phase.code ++ code16 r.number ++ code8 r.acked ++ code8 r.reply.length ++ code8 r.idleFrames

def LinkConfig.code (c : LinkConfig) : List Byte :=
  code8 c.slots.toNat ++ code16 c.active ++ code16 c.rows ++ code8 c.overscan ++ code8 c.missing ++ code16 c.low
    ++ code16 c.high ++ code8 c.warm

def Latched.code (v : Latched) : List Byte :=
  codeOpt32 v.time ++ codeOpt32 v.temp ++ code8 (flagBits [v.nominal, v.warm])

def ReadoutCtx.code (c : ReadoutCtx) : List Byte :=
  code16 c.exposure ++ code16 c.lastRow ++ codePart (c.latched.map Latched.code)

def BadReason.code : BadReason → Nat
  | .crc => 0 | .kind => 1 | .length => 2

def BadCapture.code (c : BadCapture) : List Byte :=
  code8 c.reason.code ++ code8 c.kind ++ code8 c.flags ++ code16 c.exposure ++ code16 c.row ++ code32 c.length

/-- The result of LINK_QUERY (R20). -/
def Port.content (p : Port) : List Byte :=
  portCode p.state p.reason
    ++ codePart (if p.state = .aligning then some (code8 p.hunting.toNat) else none) ++ code8 p.tap
    ++ codePart (if p.state = .aligning ∧ p.hunting = true then some (code8 p.goodRun) else none)
    ++ code8 p.badRun ++ p.cfg.code ++ codePart (p.ctx.map ReadoutCtx.code) ++ code8 (bufferedRows p.buffer)
    ++ codeOpt8 (if p.hkPart = [] then none else some (p.hkPart.length - 1)) ++ codeFlag p.hk.isSome
    ++ p.relay.code ++ code32 p.good ++ code32 p.bad ++ code32 p.stale ++ code32 p.overflow
    ++ codePart (p.capture.map BadCapture.code)

/-- R20. -/
def State.linkQuery (s : State) (link : Nat) : Reply := s.withLink link fun l => s.done (s.port l).content

def HkCycle.code (c : HkCycle) : List Byte := c.words.flatMap code16 ++ code8 c.zone.code

/-- R16. Whether a complete cycle exists is told by the presence byte of the part that carries it, and by no byte of its own (log 24). -/
def State.hkRead (s : State) (link : Nat) : Reply :=
  s.withLink link fun l => s.done (codePart ((s.port l).hk.map HkCycle.code))

/-- R25. The record of an accepted relay. -/
def Relay.start (r : Relay) (outgoing : List Byte) (expected timeout : Nat) : Relay :=
  { r with
    phase := .waitQuiet, number := wrapSucc16 r.number, outgoing := outgoing, acked := 0, expected := expected
    reply := [], lastSeen := false, timeout := timeout, idleFrames := 0 }

/-- R25. -/
def State.relayRequest (s : State) (link : Nat) (outgoing : List Byte) (expected timeout : Nat) : Reply :=
  s.withLink link fun l =>
    if outgoing.length < 1 ∨ 32 < outgoing.length ∨ 32 < expected ∨ timeout < 16 ∨ 255 < timeout then s.refuse .badField
    else
      let p := s.port l
      if p.relay.inFlight then s.refuse .busy
      else if p.state ≠ .synced ∧ p.state ≠ .reading then s.refuse .wrongState
      else
        let r := p.relay.start outgoing expected timeout
        State.done (s.setPort l { p with relay := r }) (code8 l.val ++ code16 r.number)

/-! ## Line events -/

/-- R3. The line passes from no signal to signal. -/
def State.signalFound (s : State) (l : Fin 12) : State :=
  if (s.port l).signal then s else (s.modPort l fun p => { p with signal := true }).detect l

/-- R8. Signal is lost. -/
def State.signalGone (s : State) (l : Fin 12) : State :=
  let st := (s.port l).state
  let s := s.modPort l fun p => { p with signal := false }
  if st = .waking ∨ st = .aligning ∨ st = .synced ∨ st = .reading then
    s.loseLink l .down .signalLost .linkLost Port.dropped
  else s

/-- R3. The wake limit expires: back to DOWN, and a fresh attempt if signal is still present. -/
def State.wakeExpires (s : State) (l : Fin 12) : State :=
  if (s.port l).wakeLimit = true ∧ (s.port l).state = .waking then
    ((s.modPort l fun p => { p.dropped with hkPart := [] }).setPortState l .down none .wakeLimit).detect l
  else s

/-- R29. A relay whose frames without progress have reached its timeout ends. -/
def State.relayExpires (s : State) (l : Fin 12) : State :=
  let r := (s.port l).relay
  if r.inFlight = true ∧ r.timeout ≤ r.idleFrames then s.endRelay l r .timeout else s

end Sys2Proof.Machine
end

