-- ==== Sys2Proof/Machine/CalRequests.lean ====
section
/-!
DEFINITION. The calibration block's requests (R58 to R64) and the flat library (R70 to R76).
-/

namespace Sys2Proof.Machine

/-! ## CAL_LOAD (R58, R59) -/

/-- The bias a mode code names, with the field of that mode. -/
def biasFrom (mode skip level : Nat) : Option Bias :=
  match mode with
  | 0 => some (.overscan skip)
  | 1 => some (.fixed level)
  | _ => none

/-- A defect rectangle's fields are in range. -/
def rectOk (d : Nat × Nat × Nat × Nat) : Bool :=
  decide (d.1 ≤ d.2.1 ∧ d.2.1 ≤ 1023 ∧ d.2.2.1 ≤ d.2.2.2 ∧ d.2.2.2 ≤ 2047)

/-- R58, check 1, but for the segment and the mode (log 26). -/
def calFieldsOk (skip level gain : Nat) (flat : Option Nat) (saturation : Nat)
    (defects : List (Nat × Nat × Nat × Nat)) : Bool :=
  decide (skip ≤ 15) && decide (level ≤ 65535) && decide (1024 ≤ gain ∧ gain ≤ 65536)
    && (flat.map fun f => decide (f ≤ 23)).getD true && decide (1 ≤ saturation ∧ saturation ≤ 65535)
    && decide (defects.length ≤ 16) && defects.all rectOk

/-- The library entry a record will name. -/
def flatIndex (flat : Option Nat) : Option (Fin 24) := flat.map (Fin.ofNat 24)

/-- R58, checks 2 and 3. -/
def State.calRefusal (s : State) (cfg : LinkConfig) (bias : Bias) (flat : Option (Fin 24)) : Option RefuseReason :=
  match flat with
  | some i =>
    let f := s.flat i
    if f.state ≠ .valid then some .flatNotValid
    else if f.columns ≠ cfg.active ∨ f.rows ≠ cfg.rows ∨ bias.fits cfg.overscan = false then some .geometry
    else none
  | none => if bias.fits cfg.overscan = false then some .geometry else none

def State.calLoad (s : State) (segment mode skip level gain : Nat) (flat : Option Nat) (saturation : Nat)
    (defects : List (Nat × Nat × Nat × Nat)) : Reply :=
  if h : segment < 96 then
    let g : Fin 96 := ⟨segment, h⟩
    match biasFrom mode skip level with
    | none => s.refuse .badField
    | some bias =>
      if calFieldsOk skip level gain flat saturation defects = false then s.refuse .badField
      else
        let cfg := (s.port (linkOf g)).cfg
        match s.calRefusal cfg bias (flatIndex flat) with
        | some why => s.refuse why
        | none =>
          let r : CalRec := { bias := bias, gain := gain, flat := flatIndex flat, saturation := saturation,
                              defects := defects.map fun d => ⟨d.1, d.2.1, d.2.2.1, d.2.2.2⟩,
                              columns := cfg.active, rows := cfg.rows }
          State.done (s.setSegCal g { s.segCal g with holding := some r }) []
  else s.refuse .badField

/-! ## CAL_APPLY (R60 to R62) -/

/-- The named segments, in segment order. -/
def named (segments : BitVec 96) : List (Fin 96) := allSegments.filter fun g => segments.getLsbD g.val

/-- R60, check 3, for one segment: its port is READING, or it has a FILLING tile. -/
def State.applyBusy (s : State) (g : Fin 96) : Bool :=
  decide ((s.port (linkOf g)).state = .reading)
    || allTiles.any fun t => decide ((s.tile t).state = .filling ∧ (s.tile t).segment = g)

/-- The segment's holding record is empty. -/
def State.holdingEmpty (s : State) (g : Fin 96) : Bool := (s.segCal g).holding.isNone

def State.transferAll (s : State) (gs : List (Fin 96)) : State :=
  gs.foldl (fun s g => s.setSegCal g (s.segCal g).transfer) s

def State.armAll (s : State) (gs : List (Fin 96)) (armed : Bool) : State :=
  gs.foldl (fun s g => s.setSegCal g { s.segCal g with armed := armed }) s

def State.calApply (s : State) (segments : BitVec 96) (when_ : Nat) : Reply :=
  let gs := named segments
  if gs = [] then s.refuse .badField
  else
    match when_ with
    | 0 =>
      if gs.any s.holdingEmpty then s.refuse .empty
      else if gs.any s.applyBusy then s.refuse .busy
      else
        let s := s.transferAll gs
        s.done (codeList8 (fun g => code16 (s.segCal g).generation) gs)
    | 1 => if gs.any s.holdingEmpty then s.refuse .empty else (s.armAll gs true).done []
    | 2 => (s.armAll gs false).done []
    | _ => s.refuse .badField

/-! ## CAL_QUERY (R64) -/

def Rect.code (r : Rect) : List Byte := code16 r.firstCol ++ code16 r.lastCol ++ code16 r.firstRow ++ code16 r.lastRow

/-- The bias mode, and the field of each mode where it applies. -/
def Bias.code : Bias → List Byte
  | .overscan skip => code8 0 ++ codePart (some (code8 skip)) ++ codePart none
  | .fixed level => code8 1 ++ codePart none ++ codePart (some (code16 level))

def CalRec.code (r : CalRec) : List Byte :=
  r.bias.code ++ code32 r.gain ++ codeOpt8 (r.flat.map Fin.val) ++ code16 r.saturation ++ codeList8 Rect.code r.defects
    ++ code16 r.columns ++ code16 r.rows

/-- Whether a record matches, and the part that fails (R57, R64). An empty record matches nothing, and the failing part is then absent
(log 24). -/
def matchCode (r : Option CalRec) (cfg : LinkConfig) : List Byte :=
  match r with
  | none => codeFlag false ++ codePart none
  | some r => codeFlag (r.mismatch cfg).isNone ++ codePart ((r.mismatch cfg).map fun f => code8 f.code)

def State.calQuery (s : State) (segment : Nat) : Reply :=
  if h : segment < 96 then
    let g : Fin 96 := ⟨segment, h⟩
    let c := s.segCal g
    let cfg := (s.port (linkOf g)).cfg
    s.done (codePart (c.holding.map CalRec.code) ++ codePart (c.active.map CalRec.code) ++ codeFlag c.armed
      ++ code16 c.generation ++ matchCode c.active cfg ++ matchCode c.holding cfg)
  else s.refuse .badField

/-! ## The flat library -/

def FlatState.code : FlatState → Nat
  | .empty => 0 | .loading => 1 | .valid => 2

/-- A request that names a flat, 0 to 23; a higher index is refused BAD_FIELD. -/
def State.withFlat (s : State) (index : Nat) (f : Fin 24 → Reply) : Reply :=
  if h : index < 24 then f ⟨index, h⟩ else s.refuse .badField

/-- An entry other than this one is LOADING. -/
def State.otherLoading (s : State) (i : Fin 24) : Bool :=
  allFlats.any fun j => decide (j ≠ i ∧ (s.flat j).state = .loading)

/-- R71. -/
def State.flatBegin (s : State) (index columns rows : Nat) (check : BitVec 32) : Reply :=
  s.withFlat index fun i =>
    if columns < 64 ∨ 1024 < columns ∨ columns % 16 ≠ 0 ∨ rows < 64 ∨ 2048 < rows then s.refuse .badField
    else if s.flatNamed i then s.refuse .isProtected
    else if s.otherLoading i then s.refuse .busy
    else
      State.done (s.setFlat i { state := .loading, columns := columns, rows := rows, expected := check, count := 0,
                                running := 0 }) []

/-- R167. Values from place `offset` on, cut at the flat's row boundaries; the first argument bounds the runs. -/
def cutRuns (columns : Nat) : Nat → Nat → List Nat → List (Nat × List Nat)
  | 0, _, _ => []
  | n + 1, offset, values =>
    if values = [] then []
    else
      let room := columns - offset % columns
      (offset, values.take room) :: cutRuns columns n (offset + room) (values.drop room)

/-- R72. An accepted FLAT_DATA makes the handler BUSY; its answer waits for the writes. -/
def State.flatData (s : State) (tag : Byte) (index offset : Nat) (values : List Nat) : Reply :=
  s.withFlat index fun i =>
    let f := s.flat i
    if values.length < 1 ∨ 2048 < values.length then s.refuse .badField
    else if f.state ≠ .loading then s.refuse .wrongState
    else if offset ≠ f.count then s.refuse .outOfOrder
    else if f.columns * f.rows < f.count + values.length then s.refuse .noRoom
    else
      let job : FlatJob := { tag := tag, index := i, values := values,
                             runs := cutRuns f.columns values.length offset values }
      let s := { s with host := { s.host with job := some job } }
      ((s.claim .flatWrite).grant, none)

/-- A flat value in two bytes for the check (R70). -/
def flatBytes (values : List Nat) : List Byte := values.flatMap code16

/-- R72. The last run is written: the count and the running check take the values, and the answer is queued. -/
def State.flatJobDone (s : State) (j : FlatJob) : State :=
  let f := s.flat j.index
  let count := f.count + j.values.length
  let s := s.setFlat j.index { f with count := count, running := crc32More f.running (flatBytes j.values) }
  let s := { s with host := { s.host with job := none } }
  s.queueAnswer j.tag 0x12 (.done (code32 count))

/-- R72. A flat data write completes. -/
def State.flatRunDone (s : State) : State :=
  match s.host.job with
  | none => s
  | some j =>
    match j.runs with
    | [] => s
    | (place, vs) :: rest =>
      let s := { s with mem := s.mem.setFlatRun j.index place vs }
      if rest = [] then s.flatJobDone j
      else State.claim { s with host := { s.host with job := some { j with runs := rest } } } .flatWrite

/-- R73. -/
def State.flatEnd (s : State) (index : Nat) : Reply :=
  s.withFlat index fun i =>
    let f := s.flat i
    if f.state ≠ .loading then s.refuse .wrongState
    else if f.count = f.columns * f.rows ∧ f.running = f.expected then
      State.done (s.setFlat i { f with state := .valid, count := 0, running := 0 }) []
    else (s.setFlat i .reset, some (.refused .checkFailed))

/-- R74. -/
def State.flatDrop (s : State) (index : Nat) : Reply :=
  s.withFlat index fun i =>
    if s.flatNamed i then s.refuse .isProtected else State.done (s.setFlat i .reset) []

/-- The segments for which `f` holds, as a set. -/
def segmentSet (f : Fin 96 → Bool) : List Byte := codeBits 96 fun n => if h : n < 96 then f ⟨n, h⟩ else false

/-- R76. -/
def State.flatQuery (s : State) (index : Nat) : Reply :=
  s.withFlat index fun i =>
    let f := s.flat i
    s.done (code8 f.state.code
      ++ codePart (if f.state = .empty then none
                   else some (code16 f.columns ++ code16 f.rows ++ code32 f.expected.toNat))
      ++ codePart (if f.state = .loading then some (code32 f.count ++ code32 f.running.toNat) else none)
      ++ segmentSet (fun g => (s.segCal g).holdingNames i) ++ segmentSet (fun g => (s.segCal g).activeNames i))

end Sys2Proof.Machine
end

