-- ==== Sys2Proof/Machine/CanvasRequests.lean ====
section
/-!
DEFINITION. The requests of the canvas (R138 to R148), of the drain unit (R160, R161) and of the tile store (R92), and the drain's
completions (R156 to R158).
-/

namespace Sys2Proof.Machine

/-! ## Canvas -/

/-- The drain order a code names. -/
def orderOf (code : Nat) : Option DrainOrder :=
  match code with
  | 0 => some .ordered
  | 1 => some .arrival
  | _ => none

/-- R138, R139. -/
def State.canvasOpen (s : State) (width height order : Nat) : Reply :=
  match orderOf order with
  | none => s.refuse .badField
  | some o =>
    if width < 1 ∨ 32 < width ∨ height < 1 ∨ 32 < height then s.refuse .badField
    else if s.canvas.state ≠ .idle ∨ allSlots.any (fun k => decide ((s.slot k).state ≠ .free)) = true
        ∨ s.drain.state ≠ .idle then s.refuse .busy
    else
      State.done { s with canvas :=
        { state := .gathering, width := width, height := height, order := o, commits := 0, released := 0,
          cells := List.replicate (width * height) .fresh } } (code16 (width * height))

/-- R141. The close acts on one cell. -/
def State.closeCell (s : State) (i : Nat) : State :=
  match s.cell? i with
  | none => s
  | some c =>
    if c.state = .untouched then s.setCell i { c with state := .exempt }
    else if c.state = .pending ∧ c.owed = 0 then s.completeCell i c
    else s

/-- R140, R141. -/
def State.canvasClose (s : State) : Reply :=
  if s.canvas.state ≠ .gathering then s.refuse .wrongState
  else if allSlots.any (fun k => decide ((s.slot k).state = .opened)) then s.refuse .planPending
  else
    let exempted := s.canvas.count .untouched
    let completed := s.canvas.cells.countP fun c => decide (c.state = .pending ∧ c.owed = 0)
    let s := (List.range s.canvas.cells.length).foldl State.closeCell s
    let left := s.canvas.count .pending
    let s := { s with canvas := { s.canvas with state := .closed } }
    State.done s.finishTest.settle (code16 exempted ++ code16 completed ++ code16 left)

/-- R142, R144. A request that names a cell of the open canvas. -/
def State.withCell (s : State) (i : Nat) (f : Cell → Reply) : Reply :=
  if 1023 < i then s.refuse .badField
  else if s.canvas.state = .idle then s.refuse .wrongState
  else
    match s.cell? i with
    | none => s.refuse .badField
    | some c => f c

/-- R142. -/
def State.cellRelease (s : State) (i : Nat) : Reply :=
  s.withCell i fun c =>
    if c.state = .pending then
      let s := s.completeCell i { c with owed := 0, forced := true }
      let s := { s with canvas := { s.canvas with released := s.canvas.released + 1 } }
      State.done s.settle (code8 CellState.pending.code ++ code8 CellState.complete.code ++ code8 c.owed)
    else if c.state = .untouched then
      let s := s.setCell i { c with state := .exempt }
      State.done s.settle (code8 CellState.untouched.code ++ code8 CellState.exempt.code ++ code8 0)
    else s.done (code8 c.state.code ++ code8 c.state.code ++ code8 0)

/-- Every field of a cell record (R130). -/
def Cell.code (c : Cell) : List Byte :=
  code8 c.state.code ++ code8 c.owed ++ code16 c.resolved ++ code16 c.placed ++ code16 c.writtenOff ++ code32 c.late
    ++ codeFlag c.forced ++ codeFlag c.zeroed

/-- R144. -/
def State.cellQuery (s : State) (i : Nat) : Reply :=
  s.withCell i fun c =>
    s.done (code16 i ++ code8 (i % s.canvas.width) ++ code8 (i / s.canvas.width) ++ c.code
      ++ codeFlag (decide (i ∈ s.store.zeroQueue))
      ++ codePart (if c.state = .complete then some (code16 (s.drain.queue.idxOf i + 1)) else none))

/-- R162. The drain meets the abandonment of its canvas. -/
def State.drainAbandon (s : State) : State :=
  let d := { s.drain with queue := [] }
  match d.state with
  | .idle => { s with drain := d }
  | .reading =>
    if s.store.access = some .drainRead then { s with drain := { d with ended := true } }
    else State.withdraw { s with drain := { Drain.reset with hold := d.hold } } .drainRead
  | .offered => State.removeSource { s with drain := { Drain.reset with hold := d.hold } } .blocks
  | .sending => { s with drain := { d with ended := true } }
  | .stopped => { s with drain := { Drain.reset with hold := d.hold } }

/-- R147. Every slot that is non-FREE at the acceptance is abandoned, in slot order. A unit whose tile this stops is IDLE, and finds
nothing to take: the last slot's abandonment has discarded the last QUEUED tile (log 42). The links of the discarded tiles go on at the
end, in slot order and then tile slot order (log 40). -/
def State.canvasAbandon (s : State) : Reply :=
  if s.canvas.state = .idle then s.refuse .wrongState
  else
    let links := s.linksOf (allSlots.flatMap s.tilesOf)
    let slots := allSlots.filter fun k => decide ((s.slot k).state ≠ .free)
    let s := (slots.foldl State.abandonSlot s).drainAbandon
    let s := s.raise .canvasDone (s.canvas.doneContent (some slots.length))
    let s := links.foldl State.resumeLink s.canvasToIdle
    State.done s.settle (code8 slots.length)

/-! ## Drain -/

def DrainState.code : DrainState → Nat
  | .idle => 0 | .reading => 1 | .offered => 2 | .sending => 3 | .stopped => 4

/-- The answer of DRAIN_HOLD and DRAIN_RESUME: the unit state, and whether the hold flag was set before. -/
def State.drainAnswer (s : State) (was : Bool) : Reply := s.done (code8 s.drain.state.code ++ codeFlag was)

/-- R160. -/
def State.drainHold (s : State) : Reply :=
  if s.drain.hold then s.drainAnswer true
  else
    let d := { s.drain with hold := true }
    match d.state with
    | .reading =>
      if s.store.access = some .drainRead then State.drainAnswer { s with drain := d } false
      else (State.withdraw { s with drain := { d with state := .stopped } } .drainRead).settle.drainAnswer false
    | .offered =>
      (State.removeSource { s with drain := { d with state := .stopped, formed := none } } .blocks).drainAnswer false
    | .idle | .sending | .stopped => State.drainAnswer { s with drain := d } false

/-- R161. -/
def State.drainResume (s : State) : Reply :=
  if s.drain.hold = false then s.drainAnswer false
  else
    let d := { s.drain with hold := false }
    match d.state with
    | .stopped => (State.claim { s with drain := { d with state := .reading } } .drainRead).settle.drainAnswer true
    | .idle => (State.settle { s with drain := d }).drainAnswer true
    | .reading | .offered | .sending => State.drainAnswer { s with drain := d } true

/-- R156, R157. The block of the drain's position. -/
def State.formBlock (s : State) : Block :=
  let d := s.drain
  { cell := d.cell, number := d.block, last := decide (d.block = 16)
    forced := match s.cell? d.cell with | some c => c.forced | none => false
    pixels := (List.range 4096).map fun i => (s.mem.canvasPixel d.cell ((d.block - 1) * 4096 + i)).output }

/-- R156, R160, R162. A drain block read completes. -/
def State.drainReadDone (s : State) : State :=
  if s.drain.ended then { s with drain := { Drain.reset with hold := s.drain.hold } }
  else if s.drain.hold then { s with drain := { s.drain with state := .stopped } }
  else { s with drain := { s.drain with state := .offered, formed := some s.formBlock } }

/-- R158. The sixteenth block of a cell has been emitted. -/
def State.cellEmitted (s : State) : State :=
  let i := s.drain.cell
  let s := match s.cell? i with
    | some c => s.setCell i { c with state := .drained }
    | none => s
  let d := s.drain
  let s := { s with drain := { d with state := .idle, cell := 0, block := 0, formed := none } }
  s.finishTest

/-- R158, R162. The drain's part in the emission of its block. -/
def State.blockEmitted (s : State) : State :=
  let d := s.drain
  if d.ended then { s with drain := { Drain.reset with hold := d.hold } }
  else if d.block = 16 then s.cellEmitted
  else
    let d := { d with block := d.block + 1, formed := none }
    if d.hold then { s with drain := { d with state := .stopped } }
    else State.claim { s with drain := { d with state := .reading } } .drainRead

/-! ## STORE_QUERY (R92) -/

/-- A tile state with its hold reason: the state byte and the reason byte. -/
def TileState.code : TileState → List Byte
  | .free => [0, 0xFF]
  | .filling => [1, 0xFF]
  | .heldPlan => [2, 0]
  | .heldScale => [2, 1]
  | .queued => [3, 0xFF]
  | .placing => [4, 0xFF]

/-- A tile record's fields but its state, in the order of R78. The hold order, which only a HELD(SCALE) tile has, is a part with its
presence byte (log 24). -/
def Tile.code (t : Tile) : List Byte :=
  codePart (t.holdOrder.map code16) ++ codeOpt8 (t.owner.map Fin.val) ++ code16 t.exposure ++ code8 t.segment.val
    ++ code16 t.generation ++ code16 t.columns ++ code16 t.rows ++ code8 t.limit ++ code32 t.time ++ codeOpt32 t.temp
    ++ t.flagByte ++ codeBits t.rows (fun r => decide (r ∈ t.held)) ++ code16 t.received
    ++ codeOpt16 t.missing ++ code32 t.saturated ++ code32 t.defect ++ code8 t.accepted ++ code8 t.rejected
    ++ code32 t.spill ++ code32 t.late ++ code16 t.reached

/-- One tile slot in STORE_QUERY. -/
def State.tileContent (s : State) (t : Fin 40) : List Byte :=
  let x := s.tile t
  x.state.code ++ codePart (if x.state = .free then none else some x.code)

/-- The number of FREE tile slots. -/
def State.freeTiles (s : State) : Nat := allTiles.countP fun t => decide ((s.tile t).state = .free)

/-- R92. -/
def State.storeQuery (s : State) : Reply :=
  s.done (allTiles.flatMap s.tileContent ++ codeList8 (fun t => code8 t.val) s.tiles.queue ++ code8 s.freeTiles
    ++ code16 s.tiles.holdCounter)

end Sys2Proof.Machine
end

