-- ==== Sys2Proof/Machine/Store.lean ====
section
/-!
DEFINITION. The canvas store's controller: entry to READY (R165, R166, R172), refresh (R169), zeroing jobs (R170), PARK and UNPARK
(R171, R172), and the completions of the intake's and the photometry loop's accesses (R81, R98).
-/

namespace Sys2Proof.Machine

def StoreState.code : StoreState → Nat
  | .initialising => 0 | .ready => 1 | .parked => 2 | .waking => 3

/-- R165, R172. Entry to READY; `wake` tells its cause from START_UP. -/
def State.enterReady (s : State) (wake : Bool) : State :=
  let s := { s with store := { s.store with state := .ready, interval := true } }
  let s := s.raise .ready (code8 wake.toNat ++ code8 s.store.owed)
  let s := if s.store.zeroQueue = [] then s else s.claim .zeroing
  (allLinks.foldl State.detect s.grant).settle

/-- R166. Initialisation completes. -/
def State.initDone (s : State) : State := if s.store.state = .initialising then s.enterReady false else s

/-- R172. The wake completes. -/
def State.wakeDone (s : State) : State := if s.store.state = .waking then s.enterReady true else s

/-- R169. The refresh interval expires. -/
def State.refreshExpiry (s : State) : State :=
  if s.store.interval = true ∧ s.store.state = .ready then
    if s.store.owed < Config.maxOwed then
      State.grant { s with store := { s.store with owed := s.store.owed + 1 } }
    else
      let n := satAdd Config.sat32 s.store.late 1
      State.raise { s with store := { s.store with late := n } } .storeFault (code8 0 ++ code32 n)
  else s

/-- R169. A refresh completes. -/
def State.refreshed (s : State) : State :=
  if s.store.access = some .refresh then
    State.grant { s.freeStore with store := { s.freeStore.store with owed := s.store.owed - 1 } }
  else s

/-- R170, R134. The head job of the zeroing queue completes. -/
def State.zeroed (s : State) : State :=
  match s.store.zeroQueue with
  | [] => s
  | i :: rest =>
    let s := s.freeStore
    let s := { s with mem := s.mem.zeroCell i, store := { s.store with zeroQueue := rest } }
    let s := (s.cellZeroed i).leaveWait i
    State.settle (if rest = [] then s else s.claim .zeroing)

/-- R171. What holds PARK back. -/
def State.parkBusy (s : State) : Bool :=
  allSlots.any (fun k => decide ((s.slot k).state ≠ .free)) || allTiles.any (fun t => decide ((s.tile t).state ≠ .free))
    || s.canvas.cells.any (fun c => decide (c.state = .draining))
    || allFlats.any (fun i => decide ((s.flat i).state = .loading)) || decide (s.drain.state ≠ .idle)

/-- R21. A port that is not OFF goes to DOWN. -/
def State.parkPort (s : State) (l : Fin 12) : State :=
  if (s.port l).state = .off then s else s.loseLink l .down .park .linkLost Port.dropped

/-- R171. -/
def State.park (s : State) : Reply :=
  if s.parkBusy then s.refuse .busy
  else
    let s := (s.withdraw .zeroing).withdraw .refresh
    let s := { s with store := { s.store with state := .parked, interval := false } }
    State.done (allLinks.foldl State.parkPort s) []

/-- R172. -/
def State.unpark (s : State) : Reply :=
  if s.store.state = .parked then State.done { s with store := { s.store with state := .waking } } []
  else s.refuse .wrongState

/-- R81. The intake row write in flight completes. -/
def State.intakeDone (s : State) (l : Fin 12) : State := ((s.freeStore.writeRow l).resumeLink l).settle

/-- R98. The box row read in flight completes: the next row is claimed, or the ninth judges the box. -/
def State.boxDone (s : State) (l : Fin 12) : State :=
  match s.measure l with
  | [] => s
  | m :: rest =>
    match m.refs, (s.tile m.tile).owner with
    | i :: is, some k =>
      let s := s.freeStore
      if m.boxRow + 1 < 9 then
        ((s.setMeasure l ({ m with boxRow := m.boxRow + 1 } :: rest)).claim (.box l)).grant
      else
        match (s.slot k).refs[i]? with
        | none => s
        | some ref =>
          let r := judgeBox (s.mem.box m.tile ref.column ref.row)
          let s := s.setMeasure l ({ m with refs := is, boxRow := 0 } :: rest)
          ((s.recordRef m.tile k i r.1 r.2).resumeLink l).settle
    | _, _ => s

end Sys2Proof.Machine
end

