-- ==== Sys2Proof/Machine/HostLink.lean ====
section
/-!
DEFINITION. The host link's own requests (R180, R183, R184), the general clear (R22, R55, R77, R94, R127, R149, R163, R173, R185),
and the request handler (R177).
-/

namespace Sys2Proof.Machine

/-! ## The general clear -/

/-- R23, R31. The relay record after a general clear. -/
def Relay.clear (r : Relay) : Relay :=
  { r with phase := .idle, number := 0, outgoing := [], acked := 0, reply := [], abortOwed := false }

/-- R22. -/
def Port.clear (p : Port) : Port :=
  { p with
    state := if p.state = .off then .off else .down
    reason := none, wakeLimit := false, goodRun := 0, badRun := 0, buffer := [], ctx := none, hkPart := [], hk := none
    good := 0, bad := 0, stale := 0, overflow := 0, capture := none, relay := p.relay.clear }

/-- R77. -/
def SegCal.clear (c : SegCal) : SegCal := { c with active := none, armed := false }
def FlatEntry.clear (f : FlatEntry) : FlatEntry := if f.state = .loading then .reset else f

/-- R173. A refresh in flight goes on; every other claim and access is withdrawn. -/
def StoreCtl.clear (st : StoreCtl) : StoreCtl :=
  { st with
    state := if st.state = .parked then .waking else st.state
    late := 0, zeroQueue := [], waiting := [], rotation := StoreCtl.powerOnRotation
    access := if st.access = some .refresh then some .refresh else none }

/-- R185, but for the receiver and CLEAR_DONE. -/
def HostLink.clear (h : HostLink) : HostLink :=
  { h with
    lineErrors := 0, job := none, answers := [], notices := [], pendingNotices := Vector.replicate 13 none
    answerSource := .reset, noticeSource := .reset, blockSource := .reset }

/-- Every block's part in a general clear. -/
def State.clearBlocks (s : State) : State :=
  { s with
    ports := s.ports.map Port.clear
    cal := s.cal.map SegCal.clear
    flats := s.flats.map FlatEntry.clear
    slots := State.reset.slots
    carry := State.reset.carry
    tiles := State.reset.tiles
    measuring := State.reset.measuring
    place := none
    canvas := .idle
    drain := .reset
    store := s.store.clear
    host := s.host.clear }

/-- The content of CLEAR_DONE (R185): the source, the tag of a CLEAR, and the store state. -/
def clearContent (tag : Option Byte) (st : StoreState) : List Byte :=
  code8 (match tag with | some _ => 0 | none => 1) ++ codePart (tag.map fun t => [t]) ++ code8 st.code

/-- A general clear, by CLEAR with its tag or by the clear sequence: the blocks, CLEAR_DONE, and the detections and grant that
follow (R3, R22, R169). -/
def State.generalClear (s : State) (tag : Option Byte) : State :=
  let s := s.clearBlocks
  let s := s.raise .clearDone (clearContent tag s.store.state)
  (allLinks.foldl State.detect s).grant

/-! ## STATUS and NOTICE_MASK -/

/-- The tile states of R79. -/
def tileStates : List TileState := [.free, .filling, .heldPlan, .heldScale, .queued, .placing]

def Canvas.status (c : Canvas) : List Byte :=
  code8 c.state.code ++ codePart (if c.state = .idle then none else
    some (code8 c.width ++ code8 c.height ++ code8 c.order.code ++ code16 c.commits ++ code16 c.released
      ++ cellStates.flatMap fun st => code16 (c.count st)))

/-- The drain unit in STATUS. The current cell and block stand behind one presence byte (log 24). -/
def Drain.status (d : Drain) : List Byte :=
  code8 d.state.code ++ codePart (if d.state = .idle then none else some (code16 d.cell ++ code8 d.block))
    ++ codeFlag d.hold ++ code16 d.queue.length

/-- The pending entries, by kind, with their folded counts. -/
def HostLink.pendingList (h : HostLink) : List (NoticeKind × Nat) :=
  noticeKinds.filterMap fun k => (h.pendingOf k).map fun p => (k, p.folded)

def HostLink.status (h : HostLink) : List Byte :=
  code8 h.requests.length ++ code8 h.answers.length ++ code8 h.notices.length ++ code16 h.mask.toNat
    ++ codeList8 (fun e => code8 e.1.num.val ++ code16 e.2) h.pendingList ++ code32 h.lineErrors

/-- R183. -/
def State.status (s : State) : Reply :=
  s.done (code8 s.store.state.code ++ code8 s.store.owed ++ code32 s.store.late ++ code16 s.store.zeroQueue.length
    ++ s.canvas.status
    ++ allLinks.flatMap (fun l => portCode (s.port l).state (s.port l).reason)
    ++ allSlots.flatMap (fun k =>
        codeOpt32 (if (s.slot k).state = .free then none else some (s.slot k).exposure) ++ code8 (s.slot k).state.code)
    ++ tileStates.flatMap (fun st => code8 (allTiles.countP fun t => decide ((s.tile t).state = st)))
    ++ code8 s.tiles.queue.length ++ s.drain.status ++ s.host.status)

/-- R180. -/
def State.noticeMask (s : State) (mask : Nat) : Reply :=
  if 2 ^ 13 ≤ mask then s.refuse .badField
  else (State.movePending { s with host := { s.host with mask := BitVec.ofNat 13 mask } }).done (code16 s.host.mask.toNat)

/-! ## The request handler (R177) -/

/-- A request of this kind is passed on in a store state, or refused (R177, line 2). -/
def StoreState.refusal (st : StoreState) (kind : Byte) : Option RefuseReason :=
  match st with
  | .ready => none
  | .initialising | .waking => if kind = 0x21 then none else some .notReady
  | .parked => if kind = 0x20 ∨ kind = 0x21 ∨ kind = 0x22 ∨ kind = 0x23 then none else some .parked

/-- The owning block's answer to a request. -/
def State.owner (s : State) (tag : Byte) : Request → Reply
  | .unknown _ => s.refuse .unknownKind
  | .badLength _ => s.refuse .badLength
  | .linkEnable link => s.linkEnable link
  | .linkConfig link slots active rows overscan missing low high warm =>
    s.linkConfig link slots active rows overscan missing low high warm
  | .linkDisable link => s.linkDisable link
  | .linkReset link => s.linkReset link
  | .linkQuery link => s.linkQuery link
  | .hkRead link => s.hkRead link
  | .relay link outgoing expected timeout => s.relayRequest link outgoing expected timeout
  | .exposureOpen exposure mode initial lower upper attack decay quota nominal limit =>
    s.exposureOpen exposure mode initial lower upper attack decay quota nominal limit
  | .planPlace exposure segment weight anchorX anchorY colX colY rowX rowY cells =>
    s.planPlace exposure segment weight anchorX anchorY colX colY rowX rowY cells
  | .planRef exposure refs => s.planRef exposure refs
  | .exposureCommit exposure => s.exposureCommit exposure
  | .exposureAbandon exposure => s.exposureAbandon exposure
  | .exposureQuery exposure => s.exposureQuery exposure
  | .calLoad segment mode skip level gain flat saturation defects =>
    s.calLoad segment mode skip level gain flat saturation defects
  | .calApply segments when_ => s.calApply segments when_
  | .calQuery segment => s.calQuery segment
  | .flatBegin index columns rows check => s.flatBegin index columns rows check
  | .flatData index offset values => s.flatData tag index offset values
  | .flatEnd index => s.flatEnd index
  | .flatDrop index => s.flatDrop index
  | .flatQuery index => s.flatQuery index
  | .storeQuery => s.storeQuery
  | .scaleSet exposure value => s.scaleSet exposure value
  | .canvasOpen width height order => s.canvasOpen width height order
  | .canvasClose => s.canvasClose
  | .cellRelease cell => s.cellRelease cell
  | .cellQuery cell => s.cellQuery cell
  | .canvasAbandon => s.canvasAbandon
  | .drainHold => s.drainHold
  | .drainResume => s.drainResume
  | .park => s.park
  | .unpark => s.unpark
  | .status => s.status
  | .noticeMask mask => s.noticeMask mask
  | .clear => (s.generalClear (some tag), none)

/-- R177. A taken request is checked and handed to its owner: an unknown kind first, then the store state, then the length. -/
def State.reply (s : State) (tag : Byte) (r : Request) : Reply :=
  match r with
  | .unknown _ => s.refuse .unknownKind
  | _ =>
    match s.store.state.refusal r.kind with
    | some why => s.refuse why
    | none => s.owner tag r

/-- A request is served, and its answer, if one is due now, joins the queue after the notices of the event (R177, R178). -/
def State.serve (s : State) (tag : Byte) (r : Request) : State :=
  let a := s.reply tag r
  match a.2 with
  | some result => a.1.queueAnswer tag r.kind result
  | none => a.1

/-- The handler can take a request: it is FREE and the answer queue has room. -/
def HostLink.handlerFree (h : HostLink) : Bool := decide (h.job = none ∧ h.answers.length < Config.answerRoom)

/-- R177. Take requests from the head of the buffer while the handler can. -/
def State.handlerLoop : Nat → State → State
  | 0, s => s
  | n + 1, s =>
    match s.host.requests with
    | [] => s
    | (tag, r) :: rest =>
      if s.host.handlerFree then
        State.handlerLoop n (State.serve { s with host := { s.host with requests := rest } } tag r)
      else s

def State.handlerRun (s : State) : State := s.handlerLoop s.host.requests.length

/-- The host link at the end of an event: requests that can be taken are taken, the free line is granted, and the room this makes
lets the handler go on (R177, R182). -/
def State.pump (s : State) : State := s.handlerRun.outboundGrant.handlerRun

/-- R175. A checked request joins the request buffer, or is discarded OVERRUN; the handler may take it at once. -/
def State.arrive (s : State) (tag : Byte) (r : Request) : State :=
  State.pump
    (if Config.requestRoom ≤ s.host.requests.length then s.lineError .overrun
     else { s with host := { s.host with requests := s.host.requests ++ [(tag, r)] } })

/-! ## Bytes of the line -/

/-- What a byte of the line brings about (R174 to R176). -/
def State.rxEvent (s : State) : RxEvent → State
  | .body bytes =>
    match frameCheck bytes s.host.requests.length with
    | .error cause => s.lineError cause
    | .ok (kind, tag, payload) =>
      { s with host := { s.host with requests := s.host.requests ++ [(tag, readRequest kind payload)] } }
  | .discard cause => s.lineError cause
  | .clearSequence => s.generalClear none

/-- One byte of the line, with the event it makes. -/
def State.rxByte (s : State) (b : Byte) : State :=
  let r := s.host.rx.byte b
  let s := { s with host := { s.host with rx := r.1 } }
  match r.2 with
  | none => s
  | some e => (s.rxEvent e).pump

/-- Bytes of the line in order. -/
def State.rxBytes (s : State) (bytes : List Byte) : State := bytes.foldl State.rxByte s

end Sys2Proof.Machine
end

