-- ==== Sys2Proof/WellFormed.lean ====
section
/-!
DEFINITION. Which commands can be sent: every field of a request fits the width R186 gives it on the wire. Whether its value
is accepted is the owning rule's business, so a well-formed request may still be refused.
-/

namespace Sys2Proof

/-- A whole number fits `bytes` bytes. -/
def fitsU (bytes n : Nat) : Bool := n < 2 ^ (8 * bytes)

/-- A signed number fits 4 bytes. -/
def fitsI32 (n : Int) : Bool := decide (-2147483648 ≤ n ∧ n < 2147483648)

/-- A field that may be none fits `bytes` bytes, in which every bit set is the code of none (R186). -/
def fitsOpt (bytes : Nat) : Option Nat → Bool
  | none => true
  | some n => n + 1 < 2 ^ (8 * bytes)

/-- The frame kind codes that name a request, 01h to 23h (R174's layout, index of requests). -/
def namesRequest (kind : Byte) : Bool := decide (1 ≤ kind.toNat ∧ kind.toNat ≤ 0x23)

/-- The fields of a command fit their widths. -/
def Instr.wf : Instr → Bool
  | .powerOn | .intakeRowWriteDone | .referenceBoxReadDone | .tileTake | .placementRowDone | .drainTake
  | .drainBlockReadDone | .pictureBlockEmitted | .zeroingDone | .flatDataWriteDone | .refreshDone
  | .refreshIntervalExpiry | .initComplete | .wakeComplete | .memoryGrant | .clearSequence | .outboundGrant
  | .messageSent | .pendingMove => true
  | .signalDetect _ | .signalLoss _ | .wakeLimitExpiry _ | .relayTimeout _ | .readoutStart _ | .readoutEnd _
  | .readoutLimitExpiry _ => true
  | .cameraFrame _ _ _ | .hostFrame _ | .hostFrameDiscard _ => true
  | .unknownKind _ kind => !namesRequest kind
  | .linkEnable _ link | .linkDisable _ link | .linkReset _ link | .linkQuery _ link | .hkRead _ link => fitsU 1 link
  | .linkConfig _ link slots active rows overscan missing low high warm =>
    fitsU 1 link && fitsU 1 slots && fitsU 2 active && fitsU 2 rows && fitsU 1 overscan && fitsU 1 missing
      && fitsU 2 low && fitsU 2 high && fitsU 1 warm
  | .relay _ link outgoing expected timeout =>
    fitsU 1 link && fitsU 1 outgoing.length && fitsU 1 expected && fitsU 1 timeout
  | .exposureOpen _ exposure mode initial lower upper attack decay quota nominal limit =>
    fitsU 2 exposure && fitsU 1 mode && fitsOpt 4 initial && fitsU 4 lower && fitsU 4 upper && fitsU 2 attack
      && fitsU 2 decay && fitsU 1 quota && fitsU 4 nominal && fitsU 2 limit
  | .planPlace _ exposure segment weight anchorX anchorY colX colY rowX rowY cells =>
    fitsU 2 exposure && fitsU 1 segment && fitsU 1 weight && fitsU 4 anchorX && fitsU 4 anchorY && fitsI32 colX
      && fitsI32 colY && fitsI32 rowX && fitsI32 rowY && fitsU 1 cells.length && cells.all (fitsU 2)
  | .planRef _ exposure refs =>
    fitsU 2 exposure && fitsU 1 refs.length && refs.all fun r => fitsU 1 r.1 && fitsU 2 r.2.1 && fitsU 2 r.2.2.1
  | .exposureCommit _ exposure | .exposureAbandon _ exposure | .exposureQuery _ exposure => fitsU 2 exposure
  | .calLoad _ segment mode skip level gain flat saturation defects =>
    fitsU 1 segment && fitsU 1 mode && fitsU 1 skip && fitsU 2 level && fitsU 4 gain && fitsOpt 1 flat
      && fitsU 2 saturation && fitsU 1 defects.length
      && defects.all fun d => fitsU 2 d.1 && fitsU 2 d.2.1 && fitsU 2 d.2.2.1 && fitsU 2 d.2.2.2
  | .calApplyNow _ _ | .calApplyNextReadout _ _ | .calApplyDisarm _ _ => true
  | .calQuery _ segment => fitsU 1 segment
  | .flatBegin _ index columns rows _ => fitsU 1 index && fitsU 2 columns && fitsU 2 rows
  | .flatData _ index offset values =>
    fitsU 1 index && fitsU 4 offset && fitsU 2 values.length && values.all (fitsU 2)
  | .flatEnd _ index | .flatDrop _ index | .flatQuery _ index => fitsU 1 index
  | .scaleSet _ exposure value => fitsU 2 exposure && fitsU 4 value
  | .canvasOpen _ width height order => fitsU 1 width && fitsU 1 height && fitsU 1 order
  | .cellRelease _ cell | .cellQuery _ cell => fitsU 2 cell
  | .noticeMask _ mask => fitsU 2 mask
  | .storeQuery _ | .canvasClose _ | .canvasAbandon _ | .drainHold _ | .drainResume _ | .park _ | .unpark _
  | .status _ | .clear _ => true

end Sys2Proof
end

