-- ==== Sys2Proof/Machine/Events.lean ====
section
/-!
DEFINITION. The meanings of the event commands. An event that cannot happen in the present state changes nothing (log 2). Each
ends with the grants and takes it gives cause for (logs 7, 8).
-/

namespace Sys2Proof.Machine

/-- What every command answers: the part has a next state for each. -/
abbrev Answered := Host.Outcome State Fault Refusal

/-- POWER_ON (R166): every block's power-on values. The lines' signals, the queue and the count of free values taken are not the
part's to reset (log 10). -/
def execPowerOn (s : State) : Answered :=
  .next { State.reset with
    ports := s.ports.map fun p => { Port.reset with signal := p.signal }
    freeIndex := s.freeIndex, pending := s.pending }

/-- SIGNAL_DETECT (R3). -/
def execSignalDetect (link : Fin 12) (s : State) : Answered := .next (s.signalFound link).pump

/-- SIGNAL_LOSS (R8). -/
def execSignalLoss (link : Fin 12) (s : State) : Answered := .next (s.signalGone link).settle.pump

/-- WAKE_LIMIT_EXPIRY (R3). -/
def execWakeLimitExpiry (link : Fin 12) (s : State) : Answered := .next (s.wakeExpires link).pump

/-- CAMERA_FRAME (R3 to R7, R9 to R11, R14, R15, R24, R26 to R29). -/
def execCameraFrame (link : Fin 12) (rising : Bool) (bytes : List Byte) (s : State) : Answered :=
  .next (s.frameArrives link rising bytes).settle.pump

/-- RELAY_TIMEOUT (R29). The arrival that reaches the timeout ends the relay itself; this ends one found at its timeout. -/
def execRelayTimeout (link : Fin 12) (s : State) : Answered := .next (s.relayExpires link).pump

/-- READOUT_START (R11, R12, R43, R44, R63, R80). -/
def execReadoutStart (link : Fin 12) (s : State) : Answered := .next (s.readoutStart link).settle.pump

/-- An END marker stands at the head of a link's buffer. -/
def Port.endAtHead (p : Port) : Bool :=
  match p.buffer with
  | .finish :: _ => true
  | _ => false

/-- READOUT_END (R11, R82 to R84). -/
def execReadoutEnd (link : Fin 12) (s : State) : Answered :=
  .next (if (s.port link).endAtHead then (s.intakeRun link).settle.pump else s)

/-- INTAKE_ROW_WRITE_DONE (R81). -/
def execIntakeRowWriteDone (s : State) : Answered :=
  match s.store.access with
  | some (.intake l) => .next (s.intakeDone l).pump
  | _ => .next s

/-- REFERENCE_BOX_READ_DONE (R98, R99, R101, R104, R84). -/
def execReferenceBoxReadDone (s : State) : Answered :=
  match s.store.access with
  | some (.box l) => .next (s.boxDone l).pump
  | _ => .next s

/-- TILE_TAKE (R87, R112). -/
def execTileTake (s : State) : Answered := .next s.take.settle.pump

/-- PLACEMENT_ROW_DONE (R118 to R125). -/
def execPlacementRowDone (s : State) : Answered :=
  match s.place with
  | some ctx =>
    if ctx.phase = .inFlight ∧ s.store.access = some .placement then .next (s.freeStore.rowDone ctx).settle.pump
    else .next s
  | none => .next s

/-- READOUT_LIMIT_EXPIRY (R47 to R49). -/
def execReadoutLimitExpiry (slot : Fin 4) (s : State) : Answered := .next (s.limitExpiry slot).pump

/-- DRAIN_TAKE (R152 to R155). -/
def execDrainTake (s : State) : Answered := .next s.settle.pump

/-- DRAIN_BLOCK_READ_DONE (R156, R157, R160, R162). -/
def execDrainBlockReadDone (s : State) : Answered :=
  if s.store.access = some .drainRead then .next s.freeStore.drainReadDone.settle.pump else .next s

/-- PICTURE_BLOCK_EMITTED (R158, R162, R163). A block whose drain a general clear has stopped only leaves the line. -/
def execPictureBlockEmitted (s : State) : Answered :=
  match s.host.line with
  | some (.block _) =>
    let s := { s with host := { s.host with line := none } }
    .next (if s.drain.state = .sending then s.blockEmitted.settle.pump else s.pump)
  | _ => .next s

/-- ZEROING_DONE (R134, R170, R117). -/
def execZeroingDone (s : State) : Answered :=
  if s.store.access = some .zeroing then .next s.zeroed.pump else .next s

/-- FLAT_DATA_WRITE_DONE (R72). The arbiter grants before the handler, free after the last write, takes its next request (log 7). -/
def execFlatDataWriteDone (s : State) : Answered :=
  if s.store.access = some .flatWrite then .next s.freeStore.flatRunDone.grant.pump else .next s

/-- REFRESH_DONE (R169). -/
def execRefreshDone (s : State) : Answered := .next s.refreshed

/-- REFRESH_INTERVAL_EXPIRY (R169). -/
def execRefreshIntervalExpiry (s : State) : Answered := .next s.refreshExpiry.pump

/-- INIT_COMPLETE (R166). -/
def execInitComplete (s : State) : Answered := .next s.initDone.pump

/-- WAKE_COMPLETE (R172). -/
def execWakeComplete (s : State) : Answered := .next s.wakeDone.pump

/-- MEMORY_GRANT (R167, R168). -/
def execMemoryGrant (s : State) : Answered := .next s.grant

/-- HOST_FRAME (R174, R175, R177). -/
def execHostFrame (bytes : List Byte) (s : State) : Answered := .next (s.rxBytes bytes)

/-- CLEAR_SEQUENCE (R176, R185): the fourth pair has arrived. -/
def execClearSequence (s : State) : Answered :=
  .next (State.generalClear { s with host := { s.host with rx := .hunting } } none).pump

/-- OUTBOUND_GRANT (R182). -/
def execOutboundGrant (s : State) : Answered := .next s.outboundGrant.handlerRun

/-- MESSAGE_SENT (R182): an answer or a notice has been sent whole. -/
def execMessageSent (s : State) : Answered :=
  match s.host.line with
  | some (.answer _) => .next (State.pump { s with host := { s.host with line := none } })
  | some (.notice _) => .next (State.pump { s with host := { s.host with line := none } })
  | _ => .next s

/-- PENDING_MOVE (R181). -/
def execPendingMove (s : State) : Answered := .next s.movePending.pump

/-- UNKNOWN_KIND (R175, R177): a checked request whose kind names no request. -/
def execUnknownKind (tag kind : Byte) (s : State) : Answered :=
  if namesRequest kind then .next s else .next (s.arrive tag (.unknown kind))

/-- HOST_FRAME_DISCARD (R174, R176). -/
def execHostFrameDiscard (bytes : List Byte) (s : State) : Answered := .next (s.rxBytes bytes)

end Sys2Proof.Machine
end

