-- ==== Sys2Proof/Machine/Requests.lean ====
section
/-!
DEFINITION. The meanings of the request commands. Each is a checked request that arrives with its frame tag (R175): it joins the
request buffer, the handler takes it when it can (R177), and the owning rule named below gives its checks, effect and answer.
-/

namespace Sys2Proof.Machine

/-- LINK_ENABLE (R2, R3). -/
def execLinkEnable (tag : Byte) (link : Nat) (s : State) : Host.Outcome State Fault Refusal :=
  .next (s.arrive tag (.linkEnable link))

/-- LINK_CONFIG (R17). -/
def execLinkConfig (tag : Byte) (link slots active rows overscan missing low high warm : Nat)
    (s : State) : Host.Outcome State Fault Refusal :=
  .next (s.arrive tag (.linkConfig link slots active rows overscan missing low high warm))

/-- LINK_DISABLE (R18). -/
def execLinkDisable (tag : Byte) (link : Nat) (s : State) : Host.Outcome State Fault Refusal :=
  .next (s.arrive tag (.linkDisable link))

/-- LINK_RESET (R19). -/
def execLinkReset (tag : Byte) (link : Nat) (s : State) : Host.Outcome State Fault Refusal :=
  .next (s.arrive tag (.linkReset link))

/-- LINK_QUERY (R20). -/
def execLinkQuery (tag : Byte) (link : Nat) (s : State) : Host.Outcome State Fault Refusal :=
  .next (s.arrive tag (.linkQuery link))

/-- HK_READ (R16). -/
def execHkRead (tag : Byte) (link : Nat) (s : State) : Host.Outcome State Fault Refusal :=
  .next (s.arrive tag (.hkRead link))

/-- RELAY (R25). -/
def execRelay (tag : Byte) (link : Nat) (outgoing : List Byte) (expected timeout : Nat)
    (s : State) : Host.Outcome State Fault Refusal :=
  .next (s.arrive tag (.relay link outgoing expected timeout))

/-- EXPOSURE_OPEN (R35, R36). -/
def execExposureOpen (tag : Byte) (exposure mode : Nat) (initial : Option Nat)
    (lower upper attack decay quota nominal limit : Nat) (s : State) : Host.Outcome State Fault Refusal :=
  .next (s.arrive tag (.exposureOpen exposure mode initial lower upper attack decay quota nominal limit))

/-- PLAN_PLACE (R37, R38). -/
def execPlanPlace (tag : Byte) (exposure segment weight anchorX anchorY : Nat) (colX colY rowX rowY : Int)
    (cells : List Nat) (s : State) : Host.Outcome State Fault Refusal :=
  .next (s.arrive tag (.planPlace exposure segment weight anchorX anchorY colX colY rowX rowY cells))

/-- PLAN_REF (R39). -/
def execPlanRef (tag : Byte) (exposure : Nat) (refs : List (Nat × Nat × Nat × F32))
    (s : State) : Host.Outcome State Fault Refusal :=
  .next (s.arrive tag (.planRef exposure refs))

/-- EXPOSURE_COMMIT (R40 to R42). -/
def execExposureCommit (tag : Byte) (exposure : Nat) (s : State) : Host.Outcome State Fault Refusal :=
  .next (s.arrive tag (.exposureCommit exposure))

/-- EXPOSURE_ABANDON (R52, R53, R124). -/
def execExposureAbandon (tag : Byte) (exposure : Nat) (s : State) : Host.Outcome State Fault Refusal :=
  .next (s.arrive tag (.exposureAbandon exposure))

/-- EXPOSURE_QUERY (R54). -/
def execExposureQuery (tag : Byte) (exposure : Nat) (s : State) : Host.Outcome State Fault Refusal :=
  .next (s.arrive tag (.exposureQuery exposure))

/-- CAL_LOAD (R58, R59). -/
def execCalLoad (tag : Byte) (segment mode skip level gain : Nat) (flat : Option Nat) (saturation : Nat)
    (defects : List (Nat × Nat × Nat × Nat)) (s : State) : Host.Outcome State Fault Refusal :=
  .next (s.arrive tag (.calLoad segment mode skip level gain flat saturation defects))

/-- CAL_APPLY_NOW (R60, R61). -/
def execCalApplyNow (tag : Byte) (segments : BitVec 96) (s : State) : Host.Outcome State Fault Refusal :=
  .next (s.arrive tag (.calApply segments 0))

/-- CAL_APPLY_NEXT_READOUT (R60, R62). -/
def execCalApplyNextReadout (tag : Byte) (segments : BitVec 96) (s : State) : Host.Outcome State Fault Refusal :=
  .next (s.arrive tag (.calApply segments 1))

/-- CAL_APPLY_DISARM (R60, R62). -/
def execCalApplyDisarm (tag : Byte) (segments : BitVec 96) (s : State) : Host.Outcome State Fault Refusal :=
  .next (s.arrive tag (.calApply segments 2))

/-- CAL_QUERY (R64). -/
def execCalQuery (tag : Byte) (segment : Nat) (s : State) : Host.Outcome State Fault Refusal :=
  .next (s.arrive tag (.calQuery segment))

/-- FLAT_BEGIN (R71). -/
def execFlatBegin (tag : Byte) (index columns rows : Nat) (check : BitVec 32)
    (s : State) : Host.Outcome State Fault Refusal :=
  .next (s.arrive tag (.flatBegin index columns rows check))

/-- FLAT_DATA (R72). -/
def execFlatData (tag : Byte) (index offset : Nat) (values : List Nat)
    (s : State) : Host.Outcome State Fault Refusal :=
  .next (s.arrive tag (.flatData index offset values))

/-- FLAT_END (R73). -/
def execFlatEnd (tag : Byte) (index : Nat) (s : State) : Host.Outcome State Fault Refusal :=
  .next (s.arrive tag (.flatEnd index))

/-- FLAT_DROP (R74). -/
def execFlatDrop (tag : Byte) (index : Nat) (s : State) : Host.Outcome State Fault Refusal :=
  .next (s.arrive tag (.flatDrop index))

/-- FLAT_QUERY (R76). -/
def execFlatQuery (tag : Byte) (index : Nat) (s : State) : Host.Outcome State Fault Refusal :=
  .next (s.arrive tag (.flatQuery index))

/-- STORE_QUERY (R92). -/
def execStoreQuery (tag : Byte) (s : State) : Host.Outcome State Fault Refusal :=
  .next (s.arrive tag .storeQuery)

/-- SCALE_SET (R108). -/
def execScaleSet (tag : Byte) (exposure value : Nat) (s : State) : Host.Outcome State Fault Refusal :=
  .next (s.arrive tag (.scaleSet exposure value))

/-- CANVAS_OPEN (R138, R139). -/
def execCanvasOpen (tag : Byte) (width height order : Nat) (s : State) : Host.Outcome State Fault Refusal :=
  .next (s.arrive tag (.canvasOpen width height order))

/-- CANVAS_CLOSE (R140, R141, R145). -/
def execCanvasClose (tag : Byte) (s : State) : Host.Outcome State Fault Refusal :=
  .next (s.arrive tag .canvasClose)

/-- CELL_RELEASE (R142, R143). -/
def execCellRelease (tag : Byte) (cell : Nat) (s : State) : Host.Outcome State Fault Refusal :=
  .next (s.arrive tag (.cellRelease cell))

/-- CELL_QUERY (R144). -/
def execCellQuery (tag : Byte) (cell : Nat) (s : State) : Host.Outcome State Fault Refusal :=
  .next (s.arrive tag (.cellQuery cell))

/-- CANVAS_ABANDON (R147, R148, R162). -/
def execCanvasAbandon (tag : Byte) (s : State) : Host.Outcome State Fault Refusal :=
  .next (s.arrive tag .canvasAbandon)

/-- DRAIN_HOLD (R160). -/
def execDrainHold (tag : Byte) (s : State) : Host.Outcome State Fault Refusal :=
  .next (s.arrive tag .drainHold)

/-- DRAIN_RESUME (R161). -/
def execDrainResume (tag : Byte) (s : State) : Host.Outcome State Fault Refusal :=
  .next (s.arrive tag .drainResume)

/-- PARK (R171, R21). -/
def execPark (tag : Byte) (s : State) : Host.Outcome State Fault Refusal :=
  .next (s.arrive tag .park)

/-- UNPARK (R172). -/
def execUnpark (tag : Byte) (s : State) : Host.Outcome State Fault Refusal :=
  .next (s.arrive tag .unpark)

/-- STATUS (R183). -/
def execStatus (tag : Byte) (s : State) : Host.Outcome State Fault Refusal :=
  .next (s.arrive tag .status)

/-- NOTICE_MASK (R180). -/
def execNoticeMask (tag : Byte) (mask : Nat) (s : State) : Host.Outcome State Fault Refusal :=
  .next (s.arrive tag (.noticeMask mask))

/-- CLEAR (R184, R185). -/
def execClear (tag : Byte) (s : State) : Host.Outcome State Fault Refusal :=
  .next (s.arrive tag .clear)

end Sys2Proof.Machine
end

