-- ==== Sys2Proof/Machine/Dispatch.lean ====
section
/-!
DEFINITION. One arm per command, each one call of its meaning.
-/

namespace Sys2Proof.Machine

def exec (i : Instr) (s : State) : Host.Outcome State Fault Refusal :=
  match i with
  | .powerOn => Sys2Proof.Machine.execPowerOn s
  | .signalDetect link => Sys2Proof.Machine.execSignalDetect link s
  | .signalLoss link => Sys2Proof.Machine.execSignalLoss link s
  | .wakeLimitExpiry link => Sys2Proof.Machine.execWakeLimitExpiry link s
  | .cameraFrame link rising bytes => Sys2Proof.Machine.execCameraFrame link rising bytes s
  | .relayTimeout link => Sys2Proof.Machine.execRelayTimeout link s
  | .readoutStart link => Sys2Proof.Machine.execReadoutStart link s
  | .readoutEnd link => Sys2Proof.Machine.execReadoutEnd link s
  | .intakeRowWriteDone => Sys2Proof.Machine.execIntakeRowWriteDone s
  | .referenceBoxReadDone => Sys2Proof.Machine.execReferenceBoxReadDone s
  | .tileTake => Sys2Proof.Machine.execTileTake s
  | .placementRowDone => Sys2Proof.Machine.execPlacementRowDone s
  | .readoutLimitExpiry slot => Sys2Proof.Machine.execReadoutLimitExpiry slot s
  | .drainTake => Sys2Proof.Machine.execDrainTake s
  | .drainBlockReadDone => Sys2Proof.Machine.execDrainBlockReadDone s
  | .pictureBlockEmitted => Sys2Proof.Machine.execPictureBlockEmitted s
  | .zeroingDone => Sys2Proof.Machine.execZeroingDone s
  | .flatDataWriteDone => Sys2Proof.Machine.execFlatDataWriteDone s
  | .refreshDone => Sys2Proof.Machine.execRefreshDone s
  | .refreshIntervalExpiry => Sys2Proof.Machine.execRefreshIntervalExpiry s
  | .initComplete => Sys2Proof.Machine.execInitComplete s
  | .wakeComplete => Sys2Proof.Machine.execWakeComplete s
  | .memoryGrant => Sys2Proof.Machine.execMemoryGrant s
  | .hostFrame bytes => Sys2Proof.Machine.execHostFrame bytes s
  | .clearSequence => Sys2Proof.Machine.execClearSequence s
  | .outboundGrant => Sys2Proof.Machine.execOutboundGrant s
  | .messageSent => Sys2Proof.Machine.execMessageSent s
  | .pendingMove => Sys2Proof.Machine.execPendingMove s
  | .unknownKind tag kind => Sys2Proof.Machine.execUnknownKind tag kind s
  | .linkEnable tag link => Sys2Proof.Machine.execLinkEnable tag link s
  | .linkConfig tag link slots active rows overscan missing low high warm => Sys2Proof.Machine.execLinkConfig tag link slots active rows overscan missing low high warm s
  | .linkDisable tag link => Sys2Proof.Machine.execLinkDisable tag link s
  | .linkReset tag link => Sys2Proof.Machine.execLinkReset tag link s
  | .linkQuery tag link => Sys2Proof.Machine.execLinkQuery tag link s
  | .hkRead tag link => Sys2Proof.Machine.execHkRead tag link s
  | .relay tag link outgoing expected timeout => Sys2Proof.Machine.execRelay tag link outgoing expected timeout s
  | .exposureOpen tag exposure mode initial lower upper attack decay quota nominal limit => Sys2Proof.Machine.execExposureOpen tag exposure mode initial lower upper attack decay quota nominal limit s
  | .planPlace tag exposure segment weight anchorX anchorY colX colY rowX rowY cells => Sys2Proof.Machine.execPlanPlace tag exposure segment weight anchorX anchorY colX colY rowX rowY cells s
  | .planRef tag exposure refs => Sys2Proof.Machine.execPlanRef tag exposure refs s
  | .exposureCommit tag exposure => Sys2Proof.Machine.execExposureCommit tag exposure s
  | .exposureAbandon tag exposure => Sys2Proof.Machine.execExposureAbandon tag exposure s
  | .exposureQuery tag exposure => Sys2Proof.Machine.execExposureQuery tag exposure s
  | .calLoad tag segment mode skip level gain flat saturation defects => Sys2Proof.Machine.execCalLoad tag segment mode skip level gain flat saturation defects s
  | .calApplyNow tag segments => Sys2Proof.Machine.execCalApplyNow tag segments s
  | .calApplyNextReadout tag segments => Sys2Proof.Machine.execCalApplyNextReadout tag segments s
  | .calApplyDisarm tag segments => Sys2Proof.Machine.execCalApplyDisarm tag segments s
  | .calQuery tag segment => Sys2Proof.Machine.execCalQuery tag segment s
  | .flatBegin tag index columns rows check => Sys2Proof.Machine.execFlatBegin tag index columns rows check s
  | .flatData tag index offset values => Sys2Proof.Machine.execFlatData tag index offset values s
  | .flatEnd tag index => Sys2Proof.Machine.execFlatEnd tag index s
  | .flatDrop tag index => Sys2Proof.Machine.execFlatDrop tag index s
  | .flatQuery tag index => Sys2Proof.Machine.execFlatQuery tag index s
  | .storeQuery tag => Sys2Proof.Machine.execStoreQuery tag s
  | .scaleSet tag exposure value => Sys2Proof.Machine.execScaleSet tag exposure value s
  | .canvasOpen tag width height order => Sys2Proof.Machine.execCanvasOpen tag width height order s
  | .canvasClose tag => Sys2Proof.Machine.execCanvasClose tag s
  | .cellRelease tag cell => Sys2Proof.Machine.execCellRelease tag cell s
  | .cellQuery tag cell => Sys2Proof.Machine.execCellQuery tag cell s
  | .canvasAbandon tag => Sys2Proof.Machine.execCanvasAbandon tag s
  | .drainHold tag => Sys2Proof.Machine.execDrainHold tag s
  | .drainResume tag => Sys2Proof.Machine.execDrainResume tag s
  | .park tag => Sys2Proof.Machine.execPark tag s
  | .unpark tag => Sys2Proof.Machine.execUnpark tag s
  | .status tag => Sys2Proof.Machine.execStatus tag s
  | .noticeMask tag mask => Sys2Proof.Machine.execNoticeMask tag mask s
  | .clear tag => Sys2Proof.Machine.execClear tag s
  | .hostFrameDiscard bytes => Sys2Proof.Machine.execHostFrameDiscard bytes s

end Sys2Proof.Machine
end

