-- ==== Sys2Proof/Machine/Encode.lean ====
section
/-!
DEFINITION. The wire form of requests: the request that a request command brings, and a request's payload in bytes, written from
the same rules as the readers of Operands.lean (R186).
-/

namespace Sys2Proof.Machine

/-- The request a command brings, with its frame tag; `none` for an event. -/
def requestOf : Instr → Option (Byte × Request)
  | .unknownKind tag kind => some (tag, .unknown kind)
  | .linkEnable tag link => some (tag, .linkEnable link)
  | .linkConfig tag link slots active rows overscan missing low high warm =>
    some (tag, .linkConfig link slots active rows overscan missing low high warm)
  | .linkDisable tag link => some (tag, .linkDisable link)
  | .linkReset tag link => some (tag, .linkReset link)
  | .linkQuery tag link => some (tag, .linkQuery link)
  | .hkRead tag link => some (tag, .hkRead link)
  | .relay tag link outgoing expected timeout => some (tag, .relay link outgoing expected timeout)
  | .exposureOpen tag exposure mode initial lower upper attack decay quota nominal limit =>
    some (tag, .exposureOpen exposure mode initial lower upper attack decay quota nominal limit)
  | .planPlace tag exposure segment weight anchorX anchorY colX colY rowX rowY cells =>
    some (tag, .planPlace exposure segment weight anchorX anchorY colX colY rowX rowY cells)
  | .planRef tag exposure refs => some (tag, .planRef exposure refs)
  | .exposureCommit tag exposure => some (tag, .exposureCommit exposure)
  | .exposureAbandon tag exposure => some (tag, .exposureAbandon exposure)
  | .exposureQuery tag exposure => some (tag, .exposureQuery exposure)
  | .calLoad tag segment mode skip level gain flat saturation defects =>
    some (tag, .calLoad segment mode skip level gain flat saturation defects)
  | .calApplyNow tag segments => some (tag, .calApply segments 0)
  | .calApplyNextReadout tag segments => some (tag, .calApply segments 1)
  | .calApplyDisarm tag segments => some (tag, .calApply segments 2)
  | .calQuery tag segment => some (tag, .calQuery segment)
  | .flatBegin tag index columns rows check => some (tag, .flatBegin index columns rows check)
  | .flatData tag index offset values => some (tag, .flatData index offset values)
  | .flatEnd tag index => some (tag, .flatEnd index)
  | .flatDrop tag index => some (tag, .flatDrop index)
  | .flatQuery tag index => some (tag, .flatQuery index)
  | .storeQuery tag => some (tag, .storeQuery)
  | .scaleSet tag exposure value => some (tag, .scaleSet exposure value)
  | .canvasOpen tag width height order => some (tag, .canvasOpen width height order)
  | .canvasClose tag => some (tag, .canvasClose)
  | .cellRelease tag cell => some (tag, .cellRelease cell)
  | .cellQuery tag cell => some (tag, .cellQuery cell)
  | .canvasAbandon tag => some (tag, .canvasAbandon)
  | .drainHold tag => some (tag, .drainHold)
  | .drainResume tag => some (tag, .drainResume)
  | .park tag => some (tag, .park)
  | .unpark tag => some (tag, .unpark)
  | .status tag => some (tag, .status)
  | .noticeMask tag mask => some (tag, .noticeMask mask)
  | .clear tag => some (tag, .clear)
  | .powerOn | .signalDetect _ | .signalLoss _ | .wakeLimitExpiry _ | .cameraFrame _ _ _ | .relayTimeout _
  | .readoutStart _ | .readoutEnd _ | .intakeRowWriteDone | .referenceBoxReadDone | .tileTake | .placementRowDone
  | .readoutLimitExpiry _ | .drainTake | .drainBlockReadDone | .pictureBlockEmitted | .zeroingDone | .flatDataWriteDone
  | .refreshDone | .refreshIntervalExpiry | .initComplete | .wakeComplete | .memoryGrant | .hostFrame _ | .clearSequence
  | .outboundGrant | .messageSent | .pendingMove | .hostFrameDiscard _ => none

/-- A signed number of 4 bytes. -/
def codeI32 (z : Int) : List Byte := code32 (BitVec.ofInt 32 z).toNat

/-- `n` bytes of a whole number, low byte first. -/
def natBytes : Nat → Nat → List Byte
  | 0, _ => []
  | n + 1, v => BitVec.ofNat 8 v :: natBytes n (v / 256)

/-- A reference record of PLAN_REF. -/
def codeRef (r : Nat × Nat × Nat × F32) : List Byte := code8 r.1 ++ code16 r.2.1 ++ code16 r.2.2.1 ++ codeF32 r.2.2.2

/-- A defect rectangle of CAL_LOAD. -/
def codeRect (d : Nat × Nat × Nat × Nat) : List Byte := code16 d.1 ++ code16 d.2.1 ++ code16 d.2.2.1 ++ code16 d.2.2.2

/-- A request's payload. A request already found of unknown kind or bad length has none to give. -/
def Request.payload : Request → List Byte
  | .unknown _ | .badLength _ => []
  | .linkEnable link | .linkDisable link | .linkReset link | .linkQuery link | .hkRead link => code8 link
  | .linkConfig link slots active rows overscan missing low high warm =>
    code8 link ++ code8 slots ++ code16 active ++ code16 rows ++ code8 overscan ++ code8 missing ++ code16 low
      ++ code16 high ++ code8 warm
  | .relay link outgoing expected timeout =>
    code8 link ++ codeList8 (fun b => [b]) outgoing ++ code8 expected ++ code8 timeout
  | .exposureOpen exposure mode initial lower upper attack decay quota nominal limit =>
    code16 exposure ++ code8 mode ++ codeOpt32 initial ++ code32 lower ++ code32 upper ++ code16 attack ++ code16 decay
      ++ code8 quota ++ code32 nominal ++ code16 limit
  | .planPlace exposure segment weight anchorX anchorY colX colY rowX rowY cells =>
    code16 exposure ++ code8 segment ++ code8 weight ++ code32 anchorX ++ code32 anchorY ++ codeI32 colX ++ codeI32 colY
      ++ codeI32 rowX ++ codeI32 rowY ++ codeList8 code16 cells
  | .planRef exposure refs => code16 exposure ++ codeList8 codeRef refs
  | .exposureCommit exposure | .exposureAbandon exposure | .exposureQuery exposure => code16 exposure
  | .calLoad segment mode skip level gain flat saturation defects =>
    code8 segment ++ code8 mode ++ code8 skip ++ code16 level ++ code32 gain ++ codeOpt8 flat ++ code16 saturation
      ++ codeList8 codeRect defects
  | .calApply segments when_ => natBytes 12 segments.toNat ++ code8 when_
  | .calQuery segment => code8 segment
  | .flatBegin index columns rows check => code8 index ++ code16 columns ++ code16 rows ++ code32 check.toNat
  | .flatData index offset values => code8 index ++ code32 offset ++ codeList16 code16 values
  | .flatEnd index | .flatDrop index | .flatQuery index => code8 index
  | .scaleSet exposure value => code16 exposure ++ code32 value
  | .canvasOpen width height order => code8 width ++ code8 height ++ code8 order
  | .cellRelease cell | .cellQuery cell => code16 cell
  | .noticeMask mask => code16 mask
  | .storeQuery | .canvasClose | .canvasAbandon | .drainHold | .drainResume | .park | .unpark | .status | .clear => []

end Sys2Proof.Machine
end

