-- ==== Sys2Proof/Safety.lean ====
section
/-!
DEFINITION. What the laws of the manual say of a state, as invariants: the words the obligations are stated in.
-/

namespace Sys2Proof.Machine

/-! ## Host link -/

/-- The handler can take a request at once: the store is READY, no request waits, and the handler is FREE with room for its
answer (R165, R177). -/
def State.Ready (s : State) : Prop :=
  s.store.state = .ready ∧ s.host.requests = [] ∧ s.host.handlerFree = true

/-- The state after a request is answered DONE with a payload: the answer is queued, and the free line is granted. -/
def State.answered (s : State) (tag kind : Byte) (payload : List Byte) : State :=
  (s.queueAnswer tag kind (.done payload)).outboundGrant

/-- The state after a request is answered REFUSED. -/
def State.turnedAway (s : State) (tag kind : Byte) (why : RefuseReason) : State :=
  (s.queueAnswer tag kind (.refused why)).outboundGrant

/-- The receiver stands between frames: HUNTING with nothing held, or IN_FRAME with an empty body. -/
def Receiver.between (r : Receiver) : Prop := r = .hunting ∨ r = { Receiver.hunting with inFrame := true }

/-- The host link after a closing flag. -/
def State.flagged (s : State) : State :=
  { s with host := { s.host with rx := { Receiver.hunting with inFrame := true } } }

/-- R179. No notice kind has a pending entry while it is unmasked and the queue has room. -/
def HostLink.PendingLaw (h : HostLink) : Prop := ∀ k : NoticeKind, h.takes k = true → h.pendingOf k = none

/-- The bounds of the host link's queues (R175, R178, R179); a BUSY handler has kept room for its answer (R177). -/
def HostLink.Bounded (h : HostLink) : Prop :=
  h.requests.length ≤ Config.requestRoom ∧ h.notices.length ≤ Config.noticeRoom
    ∧ h.answers.length + (if h.job = none then 0 else 1) ≤ Config.answerRoom

/-- R182. A source is in class 1 with an empty set, or in class 2 with a set that is not empty. -/
def SourceState.Lawful (v : SourceState) : Prop := (v.cls = 1 ∧ v.waits = []) ∨ (v.cls = 2 ∧ v.waits ≠ [])

def HostLink.SourcesLawful (h : HostLink) : Prop := ∀ x : Source, (h.source x).Lawful

/-! ## Exposure table -/

/-- R96. A non-FREE slot's scale lies within its limits. -/
def ExpSlot.ScaleLaw (x : ExpSlot) : Prop :=
  x.state ≠ .free → x.photo.lower ≤ x.photo.scale ∧ x.photo.scale ≤ x.photo.upper

/-- R35. No two non-FREE slots carry the same exposure tag. -/
def State.TagsDistinct (s : State) : Prop :=
  ∀ j k : Fin 4, (s.slot j).state ≠ .free → (s.slot k).state ≠ .free → (s.slot j).exposure = (s.slot k).exposure → j = k

/-! ## Calibration -/

/-- R75. Every flat named by a holding or active record is VALID. -/
def State.NamedFlatsValid (s : State) : Prop := ∀ i : Fin 24, s.flatNamed i = true → (s.flat i).state = .valid

/-! ## Canvas store and placement -/

/-- R132. A canvas pixel's weight sum is 0 exactly when its contribution count is 0. -/
def CanvasPixel.Law (p : CanvasPixel) : Prop := p.weight = 0 ↔ p.count = 0

/-- Every canvas pixel of the store keeps R132's law. -/
def Memory.PixelLaw (m : Memory) : Prop := ∀ key : Nat, (Region.read CanvasPixel.zero m.cells key).Law

/-- Every weight a tile is or can be placed with is at least 1/16 (R32, R113). -/
def State.WeightsPositive (s : State) : Prop :=
  (∀ k : Fin 4, ∀ p ∈ (s.slot k).placements, 1 ≤ p.weight) ∧ ∀ ctx : PlaceCtx, s.place = some ctx → 1 ≤ ctx.weight

/-- R128. The cell table holds one record for each cell of the grid, and none in IDLE. -/
def State.TableShaped (s : State) : Prop := s.canvas.cells.length = s.canvas.width * s.canvas.height

/-- R169. The refresh owed count never exceeds 6. -/
def State.OwedBounded (s : State) : Prop := s.store.owed ≤ Config.maxOwed

/-- `t` differs from `s` at most in the ports, the host link, and what a memory grant, an outbound grant or the drain's taking of a
cell changes: the calibration, the exposure table, the tiles, the measurement and the contents of the store are as they were. -/
def State.LinkFrame (s t : State) : Prop :=
  { t with ports := s.ports, host := s.host, canvas := s.canvas, drain := s.drain, store := s.store, place := s.place } = s

/-- An invariant that every step keeps. -/
def Kept (P : State → Prop) : Prop := ∀ s t : State, P s → step s = .next t → P t

end Sys2Proof.Machine
end

