-- ==== Sys2Proof/Certificates/Slice0/Obligations.lean ====
section
/-!
DEFINITION. The statements for the provers. `answered` and `turnedAway` are the state after an answer is queued and the outbound
grant that follows; what that grant does is stated on its own.
-/

open Sys2Proof Sys2Proof.Machine

/-! ## The machine -/

/-- A step runs the command at the front of the queue on the state with the queue's rest. -/
def Obligations.StepRunsTheFrontCommand : Prop :=
  ∀ (c : Instr) (s : State) (rest : List Instr), s.pending = c :: rest → step s = exec c { s with pending := rest }

/-- Every command has a next state in every state: no event or request stops the part. -/
def Obligations.EveryCommandHasANextState : Prop :=
  ∀ (c : Instr) (s : State), ∃ t : State, exec c s = .next t

/-- POWER_ON: every block takes its power-on values; only the signals on the lines, and the model's own fields, stand (log 10).
The power-on values the chapters give, block by block, are those of the state after reset. -/
def Obligations.PowerOnResetsEveryBlock : Prop :=
  (∀ s : State, exec .powerOn s = .next { State.reset with
     ports := s.ports.map fun p => { Port.reset with signal := p.signal }
     freeIndex := s.freeIndex, pending := s.pending })
  ∧ (let s := State.reset
   (∀ l : Fin 12, (s.port l).state = .off ∧ (s.port l).tap = 0 ∧ (s.port l).reason = none ∧ (s.port l).goodRun = 0
     ∧ (s.port l).badRun = 0 ∧ (s.port l).ctx = none ∧ (s.port l).buffer = [] ∧ (s.port l).hkPart = [] ∧ (s.port l).hk = none
     ∧ (s.port l).good = 0 ∧ (s.port l).bad = 0 ∧ (s.port l).stale = 0 ∧ (s.port l).overflow = 0 ∧ (s.port l).capture = none
     ∧ (s.port l).cfg = { slots := 0, active := 1024, rows := 2048, overscan := 32, missing := 16, low := 16300, high := 18300,
                          warm := 8 }
     ∧ (s.port l).relay.phase = .idle ∧ (s.port l).relay.number = 0 ∧ (s.port l).relay.abortOwed = false
     ∧ (s.port l).relay.acked = 0 ∧ (s.port l).relay.reply = [] ∧ (s.port l).relay.outgoing = [])
   ∧ (∀ g : Fin 96, s.segCal g = { holding := none, active := none, armed := false, generation := 0 })
   ∧ (∀ i : Fin 24, (s.flat i).state = .empty) ∧ (∀ k : Fin 4, (s.slot k).state = .free) ∧ s.carry = 4096
   ∧ (∀ t : Fin 40, (s.tile t).state = .free) ∧ s.tiles.queue = [] ∧ s.tiles.holdCounter = 0
   ∧ s.place = none ∧ s.canvas.state = .idle ∧ s.canvas.cells = [] ∧ s.canvas.commits = 0 ∧ s.canvas.released = 0
   ∧ s.drain.state = .idle ∧ s.drain.hold = false ∧ s.drain.queue = []
   ∧ s.store.state = .initialising ∧ s.store.owed = 0 ∧ s.store.late = 0 ∧ s.store.zeroQueue = []
   ∧ s.store.rotation = [.zeroing, .placement, .drain, .flat, .box]
   ∧ s.host.rx = .hunting ∧ s.host.lineErrors = 0 ∧ s.host.requests = [] ∧ s.host.job = none ∧ s.host.answers = []
   ∧ s.host.notices = [] ∧ s.host.mask = 32 ∧ (∀ k, s.host.pendingOf k = none) ∧ s.host.line = none
   ∧ ∀ x, s.host.source x = { cls := 1, waits := [] })

/-! ## Host link: frames and requests -/

/-- A request command is the arrival of its frame: the escaped, checked bytes of the request's kind, tag and fields do what the
command does, whatever the state of the other blocks. -/
def Obligations.RequestCommandIsItsFrame : Prop :=
  ∀ (c : Instr) (tag : Byte) (r : Request) (s : State), c.wf = true → requestOf c = some (tag, r) →
    r.payload.length ≤ 4103 → s.host.rx.between →
    exec (.hostFrame (frameBytes (frameBody r.kind tag r.payload))) s = exec c s.flagged

/-- HOST_FRAME and HOST_FRAME_DISCARD (R174 to R176). A frame of any kind that passes the frame check joins the request buffer, or is
discarded OVERRUN; a body of wrong length, a body whose CRC does not agree, a body over a full buffer, and a bad escape are discarded
with their causes; and a discard raises the line error count, and LINE_ERROR with the cause and the count, and changes nothing else.
A body that would grow beyond 4109 bytes is discarded LENGTH at the byte that would exceed it, and the receiver is HUNTING. A run of one
to three pairs of the clear sequence that breaks discards the frame in progress ESCAPE, and is ignored in HUNTING; the byte that breaks
it is taken in HUNTING, so a 7Eh opens a frame. That the byte after a bad 7Dh is used up, also where it is 7Eh, is log 27's choice. -/
def Obligations.HostFramesAreJudged : Prop :=
  (∀ (kind tag : Byte) (payload : List Byte) (s : State), payload.length ≤ 4103 → s.host.rx.between →
     exec (.hostFrame (frameBytes (frameBody kind tag payload))) s = .next (State.pump
       (if 4 ≤ s.host.requests.length then s.flagged.lineError .overrun
        else { s.flagged with host := { s.flagged.host with
          requests := s.host.requests ++ [(tag, readRequest kind payload)] } })))
  ∧ (∀ (s : State), s.host.rx.between →
     (∀ body : List Byte, body ≠ [] → body.length ≤ 4109 →
       let n := bytesToNat ((body.drop 2).take 2)
       let long := body.length < 6 ∨ n ≠ body.length - 6 ∨ 4103 < n
       let sound := crc16 (body.take (body.length - 2)) = bytesToNat (body.drop (body.length - 2))
       (long → exec (.hostFrameDiscard (frameBytes body)) s = .next (s.flagged.lineError .length).pump)
       ∧ (¬long → ¬sound → exec (.hostFrameDiscard (frameBytes body)) s = .next (s.flagged.lineError .crc).pump)
       ∧ (¬long → sound → 4 ≤ s.host.requests.length →
           exec (.hostFrameDiscard (frameBytes body)) s = .next (s.flagged.lineError .overrun).pump))
     ∧ ∀ b : Byte, b ≠ 0x5E → b ≠ 0x5D → b ≠ 0xC1 →
       exec (.hostFrameDiscard [0x7E, 0x7D, b]) s
         = .next (State.lineError { s with host := { s.host with rx := .hunting } } .escape).pump)
  ∧ (∀ (s : State) (body : List Byte), s.host.rx.between →
     (body.length = 4110 → exec (.hostFrameDiscard (0x7E :: body.flatMap escapeByte)) s
       = .next (State.lineError { s with host := { s.host with rx := .hunting } } .length).pump)
     ∧ ∀ (n : Nat) (b : Byte), body.length ≤ 4109 → 1 ≤ n → n ≤ 3 → b ≠ 0x7D →
       exec (.hostFrameDiscard (0x7E :: body.flatMap escapeByte ++ (List.replicate n [0x7D, 0xC1]).flatten ++ [b])) s
         = .next (State.lineError
             { s with host := { s.host with rx := { Receiver.hunting with inFrame := decide (b = 0x7E) } } } .escape).pump)
  ∧ (∀ (s : State) (n : Nat) (b : Byte), s.host.rx = .hunting → 1 ≤ n → n ≤ 3 → b ≠ 0x7D →
     exec (.hostFrameDiscard ((List.replicate n [0x7D, 0xC1]).flatten ++ [b])) s
       = .next { s with host := { s.host with rx := { Receiver.hunting with inFrame := decide (b = 0x7E) } } })
  ∧ (∀ (s : State) (cause : LineCause),
     s.lineError cause = State.raise
       { s with host := { s.host with lineErrors := min 4294967295 (s.host.lineErrors + 1) } } .lineError
       (code8 cause.code ++ code32 (min 4294967295 (s.host.lineErrors + 1))))

/-- R177. An unknown kind is refused UNKNOWN_KIND in every store state. Every other request is refused by the store state before its
owner sees it: all but STATUS NOT_READY in INITIALISING and WAKING, all but UNPARK, STATUS, NOTICE_MASK and CLEAR PARKED in PARKED.
A payload of wrong length is refused BAD_LENGTH after that.
UNKNOWN_KIND is so answered in every store state, and a refusal leaves every block as it was, but for the failed check of FLAT_END. -/
def Obligations.HandlerRefusesBeforeTheOwner : Prop :=
  (∀ (s : State) (tag : Byte) (r : Request),
     (∀ k, s.reply tag (.unknown k) = (s, some (.refused .unknownKind)))
     ∧ ((∀ k, r ≠ .unknown k) → s.store.state = .initialising ∨ s.store.state = .waking → r.kind ≠ 0x21 →
         s.reply tag r = (s, some (.refused .notReady)))
     ∧ ((∀ k, r ≠ .unknown k) → s.store.state = .parked → r.kind ≠ 0x20 → r.kind ≠ 0x21 → r.kind ≠ 0x22 → r.kind ≠ 0x23 →
         s.reply tag r = (s, some (.refused .parked)))
     ∧ (∀ k, s.store.state = .ready → s.reply tag (.badLength k) = (s, some (.refused .badLength))))
  ∧ (∀ (s : State) (tag kind : Byte), namesRequest kind = false → s.host.requests = [] → s.host.handlerFree = true →
     exec (.unknownKind tag kind) s = .next (s.turnedAway tag kind .unknownKind))
  ∧ (∀ (s t : State) (tag : Byte) (r : Request) (why : RefuseReason),
     s.reply tag r = (t, some (.refused why)) → why ≠ .checkFailed → t = s)

/-- STORE_QUERY (R92), CELL_QUERY (R144) and STATUS (R183) change nothing and give the state of the store, of one cell and of the whole
part; STATUS in every store state. The bytes rest on log 24 (4 bytes for a tag or FREE, six tile counts, one presence byte for the
canvas parts and one for the drain's cell and block, the hold order as a part, the list of pending kinds) and on log 28 (the depths of
the request buffer and the answer queue). -/
def Obligations.PartQueriesReadTheState : Prop :=
  ∀ (s : State) (tag : Byte),
    (s.Ready → exec (.storeQuery tag) s = .next (s.answered tag 0x16
      (allTiles.flatMap (fun n => (s.tile n).state.code
          ++ codePart (if (s.tile n).state = .free then none else some (s.tile n).code))
        ++ codeList8 (fun n => code8 n.val) s.tiles.queue
        ++ code8 (allTiles.countP fun n => decide ((s.tile n).state = .free)) ++ code16 s.tiles.holdCounter)))
    ∧ (s.Ready → s.TableShaped → ∀ i : Nat,
      (1023 < i → exec (.cellQuery tag i) s = .next (s.turnedAway tag 0x1B .badField))
      ∧ (i ≤ 1023 → s.canvas.state = .idle → exec (.cellQuery tag i) s = .next (s.turnedAway tag 0x1B .wrongState))
      ∧ (i ≤ 1023 → s.canvas.state ≠ .idle → s.canvas.width * s.canvas.height ≤ i →
          exec (.cellQuery tag i) s = .next (s.turnedAway tag 0x1B .badField))
      ∧ ∀ c, i ≤ 1023 → s.canvas.state ≠ .idle → s.cell? i = some c →
          exec (.cellQuery tag i) s = .next (s.answered tag 0x1B
            (code16 i ++ code8 (i % s.canvas.width) ++ code8 (i / s.canvas.width)
              ++ (code8 c.state.code ++ code8 c.owed ++ code16 c.resolved ++ code16 c.placed ++ code16 c.writtenOff ++ code32 c.late
                ++ codeFlag c.forced ++ codeFlag c.zeroed)
              ++ codeFlag (decide (i ∈ s.store.zeroQueue))
              ++ codePart (if c.state = .complete then some (code16 (s.drain.queue.idxOf i + 1)) else none))))
    ∧ (s.host.requests = [] → s.host.handlerFree = true →
      exec (.status tag) s = .next (s.answered tag 0x21
        (code8 s.store.state.code ++ code8 s.store.owed ++ code32 s.store.late ++ code16 s.store.zeroQueue.length
          ++ s.canvas.status
          ++ allLinks.flatMap (fun l => portCode (s.port l).state (s.port l).reason)
          ++ allSlots.flatMap (fun k => codeOpt32 (if (s.slot k).state = .free then none else some (s.slot k).exposure)
              ++ code8 (s.slot k).state.code)
          ++ tileStates.flatMap (fun st => code8 (allTiles.countP fun t => decide ((s.tile t).state = st)))
          ++ code8 s.tiles.queue.length ++ s.drain.status ++ s.host.status)))

/-! ## Host link: notices and the outbound arbiter -/

/-- R179 to R181. A raised notice joins the queue when its kind is unmasked and the queue holds fewer than 32; otherwise it makes its
kind's pending entry or folds into it, and every other entry stays. PENDING_MOVE: with room for one notice, the pending entry of the
lowest unmasked kind joins the queue with its content and its folded count, and ceases. NOTICE_MASK: an accepted mask replaces the
mask whole, the entries it unmasks move in kind order, those it masks stay, and the answer carries the mask before. -/
def Obligations.NoticesQueueFoldAndMove : Prop :=
  (∀ (h : HostLink) (k : NoticeKind) (c : List Byte),
     let open_ := h.mask.getLsbD k.num.val = false ∧ h.notices.length < 32
     (open_ → h.raise k c = { h with notices := h.notices ++ [{ kind := k, content := c, folded := 1 }] })
     ∧ (¬open_ → (h.raise k c).notices = h.notices
         ∧ (h.raise k c).pendingOf k = some { content := c, folded := match h.pendingOf k with
             | none => 1
             | some p => min 65535 (p.folded + 1) }
         ∧ (∀ j, j ≠ k → (h.raise k c).pendingOf j = h.pendingOf j)
         ∧ { h.raise k c with pendingNotices := h.pendingNotices } = h))
  ∧ (∀ (s : State) (k : NoticeKind) (p : PendingNotice), s.host.requests = [] → s.host.notices.length = 31 →
     s.host.masked k = false → s.host.pendingOf k = some p →
     (∀ j : NoticeKind, j.num < k.num → s.host.masked j = true ∨ s.host.pendingOf j = none) →
     exec .pendingMove s = .next (State.outboundGrant { s with host := { s.host.setPending k none with
       notices := s.host.notices ++ [{ kind := k, content := p.content, folded := p.folded }] } }))
  ∧ (∀ (s : State) (tag : Byte) (m : Nat), s.host.requests = [] → s.host.handlerFree = true →
     s.store.state = .ready ∨ s.store.state = .parked →
     let moving := noticeKinds.filterMap fun k => if m.testBit k.num.val then none else
       (s.host.pendingOf k).map fun p => ({ kind := k, content := p.content, folded := p.folded } : Notice)
     (2 ^ 13 ≤ m → exec (.noticeMask tag m) s = .next (s.turnedAway tag 0x22 .badField))
     ∧ (m < 2 ^ 13 → ∃ h : HostLink,
       exec (.noticeMask tag m) s = .next (State.answered { s with host := h } tag 0x22 (code16 s.host.mask.toNat))
       ∧ h.mask = BitVec.ofNat 13 m ∧ h.PendingLaw ∧ (∀ k, m.testBit k.num.val = true → h.pendingOf k = s.host.pendingOf k)
       ∧ (s.host.notices.length + moving.length ≤ 32 → h.notices = s.host.notices ++ moving)
       ∧ { h with mask := s.host.mask, notices := s.host.notices, pendingNotices := s.host.pendingNotices } = s.host))

/-- R182. With the line FREE, OUTBOUND_GRANT takes a message of the waiting source of lowest class, answers before notices before
blocks among equals; the granted source leaves every other source's set, and its own set becomes the other sources waiting.
MESSAGE_SENT frees the line of an answer or a notice, and the next grant follows. A grant changes nothing but the outbound half of the
host link and the unit state of the drain, and with the line in use or no source waiting nothing at all. -/
def Obligations.OutboundGrantServesTheLowestClass : Prop :=
  (∀ (s : State) (x : Source) (m : Message) (u : State), s.host.requests = [] → s.host.line = none →
     s.takeMessage x = some (m, u) → s.waits x = true →
     (∀ y : Source, s.waits y = true → (s.host.source x).cls ≤ (s.host.source y).cls) →
     (∀ y : Source, s.waits y = true → (s.host.source y).cls = (s.host.source x).cls →
       allSources.idxOf x ≤ allSources.idxOf y) →
     (s.host.source x).cls = 1 ∨ (∀ y, (s.host.source y).cls = 1 ∨ (s.host.source y).cls = 2) →
     ∃ t, exec .outboundGrant s = .next t ∧ t.host.line = some m
       ∧ (t.host.source x).waits = allSources.filter (fun y => decide (y ≠ x) && u.waits y)
       ∧ ((t.host.source x).cls = if (t.host.source x).waits = [] then 1 else 2)
       ∧ (∀ y, y ≠ x → (t.host.source y).waits = (s.host.source y).waits.filter fun z => decide (z ≠ x))
       ∧ (∀ y, y ≠ x → (t.host.source y).cls = if x ∈ (s.host.source y).waits ∧ (t.host.source y).waits = [] then 1
           else (s.host.source y).cls)
       ∧ t.host.answers = (if x = .answers then s.host.answers.tail else s.host.answers)
       ∧ (t.drain = if x = .blocks then { s.drain with state := .sending } else s.drain))
  ∧ (∀ s : State, s.host.requests = [] →
     (∀ a, s.host.line = some (.answer a) →
       exec .messageSent s = .next (State.outboundGrant { s with host := { s.host with line := none } }))
     ∧ (∀ n, s.host.line = some (.notice n) →
       exec .messageSent s = .next (State.outboundGrant { s with host := { s.host with line := none } }))
     ∧ (∀ m, s.host.line = some m → exec .outboundGrant s = .next s)
     ∧ ((∀ x, s.waits x = false) → exec .outboundGrant s = .next s))
  ∧ (∀ s : State,
     let t := s.outboundGrant
     { t with host := s.host, drain := s.drain } = s ∧ (t.drain = s.drain ∨ t.drain = { s.drain with state := .sending })
     ∧ t.host.rx = s.host.rx ∧ t.host.lineErrors = s.host.lineErrors ∧ t.host.requests = s.host.requests ∧ t.host.job = s.host.job
     ∧ t.host.mask = s.host.mask)

/-! ## Camera links -/

/-- Detection (R3): SIGNAL_DETECT in DOWN, LINK_ENABLE of an OFF port on a live line, and WAKE_LIMIT_EXPIRY on a live line all bring
the port to WAKING with a fresh wake limit, while the store is READY.
Without signal, or while the store is not READY, a port that enters DOWN or is there stays there, and SIGNAL_DETECT in any state but DOWN
only notes the signal; LINK_ENABLE in any state but OFF changes nothing, and of a link above 11 is refused BAD_FIELD (R2). A change of
port state raises LINK_STATE with the link, both states and the cause, and the state decides what the port sends: nothing, the wake
pattern, or idle frames with the relay lane (R1). Each event that cannot happen in the present state changes nothing (log 2); the wake
pattern's content is given nowhere, so it has no bytes (log 30). -/
def Obligations.DetectionWakesThePort : Prop :=
  (∀ (s : State) (l : Fin 12), s.host.requests = [] → s.store.state = .ready →
     ((s.port l).state = .down → (s.port l).signal = false →
       exec (.signalDetect l) s = .next (State.outboundGrant
         ((s.modPort l fun p => { p.woken with signal := true }).setPortState l .waking none .signal)))
     ∧ ((s.port l).state = .waking → (s.port l).wakeLimit = true → (s.port l).signal = true →
       exec (.wakeLimitExpiry l) s = .next (State.outboundGrant
         ((((s.modPort l fun p => { p.dropped with hkPart := [] }).setPortState l .down none .wakeLimit).modPort l Port.woken).setPortState
           l .waking none .signal)))
     ∧ ((s.port l).state = .off → (s.port l).signal = true → s.host.handlerFree = true → ∀ tag : Byte,
       exec (.linkEnable tag l.val) s = .next (State.answered
         ((((s.modPort l fun p => { p.dropped with hkPart := [] }).setPortState l .down none .enable).modPort l Port.woken).setPortState
           l .waking none .signal) tag 0x01 [])))
  ∧ (∀ (s : State) (l : Fin 12), s.host.requests = [] → (s.port l).signal = false →
     ((s.port l).state = .waking → (s.port l).wakeLimit = true →
       exec (.wakeLimitExpiry l) s = .next (State.outboundGrant
         ((s.modPort l fun p => { p.dropped with hkPart := [] }).setPortState l .down none .wakeLimit)))
     ∧ (s.Ready → ∀ tag : Byte, exec (.linkEnable tag l.val) s = .next
         (if (s.port l).state = .off then
           State.answered ((s.modPort l fun p => { p.dropped with hkPart := [] }).setPortState l .down none .enable) tag 0x01 []
         else s.answered tag 0x01 [])))
  ∧ (∀ (s : State) (l : Fin 12) (st : PortState) (reason : Option FaultReason) (cause : LinkCause),
     let p := s.port l
     let t := s.setPort l { p with state := st, reason := reason }
     s.setPortState l st reason cause =
       if p.state = st then t
       else t.raise .linkState (code8 l.val ++ portCode p.state p.reason ++ portCode st reason ++ code8 cause.code))
  ∧ (∀ (s : State) (l : Fin 12), s.host.requests = [] →
     ((s.port l).signal = true → exec (.signalDetect l) s = .next s.outboundGrant)
     ∧ ((s.port l).signal = false → (s.port l).state ≠ .down ∨ s.store.state ≠ .ready →
       exec (.signalDetect l) s = .next (State.outboundGrant (s.modPort l fun p => { p with signal := true })))
     ∧ ((s.port l).state ≠ .waking ∨ (s.port l).wakeLimit = false → exec (.wakeLimitExpiry l) s = .next s.outboundGrant)
     ∧ ((s.port l).state = .waking → (s.port l).wakeLimit = true → s.store.state ≠ .ready →
       exec (.wakeLimitExpiry l) s = .next (State.outboundGrant
         ((s.modPort l fun p => { p.dropped with hkPart := [] }).setPortState l .down none .wakeLimit))))
  ∧ (∀ (s : State) (l : Fin 12) (n : Nat) (tag : Byte), s.Ready →
     ((s.port l).state ≠ .off → exec (.linkEnable tag l.val) s = .next (s.answered tag 0x01 []))
     ∧ (11 < n → exec (.linkEnable tag n) s = .next (s.turnedAway tag 0x01 .badField)))
  ∧ (∀ (s : State) (l : Fin 12),
     let p := s.port l
     (p.state ∈ [.off, .down, .fault] → p.state.sends = .nothing ∧ s.returnBytes l = [])
     ∧ (p.state = .waking → p.state.sends = .wakePattern ∧ s.returnBytes l = [])
     ∧ (p.state ∈ [.aligning, .synced, .reading] → p.state.sends = .idleFrames
         ∧ ∀ m b, p.lane = some (m, b) → s.returnBytes l = cameraFrameBytes 1 0 0 0 0 0 b.toNat m.code []))

/-- The end of a link (R7, R8, R18, R19): SIGNAL_LOSS in a live state, LINK_DISABLE and LINK_RESET leave the port in its new state with no
buffered row, no readout context, no cycle under assembly, no wake limit, no relay in flight and no abort owed, and keep its
configuration, tap, latest cycle and counters. LINK_DISABLE and LINK_RESET also clear the lock counts and the fault reason. LINK_RESET on
a live line leaves all this too, but for the fresh wake limit of the attempt that follows at once. The FILLING tiles of the link are
closed as TRUNCATED (shown for one open tile of an OPEN slot with no reference in its segment). SIGNAL_LOSS in OFF, DOWN and FAULT does
nothing to the port. LINK_DISABLE of an OFF port and LINK_RESET of a DOWN port are answered DONE with no change, LINK_RESET of an OFF port
is refused WRONG_STATE, and each refuses a link above 11 BAD_FIELD. -/
def Obligations.LinkEndsLeaveNothingOpen : Prop :=
  (∀ (s : State) (l : Fin 12) (tag : Byte), s.Ready →
     let open_ (q : Port) (limit : Bool) := q.buffer = [] ∧ q.ctx = none ∧ q.hkPart = [] ∧ q.wakeLimit = limit
       ∧ q.relay.phase = .idle ∧ q.relay.abortOwed = false ∧ q.cfg = (s.port l).cfg ∧ q.tap = (s.port l).tap ∧ q.hk = (s.port l).hk
       ∧ q.good = (s.port l).good ∧ q.bad = (s.port l).bad ∧ q.stale = (s.port l).stale ∧ q.overflow = (s.port l).overflow
       ∧ q.capture = (s.port l).capture
     let closed (q : Port) := open_ q false
     ((s.port l).state ∈ [.waking, .aligning, .synced, .reading] →
       ∃ t, exec (.signalLoss l) s = .next t ∧ (t.port l).state = .down ∧ (t.port l).signal = false ∧ closed (t.port l)
         ∧ ∀ j, j ≠ l → t.port j = s.port j)
     ∧ ((s.port l).state ≠ .off →
       ∃ t, exec (.linkDisable tag l.val) s = .next t ∧ (t.port l).state = .off ∧ closed (t.port l)
         ∧ (t.port l).goodRun = 0 ∧ (t.port l).badRun = 0 ∧ (t.port l).reason = none ∧ ∀ j, j ≠ l → t.port j = s.port j)
     ∧ ((s.port l).state ≠ .off → (s.port l).state ≠ .down → (s.port l).signal = false →
       ∃ t, exec (.linkReset tag l.val) s = .next t ∧ (t.port l).state = .down ∧ closed (t.port l)
         ∧ (t.port l).goodRun = 0 ∧ (t.port l).badRun = 0 ∧ (t.port l).reason = none ∧ ∀ j, j ≠ l → t.port j = s.port j)
     ∧ ((s.port l).state ≠ .off → (s.port l).state ≠ .down → (s.port l).signal = true →
       ∃ t, exec (.linkReset tag l.val) s = .next t ∧ (t.port l).state = .waking ∧ open_ (t.port l) true
         ∧ (t.port l).goodRun = 0 ∧ (t.port l).badRun = 0 ∧ (t.port l).reason = none ∧ ∀ j, j ≠ l → t.port j = s.port j))
  ∧ (∀ (s : State) (l : Fin 12), s.host.requests = [] → (s.port l).state ∈ [.off, .down, .fault] →
     exec (.signalLoss l) s = .next (State.outboundGrant (State.settle (s.modPort l fun p => { p with signal := false }))))
  ∧ (∀ (s : State) (l : Fin 12) (n : Fin 40) (k : Fin 4) (tag : Byte), s.Ready →
     (s.port l).state ∈ [.waking, .aligning, .synced, .reading] → s.measure l = [] → s.openTiles l = [n] →
     (s.tile n).owner = some k → (s.slot k).state = .opened → (s.slot k).refsFor (s.tile n).segment = [] →
     ∀ c ∈ [Instr.signalLoss l, .linkDisable tag l.val, .linkReset tag l.val],
     let missing := (s.tile n).rows - (s.tile n).received
     (missing ≤ (s.tile n).limit →
       ∃ t, exec c s = .next t ∧ t.slots = s.slots
         ∧ t.tile n = { s.tile n with state := .heldPlan, missing := some missing, truncated := true }
         ∧ ∀ m, m ≠ n → t.tile m = s.tile m)
     ∧ ((s.tile n).limit < missing → (s.slot k).entry (s.tile n).segment = .inStore →
       ∃ t, exec c s = .next t ∧ (t.tile n).state = .free ∧ (t.slot k).entry (s.tile n).segment = .resolved .rows
         ∧ (t.slot k).totals.truncated = min 4294967295 ((s.slot k).totals.truncated + 1)
         ∧ ∀ m, m ≠ n → t.tile m = s.tile m))
  ∧ (∀ (s : State) (l : Fin 12) (n : Nat) (tag : Byte), s.Ready → 11 < n →
     ((s.port l).state = .off → exec (.linkDisable tag l.val) s = .next (s.answered tag 0x03 []))
     ∧ ((s.port l).state = .down → exec (.linkReset tag l.val) s = .next (s.answered tag 0x04 []))
     ∧ ((s.port l).state = .off → exec (.linkReset tag l.val) s = .next (s.turnedAway tag 0x04 .wrongState))
     ∧ exec (.linkDisable tag n) s = .next (s.turnedAway tag 0x03 .badField)
     ∧ exec (.linkReset tag n) s = .next (s.turnedAway tag 0x04 .badField))

/-- LINK_CONFIG (R17): the checks in order, and the whole set replaced. -/
def Obligations.LinkConfigReplacesTheWholeSet : Prop :=
  ∀ (s : State) (tag : Byte) (link slots active rows overscan missing low high warm : Nat), s.Ready →
    exec (.linkConfig tag link slots active rows overscan missing low high warm) s = .next
      (if h : link < 12 ∧ slots ≤ 255 ∧ 64 ≤ active ∧ active ≤ 1024 ∧ active % 16 = 0 ∧ 64 ≤ rows ∧ rows ≤ 2048
          ∧ overscan ≤ 64 ∧ missing ≤ 255 ∧ low < high ∧ high ≤ 65535 ∧ 1 ≤ warm ∧ warm ≤ 16 then
        let l : Fin 12 := ⟨link, h.1⟩
        let p := s.port l
        if p.state = .reading ∨ 0 < bufferedRows p.buffer then s.turnedAway tag 0x02 .busy
        else State.answered (s.setPort l { p with cfg :=
          { slots := BitVec.ofNat 8 slots, active := active, rows := rows, overscan := overscan, missing := missing,
            low := low, high := high, warm := warm } }) tag 0x02 []
      else s.turnedAway tag 0x02 .badField)

/-- HK_READ (R16), LINK_QUERY (R20), CAL_QUERY (R64), FLAT_QUERY (R76) and EXPOSURE_QUERY (R54) change nothing the part holds and give the
records as they stand, coded as log 24 says where R186 leaves two readings (a number of placements as the count of the list of segments,
the phase of a relay, the failing part of a match, 4 bytes for an unknown time or temperature). The time remaining of a RUNNING timer is
open: the model holds no clock (log 4), and any value up to the limit may stand there. -/
def Obligations.RecordQueriesReadTheRecords : Prop :=
  (∀ (s : State) (tag : Byte) (link : Nat), s.Ready →
     exec (.hkRead tag link) s = .next
       (if h : link < 12 then
         s.answered tag 0x06 (match (s.port ⟨link, h⟩).hk with
           | none => [0]
           | some c => [1] ++ c.words.flatMap code16 ++ [match c.zone with | .below => 0 | .above => 1 | .inside => 2])
       else s.turnedAway tag 0x06 .badField))
  ∧ (∀ (s : State) (tag : Byte) (link : Nat), s.Ready →
     exec (.linkQuery tag link) s = .next
       (if h : link < 12 then
         let p := s.port ⟨link, h⟩
         s.answered tag 0x05 (portCode p.state p.reason
           ++ codePart (if p.state = .aligning then some (code8 p.hunting.toNat) else none) ++ code8 p.tap
           ++ codePart (if p.state = .aligning ∧ p.hunting = true then some (code8 p.goodRun) else none)
           ++ code8 p.badRun ++ p.cfg.code ++ codePart (p.ctx.map ReadoutCtx.code) ++ code8 (bufferedRows p.buffer)
           ++ codeOpt8 (if p.hkPart = [] then none else some (p.hkPart.length - 1)) ++ codeFlag p.hk.isSome
           ++ p.relay.code ++ code32 p.good ++ code32 p.bad ++ code32 p.stale ++ code32 p.overflow
           ++ codePart (p.capture.map BadCapture.code))
       else s.turnedAway tag 0x05 .badField))
  ∧ (∀ (s : State) (tag : Byte) (n : Nat), s.Ready →
     (exec (.calQuery tag n) s = .next
       (if h : n < 96 then
         let c := s.segCal ⟨n, h⟩
         let cfg := (s.port (linkOf ⟨n, h⟩)).cfg
         s.answered tag 0x10 (codePart (c.holding.map CalRec.code) ++ codePart (c.active.map CalRec.code) ++ codeFlag c.armed
           ++ code16 c.generation ++ matchCode c.active cfg ++ matchCode c.holding cfg)
       else s.turnedAway tag 0x10 .badField))
     ∧ exec (.flatQuery tag n) s = .next
       (if h : n < 24 then
         let i : Fin 24 := ⟨n, h⟩
         let f := s.flat i
         s.answered tag 0x15 (code8 f.state.code
           ++ codePart (if f.state = .empty then none
               else some (code16 f.columns ++ code16 f.rows ++ code32 f.expected.toNat))
           ++ codePart (if f.state = .loading then some (code32 f.count ++ code32 f.running.toNat) else none)
           ++ segmentSet (fun g => (s.segCal g).holdingNames i) ++ segmentSet (fun g => (s.segCal g).activeNames i))
       else s.turnedAway tag 0x15 .badField))
  ∧ (∀ (s : State) (tag : Byte) (exposure : Nat) (k : Fin 4), s.Ready → s.slotOf exposure = some k →
     let x := s.slot k
     ∃ (r n : Nat), r ≤ x.limit * 1000 ∧ (x.timer ≠ .running → n = s.freeIndex)
       ∧ exec (.exposureQuery tag exposure) s = .next (State.answered { s with freeIndex := n } tag 0x0D
         (code8 k.val ++ code8 x.state.code ++ code16 x.exposure ++ code32 x.nominal ++ code16 x.limit ++ code8 x.timer.code
           ++ codePart (if x.timer = .running then some (code32 r) else none)
           ++ codeList8 (fun p => code8 p.segment.val) x.placements ++ codeList8 RefRec.code x.refs
           ++ x.entries.toList.flatMap Entry.code ++ x.tallies.toList.flatMap code8 ++ code16 x.duplicates ++ x.totals.code
           ++ x.photo.code)))

/-- R3, R4. CAMERA_FRAME in OFF, DOWN and FAULT is ignored (R1): nothing changes but what the arbiters grant. The first TRAIN frame in
WAKING takes the port to ALIGNING, stepping from tap 0 with both lock counts 0, and the wake limit stops. A step of the alignment
locks the tap at the first change of sense, and otherwise advances it; no change of sense by tap 63 is FAULT. While hunting (R5) the
second good frame in a row takes the port to SYNCED with both lock counts 0, and the fourth bad one to FAULT with reason ALIGN, with
LINK_STATE and FAULT_LINK; its buffer and readout context stay as they are. A TRAIN frame is known by its kind and pattern, with no CRC
asked for (log 13), and each frame is answered by the state after it (log 15). -/
def Obligations.TrainingFindsTheTap : Prop :=
  (∀ (s : State) (l : Fin 12) (rising : Bool) (bytes : List Byte),
     (s.port l).state ∈ [.off, .down, .fault] → exec (.cameraFrame l rising bytes) s = .next s.settle.pump)
  ∧ (∀ (s : State) (l : Fin 12) (rising : Bool) (bytes : List Byte), s.host.requests = [] → (s.port l).state = .waking →
     bytes.getD 0 0 = 2 → (bytes.drop 11).take 16 = trainPattern → (s.port l).relay.phase = .idle →
     (s.port l).relay.abortOwed = false →
     ∃ t, exec (.cameraFrame l rising bytes) s = .next t
       ∧ t.port l = { s.port l with
           state := .aligning, reason := none, wakeLimit := false, tap := 0, sense := none,
           hunting := false, goodRun := 0, badRun := 0, lane := some (.none, 0) }
       ∧ (∀ j, j ≠ l → t.port j = s.port j) ∧ s.LinkFrame t)
  ∧ (∀ (s : State) (l : Fin 12) (rising : Bool),
     let p := s.port l
     (p.sense = some !rising → s.tapStep l rising = s.setPort l { p with hunting := true, sense := none })
     ∧ (p.sense ≠ some !rising → p.tap < 63 →
         s.tapStep l rising = s.setPort l { p with tap := p.tap + 1, sense := some rising })
     ∧ (p.sense ≠ some !rising → p.tap = 63 →
         ((s.tapStep l rising).port l).state = .fault ∧ ((s.tapStep l rising).port l).reason = some .align
         ∧ ((s.tapStep l rising).port l).tap = 63))
  ∧ (∀ (s : State) (l : Fin 12) (rising : Bool) (bytes : List Byte), s.host.requests = [] → (s.port l).state = .aligning →
     (s.port l).hunting = true →
     let p := s.port l
     let reaches (f : Port → Prop) := ∃ u : State, exec (.cameraFrame l rising bytes) s = .next u.outboundGrant ∧ f (u.port l)
       ∧ (u.port l).tap = p.tap ∧ (u.port l).buffer = p.buffer ∧ (u.port l).ctx = p.ctx ∧ (u.port l).stale = p.stale
       ∧ (u.port l).overflow = p.overflow ∧ (u.port l).cfg = p.cfg ∧ (∀ j, j ≠ l → u.port j = s.port j) ∧ s.LinkFrame u
     (p.cfg.judge bytes = none →
       let good (q : Port) := q.badRun = 0 ∧ q.good = min 4294967295 (p.good + 1) ∧ q.bad = p.bad
       (p.goodRun ≠ 1 → reaches fun q => q.state = .aligning ∧ q.hunting = true ∧ q.goodRun = p.goodRun + 1 ∧ good q)
       ∧ (p.goodRun = 1 → reaches fun q => q.state = .synced ∧ q.reason = none ∧ q.goodRun = 0 ∧ good q))
     ∧ ∀ why, p.cfg.judge bytes = some why →
       let bad (q : Port) := q.goodRun = 0 ∧ q.badRun = p.badRun + 1 ∧ q.bad = min 4294967295 (p.bad + 1) ∧ q.good = p.good
         ∧ q.hkPart = []
       (p.badRun ≠ 3 → reaches fun q => q.state = .aligning ∧ q.hunting = true ∧ bad q)
       ∧ (p.badRun = 3 → reaches fun q => q.state = .fault ∧ q.reason = some .align ∧ bad q)
       ∧ (p.badRun = 3 → ∃ u : State, exec (.cameraFrame l rising bytes) s = .next u.outboundGrant ∧ u.host =
           (s.host.raise .linkState (code8 l.val ++ portCode .aligning p.reason ++ portCode .fault (some .align) ++ code8 5)).raise
             .faultLink (code8 l.val ++ code8 0 ++ code8 p.tap)))

/-- A good IDLE frame in SYNCED, with no relay in flight, no abort owed and no cycle under way (R6, R7, R14, R24): the good counter
rises, the consecutive bad count returns to 0, a word of index 0 opens a cycle and a word of another index opens none. With a cycle under
way the frame's word goes to the assembler, and what that does to a port is given for every index (R14, R15): the next word is added, any
other but 0 discards the cycle, and word 11 completes it. A completion records its words with the zone of word 4 against the window, and
raises HK_CHANGE with the link, the words and every cause that applies: FIRST with no completion before, STATUS where word 5 differs,
LOW_EDGE and HIGH_EDGE where the zone differs and either zone is BELOW, or ABOVE; with no cause it raises none. -/
def Obligations.GoodIdleFrameCounts : Prop :=
  (∀ (s : State) (l : Fin 12) (rising : Bool) (tag row index value lane : Nat) (m : Marker), s.host.requests = [] →
    (s.port l).state = .synced → (s.port l).relay.phase = .idle → (s.port l).relay.abortOwed = false →
    (s.port l).hkPart = [] → index < 12 → value < 65536 →
    ∃ t, exec (.cameraFrame l rising (cameraFrameBytes 1 0 tag row index value lane m.code [])) s = .next t
      ∧ t.port l = { s.port l with
          good := min 4294967295 ((s.port l).good + 1), badRun := 0,
          hkPart := if index = 0 then [value] else [], lane := some (.none, 0) }
      ∧ (∀ j, j ≠ l → t.port j = s.port j) ∧ s.LinkFrame t)
  ∧ (∀ (s : State) (l : Fin 12) (rising : Bool) (tag row index value lane : Nat) (m : Marker), s.host.requests = [] →
    (s.port l).state = .synced → (s.port l).relay.phase = .idle → (s.port l).relay.abortOwed = false →
    index < 12 → value < 65536 →
    let v := s.hkWord l index value
    ∃ u : State, exec (.cameraFrame l rising (cameraFrameBytes 1 0 tag row index value lane m.code [])) s = .next u.outboundGrant
      ∧ u.port l = { v.port l with good := min 4294967295 ((s.port l).good + 1), badRun := 0, lane := some (.none, 0) }
      ∧ u.host = v.host ∧ (∀ j, j ≠ l → u.port j = s.port j) ∧ s.LinkFrame u)
  ∧ (∀ (s : State) (l : Fin 12) (index value : Nat),
    let p := s.port l
    let words := p.hkPart ++ [value]
    let temp := words.getD 4 0
    let zone : Zone := if temp < p.cfg.low then .below else if p.cfg.high < temp then .above else .inside
    (index = 0 → s.hkWord l index value = s.setPort l { p with hkPart := [value] })
    ∧ (index ≠ 0 → index ≠ p.hkPart.length → s.hkWord l index value = s.setPort l { p with hkPart := [] })
    ∧ (index ≠ 0 → index = p.hkPart.length → index ≠ 11 → s.hkWord l index value = s.setPort l { p with hkPart := words })
    ∧ (index = 11 → index = p.hkPart.length →
      let done := s.setPort l { p with hk := some { words := words, zone := zone }, hkPart := [] }
      ∃ causes : Nat, causes < 16
        ∧ (causes.testBit 0 = true ↔ p.hk = none)
        ∧ (causes.testBit 1 = true ↔ ∃ o, p.hk = some o ∧ o.words.getD 5 0 ≠ words.getD 5 0)
        ∧ (causes.testBit 2 = true ↔ ∃ o, p.hk = some o ∧ o.zone ≠ zone ∧ (o.zone = .below ∨ zone = .below))
        ∧ (causes.testBit 3 = true ↔ ∃ o, p.hk = some o ∧ o.zone ≠ zone ∧ (o.zone = .above ∨ zone = .above))
        ∧ s.hkWord l index value = if causes = 0 then done
            else done.raise .hkChange (code8 causes ++ code8 l.val ++ words.flatMap code16)))

/-- CAMERA_FRAME with a good ROW frame (R7, R9 to R11). A START opens a readout with its context, in SYNCED and in READING, where the old
readout's truncation marker comes first; START with END passes through READING to SYNCED. In READING an accepted row becomes the last
accepted; an END of the readout's tag closes it, also on a stale row; a row of another tag, or in SYNCED without START, is stale alone. A
stale row is counted, leaves the lock count, and is dropped; a row that finds four waiting is dropped and counted as overflow; the markers
of either stay, in order, behind the newest row. Where the buffer is empty and no close is under way, markers without a row are taken at
once (`readoutStart`), and a row of READING has its write claimed, or is dropped where no slot of it has a tile (R9, R81). LINK_STATE
follows each change of state (shown with no cycle under assembly and no relay in flight). That a START marker before its row waits for the
command READOUT_START is log 9's reading. -/
def Obligations.RowFramesEnterTheBuffer : Prop :=
  ∀ (s : State) (l : Fin 12) (rising : Bool) (bytes : List Byte), s.host.requests = [] →
    let p := s.port l
    let tag := frameTag bytes
    let row := frameRow bytes
    let ends := frameEnd bytes = true
    let room := bufferedRows p.buffer < 4
    let held := s.holdsClaim (.intake l) = true ∨ s.measure l ≠ [] ∨ (∃ rest, p.buffer = .truncation :: rest)
      ∨ ∃ e r rest, p.buffer = .start e r :: rest
    let told (h : HostLink) (a b : PortState) (r : Option FaultReason) (cause : Nat) :=
      h.raise .linkState (code8 l.val ++ portCode a r ++ portCode b none ++ code8 cause)
    p.cfg.judge bytes = none → frameKind bytes = 3 →
    let sound (u : State) (h : HostLink) := (u.port l).good = min 4294967295 (p.good + 1) ∧ (u.port l).bad = p.bad
      ∧ (u.port l).cfg = p.cfg ∧ (∀ j, j ≠ l → u.port j = s.port j) ∧ s.LinkFrame u
      ∧ (p.hkPart = [] → p.relay.phase = .idle → u.host = h)
    let reaches (h : HostLink) (f : Port → Prop) := ∃ u : State,
      exec (.cameraFrame l rising bytes) s = .next u.outboundGrant ∧ f (u.port l) ∧ sound u h
    let taken (h : HostLink) (f : Port → Prop) := ∃ v : State,
      exec (.cameraFrame l rising bytes) s = .next (State.outboundGrant (State.settle ((v.readoutStart l).sendLane l)))
        ∧ f (v.port l) ∧ sound v h
    let counted (stale : Bool) (q : Port) := q.badRun = (if stale then p.badRun else 0)
      ∧ q.stale = (if stale then min 4294967295 (p.stale + 1) else p.stale)
      ∧ q.overflow = if stale = false ∧ ¬room then min 4294967295 (p.overflow + 1) else p.overflow
    (frameStart bytes = true → p.state ∈ [.synced, .reading] →
      let stale := decide (p.cfg.rows ≤ row)
      let opened (q : Port) := q.state = (if ends then .synced else .reading)
        ∧ q.ctx = (if ends then none else some { exposure := tag, lastRow := row, latched := none }) ∧ counted stale q
        ∧ q.buffer = p.buffer ++ (if p.state = .reading then [.truncation] else []) ++ [.start tag row]
            ++ (if stale = false ∧ room then [.row (p.cfg.rowOf bytes)] else []) ++ if ends then [.finish] else []
      let begun := if p.state = .synced then told s.host .synced .reading p.reason 6 else s.host
      let said := if ends then told begun .reading .synced none 7 else begun
      (held ∨ (p.buffer = [] ∧ stale = false) → reaches said opened) ∧ (p.buffer = [] → stale = true → ¬held → taken said opened))
    ∧ (∀ c, frameStart bytes = false → p.state = .reading → p.ctx = some c →
      let stale := decide (tag ≠ c.exposure ∨ row ≤ c.lastRow ∨ p.cfg.rows ≤ row)
      let acts := ends ∧ tag = c.exposure
      let tail := if acts then [BufItem.finish] else []
      let judged (items : List BufItem) (q : Port) := q.state = (if acts then .synced else .reading)
        ∧ q.ctx = (if acts then none else some { c with lastRow := if stale then c.lastRow else row }) ∧ counted stale q
        ∧ q.buffer = items
      let said := if acts then told s.host .reading .synced p.reason 7 else s.host
      let live := (p.cfg.rowOf bytes).slots.dropWhile fun sr => (s.fillingTile (segmentOf l sr.slot)).isNone
      (held ∨ (p.buffer = [] ∧ stale = true ∧ ¬acts) → reaches said (judged
        (p.buffer ++ (if stale = false ∧ room then [.row (p.cfg.rowOf bytes)] else []) ++ tail)))
      ∧ (p.buffer = [] → stale = true → acts → ¬held → taken said (judged tail))
      ∧ (p.buffer = [] → stale = false → ¬held → live ≠ [] →
          reaches said (judged (.row { p.cfg.rowOf bytes with slots := live } :: tail))
          ∧ ∃ t, exec (.cameraFrame l rising bytes) s = .next t ∧ t.holdsClaim (.intake l) = true)
      ∧ (p.buffer = [] → stale = false → ¬held → live = [] → ¬acts → reaches said (judged [])))
    ∧ (frameStart bytes = false → p.state ∈ [.synced, .reading] → p.ctx = none → reaches s.host fun q =>
        q.state = p.state ∧ q.ctx = none ∧ counted true q ∧ q.buffer = p.buffer)

/-- R6, R7. A bad frame in SYNCED or READING before the fourth in a row, with no relay in flight: the bad counter and the consecutive
bad count rise, the capture is replaced, the cycle under assembly is discarded, and nothing else in the port changes. The fourth in a
row ends lock: the port goes to WAKING with a fresh wake limit, no buffered row, no readout context, no cycle under assembly and no
relay in flight, and keeps its latest complete cycle. -/
def Obligations.BadFramesCountTowardsLossOfLock : Prop :=
  (∀ (s : State) (l : Fin 12) (rising : Bool) (bytes : List Byte) (why : BadReason), s.host.requests = [] →
     (s.port l).state ∈ [.synced, .reading] → (s.port l).relay.phase = .idle → (s.port l).relay.abortOwed = false →
     (s.port l).cfg.judge bytes = some why → (s.port l).badRun < 3 →
     ∃ t, exec (.cameraFrame l rising bytes) s = .next t
       ∧ t.port l = { s.port l with
           bad := min 4294967295 ((s.port l).bad + 1), badRun := (s.port l).badRun + 1, hkPart := []
           capture := some { reason := why, kind := frameKind bytes, flags := frameFlags bytes, exposure := frameTag bytes,
                             row := frameRow bytes, length := bytes.length }
           lane := some (.none, 0) }
       ∧ (∀ j, j ≠ l → t.port j = s.port j) ∧ s.LinkFrame t)
  ∧ (∀ (s : State) (l : Fin 12) (rising : Bool) (bytes : List Byte) (why : BadReason), s.host.requests = [] →
     (s.port l).state ∈ [.synced, .reading] → (s.port l).cfg.judge bytes = some why → (s.port l).badRun = 3 →
     ∃ t, exec (.cameraFrame l rising bytes) s = .next t ∧ (t.port l).state = .waking ∧ (t.port l).wakeLimit = true
       ∧ (t.port l).buffer = [] ∧ (t.port l).ctx = none ∧ (t.port l).hkPart = [] ∧ (t.port l).relay.phase = .idle
       ∧ (t.port l).hk = (s.port l).hk ∧ (t.port l).cfg = (s.port l).cfg ∧ ∀ j, j ≠ l → t.port j = s.port j)

/-! ## Relay lane -/

/-- RELAY (R25): the checks in order, and the record of an accepted relay. RELAY_TIMEOUT (R29, R30): a relay whose frames without
progress have reached its timeout ends TIMEOUT, with its counts and reply kept and RELAY_DONE raised; a run meets this in CAMERA_FRAME's
own event. There a bad frame, and a good frame whose marker the phase ignores, is counted, and the one that reaches the timeout ends the
relay in its own event, with NONE in the frame then sent. Progress sets the count to 0, a step that ends the relay COMPLETE or OVERLONG
among it; the ABORT that ends it leaves the count (log 39). The bytes of RELAY_DONE rest on log 24 (the cause as a part, the number of
reply bytes as the count of their list). -/
def Obligations.RelaysBeginAndTimeOut : Prop :=
  (∀ (s : State) (tag : Byte) (link expected timeout : Nat) (outgoing : List Byte), s.Ready →
     exec (.relay tag link outgoing expected timeout) s = .next
       (if h : link < 12 ∧ 1 ≤ outgoing.length ∧ outgoing.length ≤ 32 ∧ expected ≤ 32 ∧ 16 ≤ timeout ∧ timeout ≤ 255 then
         let l : Fin 12 := ⟨link, h.1⟩
         let p := s.port l
         if p.relay.phase ≠ .idle then s.turnedAway tag 0x07 .busy
         else if p.state ≠ .synced ∧ p.state ≠ .reading then s.turnedAway tag 0x07 .wrongState
         else
           State.answered (s.setPort l { p with relay := { p.relay with
             phase := .waitQuiet, number := (p.relay.number + 1) % 65536, outgoing := outgoing, acked := 0,
             expected := expected, reply := [], lastSeen := false, timeout := timeout, idleFrames := 0 } })
             tag 0x07 (code8 link ++ code16 ((p.relay.number + 1) % 65536))
       else s.turnedAway tag 0x07 .badField))
  ∧ (∀ (s : State) (l : Fin 12), s.host.requests = [] →
     let r := (s.port l).relay
     r.phase ≠ .idle → r.timeout ≤ r.idleFrames →
     exec (.relayTimeout l) s = .next (State.outboundGrant
       ((s.modPort l fun p => { p with relay := { r with phase := .idle, outgoing := [] } }).raise .relayDone
         (code8 l.val ++ code16 r.number ++ (code8 2 ++ codePart none) ++ code8 r.acked ++ codeList8 (fun b => [b]) r.reply))))
  ∧ (∀ (s : State) (l : Fin 12) (m : Marker) (b : Byte),
     let r := (s.port l).relay
     let counted : Relay := { r with idleFrames := r.idleFrames + 1 }
     r.phase ≠ .idle →
     (counted.idleFrames < r.timeout → s.relayIdle l = s.modPort l fun p => { p with relay := counted })
     ∧ (r.timeout ≤ counted.idleFrames → s.relayIdle l =
         (s.modPort l fun p => { p with relay := { counted with phase := .idle, outgoing := [] } }).raise .relayDone
           (code8 l.val ++ code16 r.number ++ (code8 2 ++ codePart none) ++ code8 r.acked ++ codeList8 (fun b => [b]) r.reply))
     ∧ (r.mark m b = .ignored → s.relayFrame l m b = s.relayIdle l)
     ∧ (∀ q, r.mark m b = .progress q → s.relayFrame l m b = s.modPort l fun p => { p with relay := { q with idleFrames := 0 } })
     ∧ (∀ q o, r.mark m b = .ends q o → s.relayFrame l m b =
         (s.modPort l fun p => { p with relay := { q with
           phase := .idle, outgoing := [], idleFrames := if o = .abortedFarEnd then q.idleFrames else 0 } }).raise .relayDone
           (code8 l.val ++ code16 q.number ++ o.code ++ code8 q.acked ++ codeList8 (fun b => [b]) q.reply)))
  ∧ (∀ (s : State) (l : Fin 12) (rising : Bool), s.host.requests = [] →
     let p := s.port l
     let r := p.relay
     let expires := r.timeout ≤ r.idleFrames + 1
     let counts (bytes : List Byte) (f : Port → Prop) := ∃ u : State, exec (.cameraFrame l rising bytes) s = .next u.outboundGrant
       ∧ f (u.port l)
       ∧ (expires → (u.port l).relay = { r with idleFrames := r.idleFrames + 1, phase := .idle, outgoing := [] }
           ∧ (u.port l).lane = some (.none, 0)
           ∧ u.host = s.host.raise .relayDone
               (code8 l.val ++ code16 r.number ++ (code8 2 ++ codePart none) ++ code8 r.acked ++ codeList8 (fun b => [b]) r.reply))
       ∧ (¬expires → (u.port l).relay = { r with idleFrames := r.idleFrames + 1 } ∧ u.host = s.host)
       ∧ (∀ j, j ≠ l → u.port j = s.port j) ∧ s.LinkFrame u
     r.phase ≠ .idle → r.abortOwed = false →
     (∀ bytes why, p.state ∈ [.synced, .reading] → p.cfg.judge bytes = some why → p.badRun < 3 →
       counts bytes fun q => q.state = p.state ∧ q.badRun = p.badRun + 1 ∧ q.bad = min 4294967295 (p.bad + 1))
     ∧ (∀ (tag row index value lane : Nat) (m : Marker), p.state = .synced → p.hkPart = [] → index < 12 → value < 65536 →
       r.mark m (BitVec.ofNat 8 lane) = .ignored →
       counts (cameraFrameBytes 1 0 tag row index value lane m.code []) fun q =>
         q.state = .synced ∧ q.badRun = 0 ∧ q.good = min 4294967295 (p.good + 1)))

/-- R24, R26 to R28. What each marker does to a relay in flight, phase by phase (any marker not listed is ignored), and the lane content
of an outbound frame. -/
def Obligations.RelayHandshake : Prop :=
  (∀ (r : Relay) (b : Byte), r.phase ≠ .idle →
     r.mark .abort b = .ends { r with abortOwed := false } .abortedFarEnd
     ∧ (r.phase = .waitQuiet → r.acked < r.outgoing.length → r.mark .none b = .progress { r with phase := .offer })
     ∧ (r.phase = .waitQuiet → r.outgoing.length ≤ r.acked → r.expected = 0 → r.mark .none b = .ends r .complete)
     ∧ (r.phase = .waitQuiet → r.outgoing.length ≤ r.acked → 0 < r.expected →
         r.mark .none b = .progress { r with phase := .waitByte })
     ∧ (r.phase = .offer → r.mark .ack b = .progress { r with acked := r.acked + 1, phase := .waitQuiet })
     ∧ (r.phase = .waitByte → r.reply.length < r.expected →
         r.mark .byte b = .progress { r with reply := r.reply ++ [b], lastSeen := false, phase := .acknowledge }
         ∧ r.mark .last b = .progress { r with reply := r.reply ++ [b], lastSeen := true, phase := .acknowledge })
     ∧ (r.phase = .waitByte → r.expected ≤ r.reply.length → ∀ m ∈ [Marker.byte, .last],
         r.mark m b = .ends { r with abortOwed := true } .abortedOverlong)
     ∧ (r.phase = .acknowledge → r.lastSeen = true → r.mark .none b = .ends r .complete)
     ∧ (r.phase = .acknowledge → r.lastSeen = false → r.mark .none b = .progress { r with phase := .waitByte })
     ∧ (∀ m ∈ [Marker.byte, .last, .ack], r.phase = .waitQuiet → r.mark m b = .ignored)
     ∧ (∀ m ∈ [Marker.none, .byte, .last], r.phase = .offer → r.mark m b = .ignored)
     ∧ (∀ m ∈ [Marker.none, .ack], r.phase = .waitByte → r.mark m b = .ignored)
     ∧ (∀ m ∈ [Marker.byte, .last, .ack], r.phase = .acknowledge → r.mark m b = .ignored))
  ∧ (∀ r : Relay,
     (r.abortOwed = true → r.lane = (.abort, 0))
     ∧ (r.abortOwed = false → ∀ (b c : Byte) (rest : List Byte), r.phase = .offer →
         (r.outgoing.drop r.acked = [b] → r.lane = (.last, b)) ∧ (r.outgoing.drop r.acked = b :: c :: rest → r.lane = (.byte, b)))
     ∧ (r.abortOwed = false → r.phase = .acknowledge → r.lane = (.ack, 0))
     ∧ (r.abortOwed = false → r.phase ∈ [.idle, .waitQuiet, .waitByte] → r.lane = (.none, 0)))

/-! ## Exposures and plans -/

/-- R36. An accepted EXPOSURE_OPEN fills the lowest-numbered FREE slot, with the scale clamped into the limits, and from then on
the tag finds that slot. -/
def Obligations.ExposureOpenFillsTheLowestFreeSlot : Prop :=
  ∀ (s : State) (tag : Byte) (exposure : Nat) (m : Mode) (initial : Option Nat)
    (lower upper attack decay quota nominal limit : Nat) (k : Fin 4), s.Ready → s.canvas.state = .gathering →
    1 ≤ exposure → exposure ≤ 65535 → 256 ≤ lower → lower ≤ upper → upper ≤ 65536 →
    (∀ v, initial = some v → 256 ≤ v ∧ v ≤ 65536) → attack ≤ 256 → decay ≤ 256 → 1 ≤ quota → quota ≤ 32 →
    1 ≤ nominal → nominal ≤ 3600000 → limit ≤ 600 →
    (∀ j, (s.slot j).state ≠ .free → (s.slot j).exposure ≠ exposure) →
    (s.slot k).state = .free → (∀ j, j < k → (s.slot j).state ≠ .free) →
    let scale := max lower (min upper (match initial with | some v => v | none => s.carry))
    let t := s.setSlot k
      { state := .opened, exposure := exposure, nominal := nominal, limit := if limit = 0 then 60 else limit
        timer := .notStarted
        photo := { mode := m, scale := scale, lower := lower, upper := upper, attack := attack, decay := decay,
                   quota := quota, accepted := 0, rejected := 0, frozen := false }
        placements := [], refs := [], entries := Vector.replicate 96 .notStarted, tallies := Vector.replicate 7 0
        duplicates := 0
        totals := { tiles := 0, truncated := 0, warm := 0, nominal := 0, received := 0, missing := 0, saturated := 0,
                    defect := 0, spill := 0, late := 0 } }
    exec (.exposureOpen tag exposure m.code initial lower upper attack decay quota nominal limit) s
        = .next (t.answered tag 0x08 (code8 k.val ++ code32 scale))
      ∧ t.slotOf exposure = some k

/-- The refusals of EXPOSURE_OPEN, in their order (R35). The requests that name an exposure refuse a tag that no non-FREE slot carries
NOT_FOUND (R37, R39, R40, R52, R54, R108); the three that plan refuse a slot that is not OPEN WRONG_STATE (R37, R39, R40). -/
def Obligations.ExposureRequestsAreChecked : Prop :=
  (∀ (s : State) (tag : Byte) (exposure mode : Nat) (initial : Option Nat)
     (lower upper attack decay quota nominal limit : Nat), s.Ready →
     let fields := 1 ≤ exposure ∧ exposure ≤ 65535 ∧ mode ≤ 2 ∧ (∀ v, initial = some v → 256 ≤ v ∧ v ≤ 65536)
       ∧ 256 ≤ lower ∧ lower ≤ upper ∧ upper ≤ 65536 ∧ attack ≤ 256 ∧ decay ≤ 256 ∧ 1 ≤ quota ∧ quota ≤ 32
       ∧ 1 ≤ nominal ∧ nominal ≤ 3600000 ∧ limit ≤ 600
     let taken := ∃ j, (s.slot j).state ≠ .free ∧ (s.slot j).exposure = exposure
     let answer := exec (.exposureOpen tag exposure mode initial lower upper attack decay quota nominal limit) s
     (¬fields → answer = .next (s.turnedAway tag 0x08 .badField))
     ∧ (fields → s.canvas.state ≠ .gathering → answer = .next (s.turnedAway tag 0x08 .wrongState))
     ∧ (fields → s.canvas.state = .gathering → taken → answer = .next (s.turnedAway tag 0x08 .duplicateTag))
     ∧ (fields → s.canvas.state = .gathering → ¬taken → (∀ j, (s.slot j).state ≠ .free) →
         answer = .next (s.turnedAway tag 0x08 .noSlot)))
  ∧ (∀ (s : State) (tag : Byte) (exposure segment weight ax ay value : Nat) (cx cy rx ry : Int) (cells : List Nat)
     (refs : List (Nat × Nat × Nat × F32)), s.Ready →
     (s.slotOf exposure = none →
       exec (.planPlace tag exposure segment weight ax ay cx cy rx ry cells) s = .next (s.turnedAway tag 0x09 .notFound)
       ∧ exec (.planRef tag exposure refs) s = .next (s.turnedAway tag 0x0A .notFound)
       ∧ exec (.exposureCommit tag exposure) s = .next (s.turnedAway tag 0x0B .notFound)
       ∧ exec (.exposureAbandon tag exposure) s = .next (s.turnedAway tag 0x0C .notFound)
       ∧ exec (.exposureQuery tag exposure) s = .next (s.turnedAway tag 0x0D .notFound)
       ∧ exec (.scaleSet tag exposure value) s = .next (s.turnedAway tag 0x17 .notFound))
     ∧ ∀ k, s.slotOf exposure = some k → (s.slot k).state ≠ .opened →
       exec (.planPlace tag exposure segment weight ax ay cx cy rx ry cells) s = .next (s.turnedAway tag 0x09 .wrongState)
       ∧ exec (.planRef tag exposure refs) s = .next (s.turnedAway tag 0x0A .wrongState)
       ∧ exec (.exposureCommit tag exposure) s = .next (s.turnedAway tag 0x0B .wrongState))

/-- PLAN_PLACE in an OPEN slot (R37, R38): a field out of range is refused BAD_FIELD (an anchor at the far edge is in range, log 25);
otherwise the record takes its place in segment order, replacing one for its segment, and the answer tells whether it replaced one
and how many records there are now. -/
def Obligations.PlanPlaceKeepsSegmentOrder : Prop :=
  ∀ (s : State) (tag : Byte) (exposure segment weight ax ay : Nat) (cx cy rx ry : Int) (cells : List Nat) (k : Fin 4),
    s.Ready → s.slotOf exposure = some k → (s.slot k).state = .opened →
    (s.slot k).placements.Pairwise (fun p q => p.segment < q.segment) →
    let inRange (z : Int) := -262144 ≤ z ∧ z ≤ 262144
    let fields := segment < 96 ∧ 1 ≤ weight ∧ weight ≤ 255 ∧ ax ≤ s.canvas.width * 65536 ∧ ay ≤ s.canvas.height * 65536
      ∧ inRange cx ∧ inRange cy ∧ inRange rx ∧ inRange ry ∧ 1 ≤ cells.length ∧ cells.length ≤ 16
      ∧ (∀ i ∈ cells, i < s.canvas.width * s.canvas.height) ∧ cells.Nodup
    let answer := exec (.planPlace tag exposure segment weight ax ay cx cy rx ry cells) s
    (¬fields → answer = .next (s.turnedAway tag 0x09 .badField))
    ∧ (fields → ∃ (p : Placement) (l : List Placement), p.segment.val = segment ∧ p.weight = weight ∧ p.anchorX = ax
        ∧ p.anchorY = ay ∧ p.colX = cx ∧ p.colY = cy ∧ p.rowX = rx ∧ p.rowY = ry ∧ p.cells = cells
        ∧ (∀ q, q ∈ l ↔ q = p ∨ (q ∈ (s.slot k).placements ∧ q.segment ≠ p.segment))
        ∧ l.Pairwise (fun p q => p.segment < q.segment)
        ∧ answer = .next (State.answered (s.setSlot k { s.slot k with placements := l }) tag 0x09
            (codeFlag ((s.slot k).planned p.segment) ++ code8 l.length)))

/-- R39. PLAN_REF in an OPEN slot: the checks in order, and the records appended in the order given, each UNMEASURED. -/
def Obligations.PlanRefAppendsReferences : Prop :=
  ∀ (s : State) (tag : Byte) (exposure : Nat) (refs : List (Nat × Nat × Nat × F32)) (k : Fin 4), s.Ready →
    s.slotOf exposure = some k → (s.slot k).state = .opened →
    let fields := 1 ≤ refs.length ∧ refs.length ≤ 8 ∧ ∀ r ∈ refs, r.1 < 96 ∧ r.2.1 ≤ 1023 ∧ r.2.2.1 ≤ 2047
      ∧ 0 < r.2.2.2.toNat ∧ r.2.2.2.toNat < 0x7F800000
    let answer := exec (.planRef tag exposure refs) s
    let x := s.slot k
    (¬fields → answer = .next (s.turnedAway tag 0x0A .badField))
    ∧ (fields → 32 < x.refs.length + refs.length → answer = .next (s.turnedAway tag 0x0A .noRoom))
    ∧ (fields → x.refs.length + refs.length ≤ 32 → answer = .next (State.answered (s.setSlot k { x with
        refs := x.refs ++ refs.map fun r => { segment := Fin.ofNat 96 r.1, column := r.2.1, row := r.2.2.1,
                                              expected := r.2.2.2, result := .unmeasured, measured := none } })
        tag 0x0A (code8 (x.refs.length + refs.length))))

/-- EXPOSURE_COMMIT of an OPEN slot: the refusals in their order (R40). A commit before any readout start (R41, R42): the slot becomes
COMMITTED; each named cell is PENDING, owed one more for each placement that names it; each UNTOUCHED one joins the zeroing queue; the
answer tells the state and the counts. A plan that comes with tiles in the store, or with segments already RESOLVED (R41, R42, R136; shown
while the placement unit is busy and a listed segment still to come): a placement of a RESOLVED segment adds no owed and one resolution to
the history of its cells; HELD(PLAN) tiles of listed segments become HELD(SCALE), or QUEUED, in tile slot order; tiles of unlisted ones
leave with TILE_REPORT, and their segments are RESOLVED UNLISTED; the slot is COMMITTED, or READING once its timer runs. The promise is
paid by resolutions (R46, R135 to R137): a first resolution sets the entry and its tally, and of a listed segment it reaches the cells of
the list in order; each takes it into its history counts, a PENDING one owes one less, and with nothing owed on a CLOSED canvas it is
COMPLETE at the tail of the drain queue. A later resolution changes nothing. -/
def Obligations.CommitPromisesToCells : Prop :=
  (∀ (s : State) (tag : Byte) (exposure : Nat) (k : Fin 4), s.Ready → s.slotOf exposure = some k →
     (s.slot k).state = .opened →
     let x := s.slot k
     let enabled := ∀ p ∈ x.placements, (s.port (linkOf p.segment)).cfg.slots.getLsbD (p.segment.val % 8) = true
     let open_ := ∀ p ∈ x.placements, ∀ i ∈ p.cells, ∀ c, s.cell? i = some c → c.state = .untouched ∨ c.state = .pending
     let fits := ∀ p ∈ x.placements, ∀ i ∈ p.cells, ∀ c, s.cell? i = some c →
       c.owed + x.placements.countP (fun q => decide (i ∈ q.cells) && !(x.entry q.segment).isResolved) ≤ 255
     let answer := exec (.exposureCommit tag exposure) s
     (x.placements = [] → answer = .next (s.turnedAway tag 0x0B .emptyPlan))
     ∧ (x.placements ≠ [] → ¬enabled → answer = .next (s.turnedAway tag 0x0B .segmentOff))
     ∧ (x.placements ≠ [] → enabled → ¬open_ → answer = .next (s.turnedAway tag 0x0B .cellClosed))
     ∧ (x.placements ≠ [] → enabled → open_ → ¬fits → answer = .next (s.turnedAway tag 0x0B .owedLimit)))
  ∧ (∀ (s : State) (tag : Byte) (exposure : Nat) (k : Fin 4), s.Ready → s.slotOf exposure = some k →
     (s.slot k).state = .opened → (s.slot k).timer = .notStarted → s.tilesOf k = [] →
     (∀ g, (s.slot k).entry g = .notStarted) → (s.slot k).placements ≠ [] →
     (∀ p ∈ (s.slot k).placements, p.cells.Nodup
       ∧ (s.port (linkOf p.segment)).cfg.slots.getLsbD (p.segment.val % 8) = true
       ∧ ∀ i ∈ p.cells, ∃ c, s.cell? i = some c ∧ (c.state = .untouched ∨ c.state = .pending)
         ∧ c.owed + (s.slot k).placements.countP (fun q => decide (i ∈ q.cells)) ≤ 255) →
     s.tiles.queue = [] → s.heldTiles k = [] →
     ∃ t, exec (.exposureCommit tag exposure) s = .next (State.answered t tag 0x0B
           (code8 2 ++ code8 (s.slot k).placements.length ++ code8 0 ++ code8 0 ++ code8 0))
       ∧ t.slot k = { s.slot k with state := .committed } ∧ (∀ j, j ≠ k → t.slot j = s.slot j)
       ∧ t.canvas.commits = min 65535 (s.canvas.commits + 1)
       ∧ (∀ i c, s.cell? i = some c → (∃ p ∈ (s.slot k).placements, i ∈ p.cells) → i ∉ s.drain.queue →
           t.cell? i = some { c with
             state := .pending
             owed := c.owed + (s.slot k).placements.countP (fun q => decide (i ∈ q.cells)) }
           ∧ (c.state = .untouched → i ∈ t.store.zeroQueue))
       ∧ t.tiles = s.tiles ∧ t.mem = s.mem ∧ t.ports = s.ports ∧ t.cal = s.cal)
  ∧ (∀ (s : State) (tag : Byte) (exposure : Nat) (k : Fin 4), s.Ready → s.slotOf exposure = some k →
     (s.slot k).state = .opened → (s.slot k).timer ∈ [.notStarted, .running] → s.place ≠ none → s.tiles.holdCounter < 65536 →
     let x := s.slot k
     let owing := x.placements.filter fun p => !(x.entry p.segment).isResolved
     let moving := (s.tilesOf k).filter fun n => decide ((s.tile n).state = .heldPlan) && x.planned (s.tile n).segment
     let dropped := (s.tilesOf k).filter fun n => !x.planned (s.tile n).segment
     let settles := x.photo.mode = .settled ∧ x.photo.frozen = false
     let after : SlotState := if x.timer = .notStarted then .committed else .reading
     (∀ p ∈ x.placements, p.cells.Nodup ∧ (s.port (linkOf p.segment)).cfg.slots.getLsbD (p.segment.val % 8) = true
       ∧ ∀ i ∈ p.cells, ∃ c, s.cell? i = some c ∧ (c.state = .untouched ∨ c.state = .pending)
         ∧ c.owed + owing.countP (fun q => decide (i ∈ q.cells)) ≤ 255) →
     (∃ p ∈ x.placements, x.entry p.segment = .notStarted ∧ (∀ n ∈ s.tilesOf k, (s.tile n).segment ≠ p.segment)
       ∧ ∀ n ∈ s.heldTiles k, (s.tile n).segment ≠ p.segment) →
     (∀ n ∈ dropped, s.measure (linkOf (s.tile n).segment) = [] ∧ (s.port (linkOf (s.tile n).segment)).buffer = []) →
     ∃ t, exec (.exposureCommit tag exposure) s = .next (State.answered t tag 0x0B
           (code8 (match after with | .committed => 2 | _ => 3) ++ code8 owing.length
             ++ code8 (x.placements.length - owing.length) ++ code8 moving.length ++ code8 dropped.length))
       ∧ (∀ n ∈ moving, t.tile n = if settles
           then { s.tile n with state := .heldScale, holdOrder := some ((s.tiles.holdCounter + moving.idxOf n) % 65536) }
           else { s.tile n with state := .queued, holdOrder := none })
       ∧ (∀ n ∈ dropped, (t.tile n).state = .free) ∧ (∀ n, n ∉ moving → n ∉ dropped → t.tile n = s.tile n)
       ∧ t.tiles.queue = s.tiles.queue.filter (fun n => decide (n ∉ dropped)) ++ (if settles then [] else moving)
       ∧ (settles → t.tiles.holding = s.tiles.holding.filter (fun n => decide (n ∉ dropped)) ++ moving)
       ∧ t.tiles.holdCounter = (s.tiles.holdCounter + (if settles then moving.length else 0)) % 65536
       ∧ t.host = dropped.foldl (fun h n => h.raise .tileReport ((s.tile n).report n .unlisted)) s.host
       ∧ (t.slot k).state = after ∧ (t.slot k).timer = x.timer ∧ (t.slot k).placements = x.placements
       ∧ (t.slot k).photo = x.photo ∧ (t.slot k).refs = x.refs
       ∧ (∀ g, (t.slot k).entry g = if (∃ n ∈ dropped, (s.tile n).segment = g) ∧ (x.entry g).isResolved = false
           then .resolved .unlisted else x.entry g)
       ∧ (t.slot k).totals = dropped.foldl (fun a n => a.add (s.tile n)) x.totals
       ∧ (∀ j, j ≠ k → t.slot j = s.slot j)
       ∧ t.canvas.commits = min 65535 (s.canvas.commits + 1)
       ∧ (∀ i c, s.cell? i = some c → (∃ p ∈ x.placements, i ∈ p.cells) → i ∉ s.drain.queue → c.resolved ≤ 65535 →
           c.writtenOff ≤ 65535 →
           let late := x.placements.countP fun p => decide (i ∈ p.cells) && (x.entry p.segment).isResolved
           t.cell? i = some { c with
             state := .pending
             owed := c.owed + owing.countP (fun q => decide (i ∈ q.cells))
             resolved := min 65535 (c.resolved + late)
             writtenOff := min 65535 (c.writtenOff + late) }
           ∧ (c.state = .untouched → i ∈ t.store.zeroQueue))
       ∧ t.mem = s.mem ∧ t.ports = s.ports ∧ t.cal = s.cal)
  ∧ (∀ (s : State) (k : Fin 4) (g : Fin 96) (why : Reason),
     let x := s.slot k
     let marked := s.setSlot k { x with
       entries := x.entries.set g.val (.resolved why) g.isLt
       tallies := x.tallies.set why.num.val (x.tallies[why.num] + 1) why.num.isLt }
     ((∃ w, x.entry g = .resolved w) → s.recordResolution k g why = s)
     ∧ ((∀ w, x.entry g ≠ .resolved w) →
       (x.state ∈ [.free, .opened] ∨ x.placementFor g = none → s.recordResolution k g why = marked)
       ∧ ∀ p, x.state ∈ [.committed, .reading, .placing] → x.placementFor g = some p →
           s.recordResolution k g why = p.cells.foldl (State.payCell (decide (why = .placed))) marked))
  ∧ (∀ (s : State) (i : Nat) (c : Cell) (placed : Bool), s.cell? i = some c →
     let told : Cell := { c with
       resolved := min 65535 (c.resolved + 1)
       placed := if placed = true then min 65535 (c.placed + 1) else c.placed
       writtenOff := if placed = true then c.writtenOff else min 65535 (c.writtenOff + 1) }
     let u := State.payCell placed s i
     (c.state ≠ .pending → u = s.setCell i told)
     ∧ (c.state = .pending → 1 < c.owed ∨ s.canvas.state ≠ .closed → u = s.setCell i { told with owed := c.owed - 1 })
     ∧ (c.state = .pending → c.owed ≤ 1 → s.canvas.state = .closed →
       u.cell? i = some { told with state := .complete, owed := 0 } ∧ (∀ j, j ≠ i → u.cell? j = s.cell? j)
       ∧ u.drain = { s.drain with queue := s.drain.queue ++ [i] }
       ∧ { u with canvas := s.canvas, drain := s.drain, place := s.place, store := s.store } = s))

/-- EXPOSURE_ABANDON (R52, R53). An OPEN slot with no tile ends with EXPOSURE_DONE(ABANDONED) and becomes FREE, and nothing else
changes, the carry scale among it. Of any slot, every tile that is not PLACING leaves the store, and the slot becomes FREE. Of a committed
slot each listed segment that is not RESOLVED is RESOLVED ABANDONED, and each of its PENDING cells owes one less (R52; the cells shown on
a GATHERING canvas). Its PLACING tile is detached (R53, R124; shown as its one tile): with its row in flight the stop flag is set, and it
stays; CLAIMING or WAITING_ZERO its claim is withdrawn and it leaves, DETACHED, after EXPOSURE_DONE, and the unit takes the next head.
READOUT_LIMIT_EXPIRY (R47 to R49). An OPEN slot with no tile ends OVERRUN. A committed slot that still has a tile in the store, not
SETTLED, goes to PLACING with every listed NOT_STARTED segment RESOLVED NO_READOUT; with no tile left and no segment IN_STORE it finishes
(R50): its scale is the carry scale, EXPOSURE_DONE gives FINISHED with the resolutions of the expiry, and the slot is FREE. Each cell of
the one listed segment that is so written off owes one less (R46; shown on a GATHERING canvas). What settling does to a slot is given for
every state, timer, resolution array and store, line by line of R33's table. -/
def Obligations.AbandonedAndOverrunSlotsEnd : Prop :=
  (∀ (s : State) (tag : Byte) (exposure : Nat) (k : Fin 4), s.Ready → s.slotOf exposure = some k →
     ((s.slot k).state = .opened → s.tilesOf k = [] → (∀ g, (s.slot k).entry g ≠ .inStore) →
       exec (.exposureAbandon tag exposure) s = .next (State.answered (State.settle
         ((s.raise .exposureDone ((s.slot k).doneContent k .abandoned)).setSlot k .empty)) tag 0x0C (code8 k.val)))
     ∧ ∃ t, exec (.exposureAbandon tag exposure) s = .next t ∧ t.slot k = .empty
       ∧ ∀ n, (s.tile n).owner = some k → (s.tile n).state ≠ .placing → (s.tile n).state ≠ .free → (t.tile n).state = .free)
  ∧ (∀ (s : State) (tag : Byte) (exposure : Nat) (k : Fin 4), s.Ready → s.slotOf exposure = some k →
     (s.slot k).state ∈ [.committed, .reading, .placing] →
     let open_ (g : Fin 96) := (s.slot k).planned g = true ∧ ((s.slot k).entry g).isResolved = false
     let ends (x : ExpSlot) := { x with entries := (s.slot k).entries, tallies := (s.slot k).tallies } = s.slot k
       ∧ (∀ g, x.entry g = if open_ g then .resolved .abandoned else (s.slot k).entry g)
       ∧ x.tallies[Reason.abandoned.num] = (s.slot k).tallies[Reason.abandoned.num] + allSegments.countP (fun g => decide (open_ g))
     let leads (f : ExpSlot → State → Prop) := ∃ (x : ExpSlot) (u : State),
       exec (.exposureAbandon tag exposure) s = .next (State.answered u tag 0x0C (code8 k.val)) ∧ ends x ∧ u.slot k = .empty
         ∧ u.carry = s.carry ∧ (∀ j, j ≠ k → u.slot j = s.slot j) ∧ f x u
     (s.tilesOf k = [] → leads fun x u => u.host = s.host.raise .exposureDone (x.doneContent k .abandoned) ∧ u.tiles = s.tiles
       ∧ ((s.slot k).placements.Pairwise (fun p q => p.segment < q.segment) → (∀ p ∈ (s.slot k).placements, p.cells.Nodup) →
         s.canvas.state = .gathering → ∀ i c, s.cell? i = some c → c.state = .pending → i ∉ s.drain.queue → c.resolved ≤ 65535 →
           c.writtenOff ≤ 65535 →
           let n := (s.slot k).placements.countP fun p => decide (i ∈ p.cells ∧ open_ p.segment)
           u.cell? i = some { c with owed := c.owed - n, resolved := min 65535 (c.resolved + n)
                                     writtenOff := min 65535 (c.writtenOff + n) }))
     ∧ ∀ ctx n, s.place = some ctx → ctx.tile = n → s.tilesOf k = [n] → (s.tile n).state = .placing →
       s.measure (linkOf (s.tile n).segment) = [] → (s.port (linkOf (s.tile n).segment)).buffer = [] →
       let detached := { s.tile n with owner := none }
       (ctx.phase = .inFlight → leads fun x u => u.host = s.host.raise .exposureDone (x.doneContent k .abandoned)
         ∧ u.place = some { ctx with stop := true } ∧ u.tile n = detached ∧ ∀ m, m ≠ n → u.tile m = s.tile m)
       ∧ (ctx.phase ≠ .inFlight → s.tiles.queue = [] → leads fun x u =>
         u.host = (s.host.raise .exposureDone (x.doneContent k .abandoned)).raise .tileReport (detached.report n .abandoned)
         ∧ u.place = none ∧ (u.tile n).state = .free ∧ u.holdsClaim .placement = false ∧ ∀ m, m ≠ n → u.tile m = s.tile m)
       ∧ ∀ m rest j p r, ctx.phase ≠ .inFlight → s.tiles.queue = m :: rest → (s.tile m).owner = some j → j ≠ k →
         (s.slot j).placementFor (s.tile m).segment = some p → (s.tile m).nextHeld 0 = some r →
         leads fun _ u => (u.tile n).state = .free ∧ (u.tile m).state = .placing
           ∧ ∃ c, u.place = some c ∧ c.tile = m ∧ c.plan = p ∧ c.stop = false)
  ∧ (∀ (s : State) (k : Fin 4), s.host.requests = [] → (s.slot k).timer = .running →
     ((s.slot k).state = .opened → s.tilesOf k = [] →
       exec (.readoutLimitExpiry k) s = .next (State.outboundGrant (State.settle
         ((s.raise .exposureDone ((s.slot k).doneContent k .overrun)).setSlot k .empty))))
     ∧ ((s.slot k).state = .reading → s.tilesOf k ≠ [] → (s.slot k).photo.mode ≠ .settled →
       ∃ t, exec (.readoutLimitExpiry k) s = .next t ∧ (t.slot k).state = .placing ∧ (t.slot k).timer = .expired
         ∧ (∀ g, (t.slot k).entry g = if (s.slot k).planned g = true ∧ (s.slot k).entry g = .notStarted
             then .resolved .noReadout else (s.slot k).entry g)
         ∧ (t.slot k).placements = (s.slot k).placements ∧ t.tiles = s.tiles ∧ ∀ j, j ≠ k → t.slot j = s.slot j)
     ∧ ((s.slot k).state = .reading → s.tilesOf k = [] → (s.slot k).photo.mode ≠ .settled →
         (s.slot k).placements.Pairwise (fun p q => p.segment < q.segment) →
         (∀ p ∈ (s.slot k).placements, (s.slot k).entry p.segment ≠ .inStore) →
       ∃ (x : ExpSlot) (u : State), exec (.readoutLimitExpiry k) s = .next u.outboundGrant ∧ u.slot k = .empty
         ∧ u.carry = (s.slot k).photo.scale ∧ u.host = s.host.raise .exposureDone (x.doneContent k .finished)
         ∧ { x with entries := (s.slot k).entries, tallies := (s.slot k).tallies } = s.slot k
         ∧ (∀ g, x.entry g = if (s.slot k).planned g = true ∧ (s.slot k).entry g = .notStarted
             then .resolved .noReadout else (s.slot k).entry g)
         ∧ x.tallies[Reason.noReadout.num] = (s.slot k).tallies[Reason.noReadout.num]
             + (s.slot k).placements.countP (fun p => decide ((s.slot k).entry p.segment = .notStarted))
         ∧ ∀ j, j ≠ k → u.slot j = s.slot j)
     ∧ (∀ p, (s.slot k).state = .reading → (s.slot k).placements = [p] → (s.slot k).entry p.segment = .notStarted →
         (s.slot k).photo.mode ≠ .settled → s.canvas.state = .gathering → p.cells.Nodup →
       ∃ t, exec (.readoutLimitExpiry k) s = .next t
         ∧ ∀ i c, i ∈ p.cells → s.cell? i = some c → c.state = .pending → i ∉ s.drain.queue →
           t.cell? i = some { c with owed := c.owed - 1, resolved := min 65535 (c.resolved + 1)
                                     writtenOff := min 65535 (c.writtenOff + 1) }))
  ∧ (∀ (s : State) (k : Fin 4),
     let x := s.slot k
     let waits := ∃ p ∈ x.placements, x.entry p.segment = .notStarted
     let left := (∃ p ∈ x.placements, ∀ w, x.entry p.segment ≠ .resolved w) ∨ ∃ n, (s.tile n).state ≠ .free ∧ (s.tile n).owner = some k
     (x.state ∈ [.free, .opened] → s.settleSlot k = s)
     ∧ (x.state ∈ [.committed, .reading, .placing] →
       (x.timer = .notStarted → s.settleSlot k = s.setSlot k { x with state := .committed })
       ∧ (x.timer = .running → waits → s.settleSlot k = s.setSlot k { x with state := .reading })
       ∧ (x.timer ≠ .notStarted → x.timer ≠ .running ∨ ¬waits → left → s.settleSlot k = s.setSlot k
           { x with state := .placing, timer := if x.timer = .running then .stopped else x.timer })
       ∧ (x.timer ≠ .notStarted → x.timer ≠ .running ∨ ¬waits → ¬left → s.settleSlot k =
           State.setSlot (State.raise { s with carry := x.photo.scale } .exposureDone (x.doneContent k .finished)) k .empty)))

/-- R108. SCALE_SET: the checks in order; an accepted value is clamped and becomes the scale, and the answer gives it and whether it was
clamped. -/
def Obligations.ScaleSetClampsTheScale : Prop :=
  ∀ (s : State) (tag : Byte) (exposure value : Nat) (k : Fin 4), s.Ready → s.slotOf exposure = some k →
    let x := s.slot k
    let v := clampScale x.photo.lower x.photo.upper value
    exec (.scaleSet tag exposure value) s = .next
      (if value < 256 ∨ 65536 < value then s.turnedAway tag 0x17 .badField
       else if x.photo.mode = .settled ∧ x.photo.frozen = true then s.turnedAway tag 0x17 .wrongState
       else State.answered (s.setSlot k { x with photo := { x.photo with scale := v } }) tag 0x17
         (code32 v ++ codeFlag (decide (v ≠ value))))

/-- R101. The scale after an accepted reference: the ratio r is the expected flux over the measured flux, the gain is the attack gain
below the scale and the decay gain otherwise, and the new value is s + g × (r − s), rounded to the nearest 1/4096 with a tie to the
larger, and clamped. Only TRACKING, and SETTLED before the freeze, move the scale. The freeze (R86, R103 to R107): a trigger that reaches a
non-FREE SETTLED slot not yet frozen sets the flag, queues its HELD(SCALE) tiles in order of holding, of which an idle unit takes the head,
and raises SCALE_FROZEN; one that reaches any other slot does nothing. QUOTA is the accepted reference that brings the count to the quota.
EXHAUSTED is a committed slot each of whose listed segments is RESOLVED or HELD(SCALE), shown too in READOUT_LIMIT_EXPIRY. STORE_PRESSURE
is every slot with a tile HELD(SCALE), with the segment that found no room. A tile that enters HELD(SCALE) takes the hold counter as its
hold order, and the counter rises, wrapping. -/
def Obligations.ScaleUpdateFollowsTheRatio : Prop :=
  (∀ (p : Photometry) (e m : Int), 0 < e → 0 < m →
    let r : ℚ := e / m
    let sc : ℚ := p.scale / 4096
    let g : ℚ := if r < sc then p.attack / 256 else p.decay / 256
    p.updated e m = clampScale p.lower p.upper (⌊(sc + g * (r - sc)) * 4096 + 1 / 2⌋).toNat)
  ∧ (∀ (p : Photometry) (e m : F32),
    (p.accept e m).accepted = p.accepted + 1
    ∧ ((p.mode = .tracking ∨ (p.mode = .settled ∧ p.frozen = false)) →
        (p.accept e m).scale = p.updated (f32Exact e) (f32Exact m))
    ∧ ((p.mode = .fixed ∨ (p.mode = .settled ∧ p.frozen = true)) → (p.accept e m).scale = p.scale))
  ∧ (∀ (s : State) (k : Fin 4) (cause : FreezeCause) (place : Option (Fin 96)),
    let x := s.slot k
    let moved := s.heldTiles k
    let can := x.state ≠ .free ∧ x.photo.mode = .settled ∧ x.photo.frozen = false
    let content := code16 x.exposure ++ code8 k.val ++ code8 (match cause with | .quota => 0 | .exhausted => 1 | .storePressure => 2)
      ++ code32 x.photo.scale ++ code8 x.photo.accepted ++ code8 x.photo.rejected ++ code8 moved.length
      ++ codePart (place.map fun g => code8 (linkOf g).val ++ code8 g.val)
    let t := s.freezeSlot State.take k cause place
    let frozen := { x with photo := { x.photo with frozen := true } }
    (¬can → t = s)
    ∧ (can → t = State.raise (State.take (moved.foldl State.queueTile (s.setSlot k frozen))) .scaleFrozen content)
    ∧ (can → s.place ≠ none →
        t.slot k = frozen ∧ (∀ j, j ≠ k → t.slot j = s.slot j) ∧ t.tiles.queue = s.tiles.queue ++ moved
        ∧ (∀ n, t.tile n = if n ∈ moved then { s.tile n with state := .queued, holdOrder := none } else s.tile n)
        ∧ t.tiles.holdCounter = s.tiles.holdCounter ∧ t.tiles.holding = s.tiles.holding.filter (fun n => decide (n ∉ moved))
        ∧ t.host = s.host.raise .scaleFrozen content ∧ { t with slots := s.slots, tiles := s.tiles, host := s.host } = s))
  ∧ (∀ (s : State) (n : Fin 40) (k : Fin 4) (i : Nat) (ref : RefRec) (f : F32), (s.slot k).refs[i]? = some ref →
    let x := s.slot k
    x.photo.accepted + 1 = x.photo.quota → s.recordRef n k i .accepted (some f) = State.freezeSlot State.take
      ((s.setSlot k { x with
          refs := x.refs.set i { ref with result := .accepted, measured := some f }
          photo := x.photo.accept ref.expected f }).modTile n fun y => { y with accepted := y.accepted + 1 }) k .quota none)
  ∧ (∀ (s : State) (k : Fin 4),
    let x := s.slot k
    let committed := x.state ∈ [.committed, .reading, .placing]
    let spent := ∀ p ∈ x.placements, (∃ w, x.entry p.segment = .resolved w) ∨ ∃ n ∈ s.heldTiles k, (s.tile n).segment = p.segment
    (committed → spent → s.exhaustedTest State.take k = s.freezeSlot State.take k .exhausted none)
    ∧ (¬committed ∨ ¬spent → s.exhaustedTest State.take k = s)
    ∧ (s.host.requests = [] → s.place ≠ none → x.timer = .running → x.state = .reading → x.photo.mode = .settled →
        x.photo.frozen = false → (∃ p ∈ x.placements, x.entry p.segment = .notStarted) →
        (∀ p ∈ x.placements, x.entry p.segment = .notStarted ∨ (∃ w, x.entry p.segment = .resolved w)
          ∨ ∃ n ∈ s.heldTiles k, (s.tile n).segment = p.segment) →
        (∃ n ∈ s.heldTiles k, (s.tile n).state ≠ .free) →
      ∃ t, exec (.readoutLimitExpiry k) s = .next t ∧ (t.slot k).photo = { x.photo with frozen := true } ∧ (t.slot k).state = .placing
        ∧ t.tiles.queue = s.tiles.queue ++ s.heldTiles k
        ∧ ∀ n, t.tile n = if n ∈ s.heldTiles k then { s.tile n with state := .queued, holdOrder := none } else s.tile n))
  ∧ (∀ (s : State) (g : Fin 96),
    ((∀ k, s.heldTiles k = []) → s.pressFreeze State.take g = s)
    ∧ ∀ k, s.place ≠ none → s.heldTiles k ≠ [] → (∀ j, j ≠ k → s.heldTiles j = []) →
        s.pressFreeze State.take g = s.freezeSlot State.take k .storePressure (some g))
  ∧ (∀ (s : State) (n : Fin 40),
    let t := s.holdTile n
    t.tile n = { s.tile n with state := .heldScale, holdOrder := some s.tiles.holdCounter } ∧ (∀ m, m ≠ n → t.tile m = s.tile m)
    ∧ t.tiles.holdCounter = (s.tiles.holdCounter + 1) % 65536 ∧ t.tiles.holding = s.tiles.holding ++ [n]
    ∧ t.tiles.queue = s.tiles.queue ∧ { t with tiles := s.tiles } = s)

/-! ## Calibration and the flat library -/

/-- CAL_LOAD (R58, R59): the checks in order (the skip count and the fixed level are checked in both modes, log 26); an accepted load
replaces the segment's holding record, with the geometry of its link's configuration, and leaves the rest of the segment. -/
def Obligations.CalLoadReplacesTheHoldingRecord : Prop :=
  ∀ (s : State) (tag : Byte) (g : Fin 96) (b : Bias) (skip level gain : Nat) (flat : Option (Fin 24)) (saturation : Nat)
    (defects : List (Nat × Nat × Nat × Nat)), s.Ready →
    let cfg := (s.port (linkOf g)).cfg
    let mode := match b with | .overscan _ => 0 | .fixed _ => 1
    let fits := match b with | .overscan k => k + 4 ≤ cfg.overscan | .fixed _ => True
    let fields := skip ≤ 15 ∧ level ≤ 65535 ∧ 1024 ≤ gain ∧ gain ≤ 65536 ∧ 1 ≤ saturation ∧ saturation ≤ 65535
      ∧ defects.length ≤ 16 ∧ ∀ d ∈ defects, d.1 ≤ d.2.1 ∧ d.2.1 ≤ 1023 ∧ d.2.2.1 ≤ d.2.2.2 ∧ d.2.2.2 ≤ 2047
    let r : CalRec :=
      { bias := b, gain := gain, flat := flat, saturation := saturation
        defects := defects.map fun d => { firstCol := d.1, lastCol := d.2.1, firstRow := d.2.2.1, lastRow := d.2.2.2 }
        columns := cfg.active, rows := cfg.rows }
    let answer := exec (.calLoad tag g.val mode skip level gain (flat.map Fin.val) saturation defects) s
    (b = .overscan skip ∨ b = .fixed level) →
    (¬fields → answer = .next (s.turnedAway tag 0x0E .badField))
    ∧ (fields → ∀ i, flat = some i → (s.flat i).state ≠ .valid → answer = .next (s.turnedAway tag 0x0E .flatNotValid))
    ∧ (fields → (∀ i, flat = some i → (s.flat i).state = .valid) →
        (∃ i, flat = some i ∧ ((s.flat i).columns ≠ cfg.active ∨ (s.flat i).rows ≠ cfg.rows)) ∨ ¬fits →
        answer = .next (s.turnedAway tag 0x0E .geometry))
    ∧ (fields → (∀ i, flat = some i → (s.flat i).state = .valid ∧ (s.flat i).columns = cfg.active ∧ (s.flat i).rows = cfg.rows) →
        fits → answer = .next (State.answered (s.setSegCal g { s.segCal g with holding := some r }) tag 0x0E []))
    ∧ ∀ (n m f : Nat) (fl : Option Nat), 95 < n ∨ 1 < m ∨ (fl = some f ∧ 23 < f) →
        exec (.calLoad tag n m skip level gain fl saturation defects) s = .next (s.turnedAway tag 0x0E .badField)

/-- CAL_APPLY (R60 to R62) with NOW: refused EMPTY if a named holding record is empty, BUSY if a named segment's port is READING or it
has a FILLING tile; otherwise every named segment's holding record is copied to active, with the next generation, and disarmed, and
no other segment changes.
With NEXT_READOUT and DISARM the armed flag of every named segment is set or cleared and nothing else changes; only NEXT_READOUT asks
for a holding record. A mask that names no segment is refused BAD_FIELD. -/
def Obligations.CalApplyTransfersArmsAndDisarms : Prop :=
  (∀ (s : State) (tag : Byte) (segments : BitVec 96), s.Ready → segments ≠ 0 →
     let isNamed (g : Fin 96) := segments.getLsbD g.val = true
     let empty := ∃ g, isNamed g ∧ (s.segCal g).holding = none
     let busy := ∃ g, isNamed g ∧ ((s.port (linkOf g)).state = .reading
       ∨ ∃ t, (s.tile t).state = .filling ∧ (s.tile t).segment = g)
     (empty → exec (.calApplyNow tag segments) s = .next (s.turnedAway tag 0x0F .empty))
     ∧ (¬empty → busy → exec (.calApplyNow tag segments) s = .next (s.turnedAway tag 0x0F .busy))
     ∧ (¬empty → ¬busy → ∃ cal : Vector SegCal 96,
         (∀ g : Fin 96, cal[g] = if segments.getLsbD g.val = true then
           { s.segCal g with active := (s.segCal g).holding, generation := ((s.segCal g).generation + 1) % 65536, armed := false }
           else s.segCal g)
         ∧ exec (.calApplyNow tag segments) s = .next (State.answered { s with cal := cal } tag 0x0F
           (codeList8 (fun g => code16 (cal[g]).generation)
             ((List.finRange 96).filter fun g => segments.getLsbD g.val)))))
  ∧ (∀ (s : State) (tag : Byte) (segments : BitVec 96), s.Ready →
     let empty := ∃ g : Fin 96, segments.getLsbD g.val = true ∧ (s.segCal g).holding = none
     let armed (b : Bool) (cal : Vector SegCal 96) := ∀ g : Fin 96, cal[g] =
       if segments.getLsbD g.val = true then { s.segCal g with armed := b } else s.segCal g
     (segments ≠ 0 → empty → exec (.calApplyNextReadout tag segments) s = .next (s.turnedAway tag 0x0F .empty))
     ∧ (segments ≠ 0 → ¬empty → ∃ cal, armed true cal
         ∧ exec (.calApplyNextReadout tag segments) s = .next (State.answered { s with cal := cal } tag 0x0F []))
     ∧ (segments ≠ 0 → ∃ cal, armed false cal
         ∧ exec (.calApplyDisarm tag segments) s = .next (State.answered { s with cal := cal } tag 0x0F []))
     ∧ ∀ c ∈ [Instr.calApplyNow tag 0, .calApplyNextReadout tag 0, .calApplyDisarm tag 0],
         exec c s = .next (s.turnedAway tag 0x0F .badField))

/-- FLAT_BEGIN (R71), FLAT_END (R73) and FLAT_DROP (R74): the checks in order, the entry an accepted upload starts from, the check that
makes it VALID or EMPTY, and the drop of an entry that no record names. -/
def Obligations.FlatUploadsAreChecked : Prop :=
  (∀ (s : State) (tag : Byte) (n columns rows : Nat) (check : BitVec 32), s.Ready →
     exec (.flatBegin tag n columns rows check) s = .next
       (if h : n < 24 ∧ 64 ≤ columns ∧ columns ≤ 1024 ∧ columns % 16 = 0 ∧ 64 ≤ rows ∧ rows ≤ 2048 then
         let i : Fin 24 := ⟨n, h.1⟩
         if s.flatNamed i = true then s.turnedAway tag 0x11 .isProtected
         else if ∃ j, j ≠ i ∧ (s.flat j).state = .loading then s.turnedAway tag 0x11 .busy
         else State.answered (s.setFlat i { state := .loading, columns := columns, rows := rows, expected := check, count := 0,
                                            running := 0 }) tag 0x11 []
       else s.turnedAway tag 0x11 .badField))
  ∧ (∀ (s : State) (tag : Byte) (n : Nat), s.Ready →
     exec (.flatEnd tag n) s = .next
       (if h : n < 24 then
         let i : Fin 24 := ⟨n, h⟩
         let f := s.flat i
         if f.state ≠ .loading then s.turnedAway tag 0x13 .wrongState
         else if f.count = f.columns * f.rows ∧ f.running = f.expected then
           State.answered (s.setFlat i { f with state := .valid, count := 0, running := 0 }) tag 0x13 []
         else State.turnedAway (s.setFlat i .reset) tag 0x13 .checkFailed
       else s.turnedAway tag 0x13 .badField))
  ∧ (∀ (s : State) (tag : Byte) (n : Nat), s.Ready →
     exec (.flatDrop tag n) s = .next
       (if h : n < 24 then
         let i : Fin 24 := ⟨n, h⟩
         if ∃ g : Fin 96, (∃ r, (s.segCal g).holding = some r ∧ r.flat = some i) ∨ (∃ r, (s.segCal g).active = some r ∧ r.flat = some i)
         then s.turnedAway tag 0x14 .isProtected
         else State.answered (s.setFlat i { state := .empty, columns := 0, rows := 0, expected := 0, count := 0, running := 0 })
           tag 0x14 []
       else s.turnedAway tag 0x14 .badField))

/-- FLAT_DATA (R72): the checks in order; an accepted one makes the handler BUSY, claims its first write, and is not answered yet.
Its values are cut, in order and whole, into runs of consecutive places from the offset on, none empty and none past the end of a row of
the flat, each but the last up to it. FLAT_DATA_WRITE_DONE: a run is written in place and the next is claimed; after the last, the count
and the running check take the values in, and the answer DONE carries the new count. A written run reads back value by value, and no
other place of any region changes. -/
def Obligations.FlatDataIsWrittenInRuns : Prop :=
  (∀ (s : State) (tag : Byte) (i : Fin 24) (offset : Nat) (values : List Nat), s.Ready →
     let f := s.flat i
     let sized := 1 ≤ values.length ∧ values.length ≤ 2048
     let answer := exec (.flatData tag i.val offset values) s
     (¬sized → answer = .next (s.turnedAway tag 0x12 .badField))
     ∧ (sized → f.state ≠ .loading → answer = .next (s.turnedAway tag 0x12 .wrongState))
     ∧ (sized → f.state = .loading → offset ≠ f.count → answer = .next (s.turnedAway tag 0x12 .outOfOrder))
     ∧ (sized → f.state = .loading → offset = f.count → f.columns * f.rows < f.count + values.length →
         answer = .next (s.turnedAway tag 0x12 .noRoom))
     ∧ (sized → f.state = .loading → offset = f.count → f.count + values.length ≤ f.columns * f.rows →
         ∃ t, answer = .next t ∧ (∃ j, t.host.job = some j ∧ j.tag = tag ∧ j.index = i ∧ j.values = values
             ∧ j.runs.flatMap Prod.snd = values
             ∧ (∀ before r after, j.runs = before ++ r :: after →
                 r.2 ≠ [] ∧ r.1 = offset + (before.flatMap Prod.snd).length ∧ r.1 % f.columns + r.2.length ≤ f.columns
                 ∧ (after ≠ [] → (r.1 + r.2.length) % f.columns = 0)))
           ∧ t.holdsClaim .flatWrite = true ∧ t.flats = s.flats ∧ t.mem = s.mem ∧ t.host.handlerFree = false))
  ∧ (∀ (s : State) (j : FlatJob) (place : Nat) (vs : List Nat), s.host.requests = [] → s.store.access = some .flatWrite →
     s.host.job = some j →
     let f := s.flat j.index
     let written : State :=
       { s with mem := s.mem.setFlatRun j.index place vs, store := { s.store with access := none } }
     (j.runs = [(place, vs)] →
       exec .flatDataWriteDone s = .next (State.outboundGrant (State.grant (State.queueAnswer
         (State.setFlat { written with host := { s.host with job := none } } j.index
           { f with count := f.count + j.values.length, running := crc32More f.running (j.values.flatMap code16) })
         j.tag 0x12 (.done (code32 (f.count + j.values.length)))))))
     ∧ ∀ (next : Nat × List Nat) (rest : List (Nat × List Nat)), j.runs = (place, vs) :: next :: rest →
       exec .flatDataWriteDone s = .next (State.outboundGrant (State.grant (State.claim
         { written with host := { s.host with job := some { j with runs := next :: rest } } } .flatWrite))))
  ∧ (∀ (s : State) (tag : Byte) (n offset : Nat) (values : List Nat), s.Ready → 23 < n →
     exec (.flatData tag n offset values) s = .next (s.turnedAway tag 0x12 .badField))
  ∧ (∀ (m : Memory) (i : Fin 24) (place : Nat) (vs : List Nat), m.wf = true →
     let w := m.setFlatRun i place vs
     (∀ n v, vs[n]? = some v → w.flatValue i (place + n) = v)
     ∧ (∀ (j : Fin 24) (q : Nat), flatKey j q < flatKey i place ∨ flatKey i place + vs.length ≤ flatKey j q →
         w.flatValue j q = m.flatValue j q)
     ∧ w.tileRows = m.tileRows ∧ w.cells = m.cells)

/-- R67 to R69. A pixel below saturation, outside the defect list and of a flat value above 0 is a value: the bias is the fixed level,
or the exact mean of the overscan columns from the skip count on, and the value is the single-precision number nearest
(D − B) × gain ÷ (F × t). Any other pixel is flagged, and carries no value. -/
def Obligations.PixelsAreCalibrated : Prop :=
  ∀ (r : CalRec) (overscan : List Nat) (flat time row col raw : Nat), 1 ≤ time →
    (∀ k, r.bias = .overscan k → k < overscan.length) →
    let bias : ℚ := match r.bias with
      | .fixed level => level
      | .overscan k => ((overscan.drop k).sum : ℚ) / ((overscan.length : ℚ) - k)
    let saturated := r.saturation ≤ raw
    let defect := flat = 0 ∨ ∃ d ∈ r.defects, d.firstCol ≤ col ∧ col ≤ d.lastCol ∧ d.firstRow ≤ row ∧ row ≤ d.lastRow
    let px := r.pixel (r.biasOf overscan) flat time row col raw
    ((r.biasOf overscan).1 : ℚ) / (r.biasOf overscan).2 = bias
    ∧ (saturated ∨ defect → ∃ d st, px = .flagged d st ∧ (d = true ↔ defect) ∧ (st = true ↔ saturated))
    ∧ (¬saturated → ¬defect → ∃ (num : Int) (den : Nat), 0 < den
        ∧ (num : ℚ) / den = (raw - bias) * (r.gain / 4096) / ((flat / 16384) * (time / 1000))
        ∧ px = .value (f32OfRatio num den))

/-- The nearest single-precision number (R68, R98, R119, R157): the pattern of a finite result is no further from the exact value than
any other finite pattern. -/
def Obligations.RoundingIsToTheNearest : Prop :=
  ∀ (num : Int) (den : Nat), 0 < den → ((f32OfRatio num den).toNat % 2 ^ 31 < 0x7F800000) →
    ∀ g : F32, g.toNat % 2 ^ 31 < 0x7F800000 →
      |(f32Exact (f32OfRatio num den) : ℚ) / f32Unit - num / den| ≤ |(f32Exact g : ℚ) / f32Unit - num / den|

/-! ## Intake, tiles and measurement -/

/-- READOUT_START (R12, R43, R44, R47, R57, R63, R80). Of a tag that no slot carries: the armed segments of the link transfer, the
latch is shown in the readout context, READOUT_IGNORED is raised, and no slot or tile changes. Of an OPEN slot's tag, every enabled
segment of the link NOT_STARTED with a matching active record and none armed, and tiles enough FREE: the timer runs, and each enabled
segment is IN_STORE with a fresh FILLING tile of its own. A record matches its link's configuration exactly when the columns and the
rows agree and, in OVERSCAN mode, at least four overscan columns are left after the skip count. What a start latches (R13): the latest
complete cycle's time and temperature where its tag is the readout's and its time is at least 1 ms, WARM outside the window; otherwise
the nominal time, with no temperature, NOMINAL_TIME and not WARM. Of a link with one enabled slot (R44): a segment IN_STORE or
RESOLVED is a duplicate; one without a matching active record is RESOLVED NO_CALIBRATION; one that finds no FREE tile is RESOLVED
STORE_FULL, and each slot with a tile HELD(SCALE) that can freeze does so, in slot order (shown with the placement unit busy); in a
committed slot that still waits for another segment, an unlisted segment is ignored, and a listed one takes the lowest FREE tile. The row
behind the marker (R9, R12, R81): where its first slot row has a tile, its write is claimed; where the start has allocated none, the rows
and END markers that follow are dropped, up to the next START. -/
def Obligations.ReadoutStartsIgnoreOrAllocate : Prop :=
  let later (rest : List BufItem) := rest.dropWhile fun it => match it with
    | .row _ | .finish => true
    | .start _ _ | .truncation => false
  let unheld (s : State) (l : Fin 12) (rest : List BufItem) := rest = [] ∨ ∀ a, s.fillingTile (segmentOf l a) = none
  let claimable (rest : List BufItem) (on : Fin 8 → Prop) :=
    rest = [] ∨ ∃ (b : BufRow) (tail : List BufItem) (sr : SlotRow) (more : List SlotRow),
      rest = .row b :: tail ∧ b.slots = sr :: more ∧ on sr.slot
  (∀ (s : State) (l : Fin 12) (e row : Nat) (rest : List BufItem), s.host.requests = [] → s.measure l = [] →
     s.holdsClaim (.intake l) = false → (s.port l).buffer = .start e row :: rest → unheld s l rest → s.slotOf e = none →
     ∃ (cal : Vector SegCal 96) (ports : Vector Port 12),
       (∀ g : Fin 96, cal[g] = if linkOf g = l ∧ (s.segCal g).armed = true then
         { s.segCal g with active := (s.segCal g).holding, generation := ((s.segCal g).generation + 1) % 65536, armed := false }
         else s.segCal g)
       ∧ ports[l] = { s.port l with
           buffer := later rest
           ctx := (s.port l).ctx.map fun c =>
             if hasStart rest = true then c else { c with latched := some ((s.port l).latch e none) } }
       ∧ (∀ j : Fin 12, j ≠ l → ports[j] = s.port j)
       ∧ exec (.readoutStart l) s = .next (State.outboundGrant (State.settle
           (State.raise { s with cal := cal, ports := ports } .readoutIgnored (code8 l.val ++ code16 e ++ code16 row)))))
  ∧ (∀ (s : State) (l : Fin 12) (e row : Nat) (rest : List BufItem) (k : Fin 4), s.host.requests = [] → s.measure l = [] →
     s.holdsClaim (.intake l) = false → (s.port l).buffer = .start e row :: rest →
     claimable rest (fun a => (s.port l).cfg.slots.getLsbD a.val = true) → s.slotOf e = some k →
     (s.slot k).state = .opened → (∀ a, (s.segCal (segmentOf l a)).armed = false) →
     (∀ a, (s.port l).cfg.slots.getLsbD a.val = true → (s.slot k).entry (segmentOf l a) = .notStarted
       ∧ ∃ r, (s.segCal (segmentOf l a)).active = some r ∧ r.mismatch (s.port l).cfg = none) →
     8 ≤ s.freeTiles →
     ∃ t, exec (.readoutStart l) s = .next t ∧ (t.port l).buffer = rest ∧ (rest ≠ [] → t.holdsClaim (.intake l) = true)
       ∧ t.cal = s.cal
       ∧ (t.slot k).timer = (if (s.slot k).timer = .notStarted then .running else (s.slot k).timer)
       ∧ (∀ a, (s.port l).cfg.slots.getLsbD a.val = true → (t.slot k).entry (segmentOf l a) = .inStore
         ∧ ∃ n, (s.tile n).state = .free ∧
           t.tile n = { Tile.empty with
             state := .filling, owner := some k, exposure := e, segment := segmentOf l a
             cal := (s.segCal (segmentOf l a)).active, generation := (s.segCal (segmentOf l a)).generation
             columns := (s.port l).cfg.active, rows := (s.port l).cfg.rows, limit := (s.port l).cfg.missing
             time := ((s.port l).latch e (some (s.slot k).nominal)).time.getD 0
             temp := ((s.port l).latch e (some (s.slot k).nominal)).temp
             nominal := ((s.port l).latch e (some (s.slot k).nominal)).nominal
             warm := ((s.port l).latch e (some (s.slot k).nominal)).warm })
       ∧ (∀ n, (s.tile n).state ≠ .free → t.tile n = s.tile n) ∧ ∀ j, j ≠ k → t.slot j = s.slot j)
  ∧ (∀ (s : State) (l : Fin 12) (e row : Nat) (rest : List BufItem) (k : Fin 4) (a : Fin 8), s.host.requests = [] →
     s.measure l = [] → s.holdsClaim (.intake l) = false → (s.port l).buffer = .start e row :: rest → s.slotOf e = some k →
     (∀ b, (s.segCal (segmentOf l b)).armed = false) → (∀ b, (s.port l).cfg.slots.getLsbD b.val = true ↔ b = a) →
     let g := segmentOf l a
     let x := s.slot k
     let fits := ∃ r, (s.segCal g).active = some r ∧ r.mismatch (s.port l).cfg = none
     let begun : ExpSlot := { x with timer := if x.timer = .notStarted then .running else x.timer }
     let resolved (why : Reason) : ExpSlot := { begun with
       entries := x.entries.set g.val (.resolved why) g.isLt
       tallies := x.tallies.set why.num.val (x.tallies[why.num] + 1) why.num.isLt }
     let twice : ExpSlot := { begun with duplicates := min 65535 (x.duplicates + 1) }
     let leads (f : State → Prop) := unheld s l rest →
       ∃ t, exec (.readoutStart l) s = .next t ∧ (t.port l).buffer = later rest ∧ f t
     let quiet (y : ExpSlot) (t : State) := t.slot k = y ∧ (∀ j, j ≠ k → t.slot j = s.slot j) ∧ t.tiles = s.tiles
     (x.state = .opened →
       (x.entry g ≠ .notStarted → leads (quiet twice))
       ∧ (x.entry g = .notStarted → ¬fits → leads (quiet (resolved .noCalibration)))
       ∧ (x.entry g = .notStarted → fits → (∀ n, (s.tile n).state ≠ .free) → s.place ≠ none →
         let freezes (j : Fin 4) := (s.slot j).photo.mode = .settled ∧ (s.slot j).photo.frozen = false ∧ (s.slot j).state ≠ .free
           ∧ s.heldTiles j ≠ []
         leads fun t => { t.slot k with photo := x.photo } = resolved .storeFull
           ∧ (∀ j, freezes j → (t.slot j).photo = { (s.slot j).photo with frozen := true })
           ∧ (∀ j, ¬freezes j → (t.slot j).photo = (s.slot j).photo)
           ∧ t.tiles.queue = s.tiles.queue ++ allSlots.flatMap fun j =>
               if (s.slot j).photo.mode = .settled ∧ (s.slot j).photo.frozen = false ∧ (s.slot j).state ≠ .free then s.heldTiles j
               else []))
     ∧ (x.state ∈ [.committed, .reading, .placing] → x.timer ∈ [.notStarted, .running] →
       (∃ p ∈ x.placements, p.segment ≠ g ∧ x.entry p.segment = .notStarted) →
       (x.entry g ≠ .notStarted → leads (quiet { twice with state := .reading }))
       ∧ (x.entry g = .notStarted → x.planned g = false → leads (quiet { begun with state := .reading }))
       ∧ (x.entry g = .notStarted → x.planned g = true → ¬fits → x.photo.mode ≠ .settled →
         leads (quiet { resolved .noCalibration with state := .reading }))
       ∧ (x.entry g = .notStarted → x.planned g = true → fits → ∀ n, (s.tile n).state = .free →
         (∀ m, m < n → (s.tile m).state ≠ .free) → claimable rest (fun b => b = a) →
         ∃ t, exec (.readoutStart l) s = .next t ∧ (t.port l).buffer = rest ∧ (rest ≠ [] → t.holdsClaim (.intake l) = true)
           ∧ t.slot k = { begun with state := .reading, entries := x.entries.set g.val .inStore g.isLt }
           ∧ (t.tile n).state = .filling ∧ (t.tile n).segment = g ∧ (t.tile n).owner = some k ∧ (t.tile n).exposure = e
           ∧ (t.tile n).cal = (s.segCal g).active ∧ (t.tile n).generation = (s.segCal g).generation ∧ (t.tile n).held = []
           ∧ (∀ m, m ≠ n → t.tile m = s.tile m) ∧ ∀ j, j ≠ k → t.slot j = s.slot j)))
  ∧ (∀ (r : CalRec) (cfg : LinkConfig), r.mismatch cfg = none ↔
     r.columns = cfg.active ∧ r.rows = cfg.rows ∧ ∀ k, r.bias = .overscan k → k + 4 ≤ cfg.overscan)
  ∧ (∀ (p : Port) (e : Nat) (nominal : Option Nat),
     (∀ c, p.hk = some c → c.words.getD 1 0 = e → 1 ≤ c.words.getD 2 0 + 65536 * c.words.getD 3 0 →
       let temp := c.words.getD 4 0
       p.latch e nominal = { time := some (c.words.getD 2 0 + 65536 * c.words.getD 3 0), temp := some temp, nominal := false
                             warm := decide (temp < p.cfg.low ∨ p.cfg.high < temp) })
     ∧ ((∀ c, p.hk = some c → c.words.getD 1 0 ≠ e ∨ c.words.getD 2 0 + 65536 * c.words.getD 3 0 = 0) →
       p.latch e nominal = { time := nominal, temp := none, nominal := true, warm := false }))

/-- READOUT_END (R82 to R84) with one open tile, of an OPEN slot with no reference in the segment: within the missing-row limit the tile
is held for the plan with its missing rows counted; beyond it the tile leaves and the segment is RESOLVED ROWS. Of a committed slot that
still waits for another segment, a tile within the limit is HELD(SCALE) with its hold order where the slot is SETTLED and not frozen (R86),
and QUEUED at the tail in any other case (R87), where an idle unit takes it at once. -/
def Obligations.ReadoutEndClosesTheTile : Prop :=
  (∀ (s : State) (l : Fin 12) (n : Fin 40) (k : Fin 4), s.host.requests = [] → s.measure l = [] →
    s.holdsClaim (.intake l) = false → (s.port l).buffer = [.finish] → s.openTiles l = [n] →
    (s.tile n).owner = some k → (s.slot k).state = .opened → (s.slot k).refsFor (s.tile n).segment = [] →
    linkOf (s.tile n).segment = l →
    let missing := (s.tile n).rows - (s.tile n).received
    (missing ≤ (s.tile n).limit →
      ∃ t, exec (.readoutEnd l) s = .next t ∧ (t.port l).buffer = []
        ∧ t.tile n = { s.tile n with state := .heldPlan, missing := some missing, truncated := false }
        ∧ t.slots = s.slots ∧ ∀ m, m ≠ n → t.tile m = s.tile m)
    ∧ ((s.tile n).limit < missing → (s.slot k).entry (s.tile n).segment = .inStore →
      ∃ t, exec (.readoutEnd l) s = .next t ∧ (t.port l).buffer = [] ∧ (t.tile n).state = .free
        ∧ (t.slot k).entry (s.tile n).segment = .resolved .rows
        ∧ (t.slot k).totals.missing = min 4294967295 ((s.slot k).totals.missing + missing)
        ∧ ∀ m, m ≠ n → t.tile m = s.tile m))
  ∧ ∀ (s : State) (l : Fin 12) (n : Fin 40) (k : Fin 4), s.host.requests = [] → s.measure l = [] →
    s.holdsClaim (.intake l) = false → (s.port l).buffer = [.finish] → s.openTiles l = [n] → (s.tile n).owner = some k →
    let x := s.slot k
    let y := s.tile n
    let missing := y.rows - y.received
    x.state ∈ [.committed, .reading, .placing] → x.timer = .running → x.refsFor y.segment = [] → missing ≤ y.limit →
    (∃ p ∈ x.placements, p.segment ≠ y.segment ∧ x.entry p.segment = .notStarted
      ∧ ∀ m ∈ s.heldTiles k, (s.tile m).segment ≠ p.segment) →
    let closed : Tile := { y with missing := some missing, truncated := false }
    let settles := x.photo.mode = .settled ∧ x.photo.frozen = false
    let leads (f : State → Prop) := ∃ t, exec (.readoutEnd l) s = .next t ∧ (t.port l).buffer = []
      ∧ t.slot k = { x with state := .reading } ∧ (∀ j, j ≠ k → t.slot j = s.slot j) ∧ (∀ m, m ≠ n → t.tile m = s.tile m) ∧ f t
    (settles → leads fun t => t.tile n = { closed with state := .heldScale, holdOrder := some s.tiles.holdCounter }
      ∧ t.tiles.holdCounter = (s.tiles.holdCounter + 1) % 65536 ∧ t.tiles.holding = s.tiles.holding ++ [n]
      ∧ t.tiles.queue = s.tiles.queue)
    ∧ (¬settles → s.place ≠ none → leads fun t => t.tile n = { closed with state := .queued, holdOrder := none }
      ∧ t.tiles.queue = s.tiles.queue ++ [n] ∧ t.tiles.holdCounter = s.tiles.holdCounter)
    ∧ (¬settles → s.place = none → s.tiles.queue = [] → x.planned y.segment = true → ∀ r, y.nextHeld 0 = some r →
      leads fun t => t.tile n = { closed with state := .placing, holdOrder := none, reached := r } ∧ t.tiles.queue = []
        ∧ ∃ ctx, t.place = some ctx ∧ ctx.tile = n)

/-- INTAKE_ROW_WRITE_DONE (R66, R81) of a row's last slot row: the calibrated row stands in its tile's area, the row is held and
counted, the flagged pixels are counted, the row leaves the buffer, and no other row of any tile, no canvas pixel and no flat
changes. -/
def Obligations.IntakeWritesTheCalibratedRow : Prop :=
  ∀ (s : State) (l : Fin 12) (row : Nat) (sr : SlotRow) (n : Fin 40) (r : CalRec), s.host.requests = [] →
    s.mem.wf = true → s.store.access = some (.intake l) → s.measure l = [] → row < 2048 →
    (s.port l).buffer = [.row { index := row, slots := [sr] }] → s.fillingTile (segmentOf l sr.slot) = some n →
    (s.tile n).cal = some r → .intake l ∉ s.store.waiting →
    let x := s.tile n
    let px := sr.active.zipIdx.map fun (raw, col) =>
      r.pixel (r.biasOf sr.overscan) (match r.flat with
        | none => 16384
        | some i => s.mem.flatValue i (row * x.columns + col)) x.time row col raw
    ∃ t, exec .intakeRowWriteDone s = .next t ∧ t.mem.tileRow n row = px
      ∧ t.tile n = { x with held := x.held ++ [row], received := x.received + 1
                            saturated := min 4294967295 (x.saturated + countSaturated px)
                            defect := min 4294967295 (x.defect + countDefect px) }
      ∧ (t.port l).buffer = [] ∧ t.slots = s.slots
      ∧ (∀ (m : Fin 40) (i : Nat), i < 2048 → m ≠ n ∨ i ≠ row → t.mem.tileRow m i = s.mem.tileRow m i)
      ∧ t.mem.cells = s.mem.cells ∧ t.mem.flats = s.mem.flats ∧ ∀ m, m ≠ n → t.tile m = s.tile m

/-- REFERENCE_BOX_READ_DONE (R98, R99). The judgement of a box of read pixels: FLAGGED, then NONPOSITIVE on the exact sum rounded once,
else ACCEPTED. Before the ninth row the next row is claimed; the ninth judges the box, and the result and the measured flux stand in
the reference record (shown in an OPEN slot). Recording an accepted reference, with the quota not reached by it, counts it in the slot
and the tile, keeps its flux and moves the scale by its mode; a rejected one counts as rejected in both and moves nothing. -/
def Obligations.ReferencesAreMeasured : Prop :=
  (∀ px : List CalPixel,
     ((∃ p ∈ px, ∃ d st, p = .flagged d st) → judgeBox px = (.rejected .flagged, none))
     ∧ ∀ vs : List F32, px = vs.map .value →
       let flux := f32OfRatio ((vs.map f32Exact).sum) f32Unit
       (0 < f32Exact flux → judgeBox px = (.accepted, some flux))
       ∧ (f32Exact flux ≤ 0 → judgeBox px = (.rejected .nonpositive, some flux)))
  ∧ (∀ (s : State) (l : Fin 12) (m : Measuring) (rest : List Measuring) (i : Nat) (is : List Nat) (k : Fin 4) (ref : RefRec),
     s.host.requests = [] → s.store.access = some (.box l) → s.measure l = m :: rest → m.refs = i :: is →
     (s.tile m.tile).owner = some k → (s.slot k).refs[i]? = some ref →
     (m.boxRow < 8 → exec .referenceBoxReadDone s = .next (State.outboundGrant (State.grant (State.claim
       (State.setMeasure { s with store := { s.store with access := none } } l ({ m with boxRow := m.boxRow + 1 } :: rest)) (.box l)))))
     ∧ (m.boxRow = 8 → (s.slot k).state = .opened → i ∉ is → (∀ m' ∈ rest, i ∉ m'.refs) →
       s.openTiles l = [] →
       let px := (List.range 9).flatMap fun r => (List.range 9).map fun c =>
         s.mem.tilePixel m.tile (ref.row - 4 + r) (ref.column - 4 + c)
       ∃ t, exec .referenceBoxReadDone s = .next t
         ∧ (t.slot k).refs[i]? = some { ref with result := (judgeBox px).1, measured := (judgeBox px).2 }))
  ∧ (∀ (s : State) (n : Fin 40) (k : Fin 4) (i : Nat) (ref : RefRec), (s.slot k).refs[i]? = some ref →
     let x := s.slot k
     (∀ f, x.photo.accepted + 1 ≠ x.photo.quota → s.recordRef n k i .accepted (some f) =
       (s.setSlot k { x with
         refs := x.refs.set i { ref with result := .accepted, measured := some f }
         photo := x.photo.accept ref.expected f }).modTile n fun y => { y with accepted := y.accepted + 1 })
     ∧ ∀ (why : RejectReason) (f : Option F32), s.recordRef n k i (.rejected why) f =
       (s.setSlot k { x with
         refs := x.refs.set i { ref with result := .rejected why, measured := f }
         photo := { x.photo with rejected := x.photo.rejected + 1 } }).modTile n fun y => { y with rejected := y.rejected + 1 })

/-! ## Placement -/

/-- R113. The effective weight: the weight, or for a WARM tile the weight times the warm factor rounded to the nearest sixteenth, a tie
to the larger, and never below one sixteenth; between 1/16 and 15.9375 for a weight in that range and a factor up to 1. -/
def Obligations.WarmTilesWeighLess : Prop :=
  ∀ weight factor : Nat, 1 ≤ weight → weight ≤ 255 → 1 ≤ factor → factor ≤ 16 →
    effectiveWeight false weight factor = weight
    ∧ (effectiveWeight true weight factor : Int) = max 1 ⌊(weight : ℚ) / 16 * (factor / 16) * 16 + 1 / 2⌋
    ∧ 1 ≤ effectiveWeight true weight factor ∧ effectiveWeight true weight factor ≤ 255

/-- R114. The mapping: the exact position, the nearest canvas pixel with a tie to the higher on either side of 0, the span of the
canvas, and the cell and the place within it. -/
def Obligations.PixelsMapToTheNearestCanvasPixel : Prop :=
  (∀ (p : Placement) (c r : Nat),
    let x : ℚ := ((p.anchorX : ℚ) * 256 + c * p.colX + r * p.rowX) / 65536
    let y : ℚ := ((p.anchorY : ℚ) * 256 + c * p.colY + r * p.rowY) / 65536
    let X := (p.pixel c r).1
    let Y := (p.pixel c r).2
    (X : ℚ) - 1 / 2 ≤ x ∧ x < (X : ℚ) + 1 / 2 ∧ (Y : ℚ) - 1 / 2 ≤ y ∧ y < (Y : ℚ) + 1 / 2)
  ∧ (∀ (w h X Y : Nat), X < 256 * w → Y < 256 * h →
    canvasTarget w h ((X : Int), (Y : Int)) = some ((Y / 256) * w + X / 256, (Y - 256 * (Y / 256)) * 256 + (X - 256 * (X / 256))))
  ∧ (∀ (w h : Nat) (X Y : Int), X < 0 ∨ 256 * w ≤ X ∨ Y < 0 ∨ 256 * h ≤ Y → canvasTarget w h (X, Y) = none)
  ∧ nearestPixel (-32768) = 0 ∧ nearestPixel (254 * 65536 + 32768) = 255

/-- R119, R120. A value adds its weight up to the ceiling, its flux by the weight added, and one to the count up to 255; a flagged pixel
sets its HIT flags alone; a flag set stays set. -/
def Obligations.PixelsAddToTheirTarget : Prop :=
  ∀ (ctx : PlaceCtx) (p : CanvasPixel), p.weight ≤ 65535 →
    (∀ v : F32, let a := min ctx.weight (65535 - p.weight)
      ctx.mark (.value v) p =
        { p with flux := f32OfRatio (f32Exact p.flux * 65536 + f32Exact v * ctx.scale * a) (65536 * f32Unit)
                 weight := p.weight + a, count := min 255 (p.count + 1)
                 warm := p.warm || ctx.warm, nominal := p.nominal || ctx.nominal })
    ∧ (∀ d st, ctx.mark (.flagged d st) p = { p with defect := p.defect || d, saturated := p.saturated || st })
    ∧ ∀ px, (ctx.mark px p).weight ≤ 65535

/-- R118, R125. The judgement of one pixel of the row in hand: late when the canvas has ended; a spill outside the canvas or in a cell
the list leaves out; late in a named cell that is not PENDING, counted in the tile and the cell; otherwise its target, and no other
canvas pixel, takes it. -/
def Obligations.EachPixelIsJudgedOnce : Prop :=
  ∀ (s : State) (ctx : PlaceCtx) (col : Nat),
    let spill := s.modTile ctx.tile fun x => { x with spill := min 4294967295 (x.spill + 1) }
    let late (u : State) := u.modTile ctx.tile fun x => { x with late := min 4294967295 (x.late + 1) }
    let tgt := ctx.target col ctx.row
    (ctx.ended = true → s.judgePixel ctx col = late s)
    ∧ (ctx.ended = false → tgt = none → s.judgePixel ctx col = spill)
    ∧ (ctx.ended = false → ∀ i place, tgt = some (i, place) → i ∉ ctx.plan.cells → s.judgePixel ctx col = spill)
    ∧ (ctx.ended = false → ∀ i place c, tgt = some (i, place) → i ∈ ctx.plan.cells → s.cell? i = some c → c.state ≠ .pending →
        s.judgePixel ctx col = late (s.setCell i { c with late := min 4294967295 (c.late + 1) }))
    ∧ (ctx.ended = false → ∀ i place c, tgt = some (i, place) → i ∈ ctx.plan.cells → s.cell? i = some c → c.state = .pending →
        s.mem.wf = true →
        ∃ m, s.judgePixel ctx col = { s with mem := m }
          ∧ m.canvasPixel i place = ctx.mark (s.mem.tilePixel ctx.tile ctx.row col) (s.mem.canvasPixel i place)
          ∧ (∀ j q, cellKey j q ≠ cellKey i place → m.canvasPixel j q = s.mem.canvasPixel j q)
          ∧ m.tileRows = s.mem.tileRows ∧ m.flats = s.mem.flats)

/-- TILE_TAKE (R87, R109, R112, R113, R116): the idle unit takes the head of the queue, which becomes PLACING, with its plan, the scale
and the warm factor of this moment, the effective weight and the canvas's size; rows before the first held one are passed over, and
that row waits for the named, targeted cells that are PENDING and not zeroed, or claims its access. -/
def Obligations.TileTakeFormsThePlacementContext : Prop :=
  ∀ (s : State) (n : Fin 40) (rest : List (Fin 40)) (k : Fin 4) (p : Placement) (r : Nat), s.host.requests = [] →
    s.place = none → s.tiles.queue = n :: rest → (s.tile n).owner = some k →
    (s.slot k).placementFor (s.tile n).segment = some p → s.canvas.state ≠ .idle → (s.tile n).nextHeld 0 = some r →
    let x := s.tile n
    let factor := (s.port (linkOf x.segment)).cfg.warm
    ∃ t ctx, exec .tileTake s = .next t ∧ t.place = some ctx ∧ ctx.tile = n ∧ ctx.plan = p
      ∧ ctx.scale = (s.slot k).photo.scale ∧ ctx.warmFactor = factor ∧ ctx.weight = effectiveWeight x.warm p.weight factor
      ∧ ctx.warm = x.warm ∧ ctx.nominal = x.nominal ∧ ctx.width = s.canvas.width ∧ ctx.height = s.canvas.height
      ∧ ctx.row = r ∧ ctx.ended = false ∧ ctx.stop = false
      ∧ (∀ i, i ∈ ctx.waitSet ↔ i ∈ p.cells ∧ (∃ c, s.cell? i = some c ∧ c.state = .pending ∧ c.zeroed = false)
          ∧ ∃ col, col < x.columns ∧ ∃ place, ctx.target col r = some (i, place))
      ∧ (ctx.phase = .waitingZero ↔ ctx.waitSet ≠ [])
      ∧ (ctx.waitSet = [] → t.holdsClaim .placement = true)
      ∧ t.tile n = { x with state := .placing, reached := r } ∧ t.tiles.queue = rest ∧ t.slots = s.slots ∧ t.mem = s.mem

/-- PLACEMENT_ROW_DONE (R118, R122, R124). The row is judged and done. With held rows left the next is begun; after the last one the tile
leaves the store and its segment is RESOLVED PLACED (shown for a slot with another tile in the store and no freeze to check); a tile
to be stopped leaves the store at this row. -/
def Obligations.RowsCompleteAndTilesLeave : Prop :=
  ∀ (s : State) (ctx : PlaceCtx), s.host.requests = [] → s.place = some ctx → ctx.phase = .inFlight →
    s.store.access = some .placement → s.tiles.queue = [] →
    let u := State.judgeRow { s with store := { s.store with access := none } } ctx
    let x := u.tile ctx.tile
    (∀ r, ctx.stop = false → x.nextHeld (ctx.row + 1) = some r →
      ∃ t c, exec .placementRowDone s = .next t ∧ t.place = some c ∧ c.row = r ∧ c.tile = ctx.tile ∧ c.plan = ctx.plan
        ∧ c.scale = ctx.scale ∧ c.weight = ctx.weight ∧ t.mem = u.mem ∧ t.tile ctx.tile = { x with reached := r }
        ∧ t.slots = s.slots)
    ∧ (∀ k, ctx.stop = false → x.nextHeld (ctx.row + 1) = none → x.owner = some k → (s.slot k).isCommitted = true →
        (s.slot k).photo.mode ≠ .settled → (s.slot k).entry x.segment = .inStore →
        (∃ m, m ≠ ctx.tile ∧ m ∈ s.tilesOf k) →
      ∃ t, exec .placementRowDone s = .next t ∧ t.place = none ∧ t.mem = u.mem ∧ (t.tile ctx.tile).state = .free
        ∧ (t.slot k).entry x.segment = .resolved .placed
        ∧ (t.slot k).totals = (s.slot k).totals.add { x with reached := x.rows })
    ∧ (ctx.stop = true → x.state = .placing →
      ∃ t, exec .placementRowDone s = .next t ∧ t.place = none ∧ t.mem = u.mem ∧ (t.tile ctx.tile).state = .free)

/-! ## Canvas -/

/-- CANVAS_OPEN (R138, R139): the checks in order, and the canvas an accepted one opens; nothing else changes. -/
def Obligations.CanvasOpenBeginsACanvas : Prop :=
  ∀ (s : State) (tag : Byte) (w h order : Nat), s.Ready →
    let fields := 1 ≤ w ∧ w ≤ 32 ∧ 1 ≤ h ∧ h ≤ 32 ∧ order ≤ 1
    let busy := s.canvas.state ≠ .idle ∨ (∃ k, (s.slot k).state ≠ .free) ∨ s.drain.state ≠ .idle
    let answer := exec (.canvasOpen tag w h order) s
    (¬fields → answer = .next (s.turnedAway tag 0x18 .badField))
    ∧ (fields → busy → answer = .next (s.turnedAway tag 0x18 .busy))
    ∧ (fields → ¬busy → answer = .next (State.answered { s with canvas :=
        { state := .gathering, width := w, height := h, order := if order = 0 then .ordered else .arrival
          commits := 0, released := 0
          cells := List.replicate (w * h) { state := .untouched, owed := 0, resolved := 0, placed := 0, writtenOff := 0, late := 0,
                                            forced := false, zeroed := false } } } tag 0x18 (code16 (w * h))))

/-- CANVAS_CLOSE (R140, R141) and the finish test (R145, R146): the refusals; then every UNTOUCHED cell is EXEMPT, every PENDING one
with nothing owed COMPLETE and in the drain queue in index order, and the finish test follows: a CLOSED canvas with every cell
DRAINED or EXEMPT raises CANVAS_DONE and is IDLE, and any other is left. -/
def Obligations.CanvasCloseSortsTheCells : Prop :=
  (∀ (s : State) (tag : Byte), s.Ready →
    let ripe (c : Cell) : Bool := decide (c.state = .pending ∧ c.owed = 0)
    let n (f : Cell → Bool) := code16 (s.canvas.cells.countP f)
    let answer := exec (.canvasClose tag) s
    (s.canvas.state ≠ .gathering → answer = .next (s.turnedAway tag 0x19 .wrongState))
    ∧ (s.canvas.state = .gathering → (∃ k, (s.slot k).state = .opened) → answer = .next (s.turnedAway tag 0x19 .planPending))
    ∧ (s.canvas.state = .gathering → (∀ k, (s.slot k).state ≠ .opened) →
      ∃ u : State, u.canvas = { s.canvas with
          state := .closed
          cells := s.canvas.cells.map fun c =>
            { c with state := if c.state = .untouched then .exempt else if ripe c then .complete else c.state } }
        ∧ u.drain = { s.drain with
          queue := s.drain.queue ++ (List.range s.canvas.cells.length).filter fun i =>
            match s.canvas.cells[i]? with
            | some c => ripe c
            | none => false }
        ∧ { u with canvas := s.canvas, drain := s.drain, place := s.place, store := s.store } = s
        ∧ answer = .next (State.answered u.finishTest.settle tag 0x19
          (n (fun c => decide (c.state = .untouched)) ++ n ripe ++ n fun c => decide (c.state = .pending ∧ c.owed ≠ 0)))))
  ∧ ∀ u : State,
    let c := u.canvas
    let finished := c.state = .closed ∧ ∀ x ∈ c.cells, x.state = .drained ∨ x.state = .exempt
    let sum (f : Cell → Nat) := c.cells.foldl (fun acc x => min 4294967295 (acc + f x)) 0
    (¬finished → u.finishTest = u)
    ∧ (finished → u.finishTest.canvas = .idle
      ∧ u.finishTest.host = u.host.raise .canvasDone
          (code8 0 ++ code8 c.width ++ code8 c.height ++ code8 (match c.order with | .ordered => 0 | .arrival => 1) ++ code16 c.commits
            ++ code16 c.released
            ++ [CellState.untouched, .pending, .complete, .draining, .drained, .exempt].flatMap
                (fun st => code16 (c.cells.countP fun x => decide (x.state = st)))
            ++ code32 (sum Cell.placed) ++ code32 (sum Cell.writtenOff) ++ code32 (sum Cell.late) ++ code8 0)
      ∧ u.finishTest.slots = u.slots ∧ u.finishTest.tiles = u.tiles ∧ u.finishTest.drain = u.drain ∧ u.finishTest.mem = u.mem
      ∧ (∀ ctx, u.finishTest.place = some ctx → ctx.ended = true))

/-- CELL_RELEASE (R142): the checks in order, and what a release does to a cell by its state. The answer gives COMPLETE as the state after
also where the drain takes the cell in the same event (log 21). -/
def Obligations.CellReleaseForcesPendingCells : Prop :=
  ∀ (s : State) (tag : Byte) (i : Nat), s.Ready → s.TableShaped →
    let answer := exec (.cellRelease tag i) s
    (1023 < i → answer = .next (s.turnedAway tag 0x1A .badField))
    ∧ (i ≤ 1023 → s.canvas.state = .idle → answer = .next (s.turnedAway tag 0x1A .wrongState))
    ∧ (i ≤ 1023 → s.canvas.state ≠ .idle → s.canvas.width * s.canvas.height ≤ i →
        answer = .next (s.turnedAway tag 0x1A .badField))
    ∧ ∀ c, i ≤ 1023 → s.canvas.state ≠ .idle → s.cell? i = some c →
      (c.state = .pending →
        ∃ u : State, u.canvas = { s.canvas with
            cells := s.canvas.cells.set i { c with state := .complete, owed := 0, forced := true }
            released := s.canvas.released + 1 }
          ∧ u.drain = { s.drain with queue := s.drain.queue ++ [i] }
          ∧ { u with canvas := s.canvas, drain := s.drain, place := s.place, store := s.store } = s
          ∧ answer = .next (State.answered u.settle tag 0x1A (code8 1 ++ code8 2 ++ code8 c.owed)))
      ∧ (c.state = .untouched → answer = .next (State.answered
          (State.settle { s with canvas := { s.canvas with cells := s.canvas.cells.set i { c with state := .exempt } } })
          tag 0x1A (code8 0 ++ code8 5 ++ code8 0)))
      ∧ (c.state ∈ [.complete, .draining, .drained, .exempt] →
          answer = .next (s.answered tag 0x1A (code8 c.state.code ++ code8 c.state.code ++ code8 0)))

/-- CANVAS_ABANDON (R147, R148, R162): refused in IDLE; otherwise the canvas is IDLE with no cell table, every exposure slot is FREE,
the drain queue is empty, the drain unit is stopped by its state with its hold flag kept, and a placement still in progress writes
no more. Every slot non-FREE at the acceptance is abandoned and counted, none finishes, and the carry scale stays (log 42); each raises
EXPOSURE_DONE(ABANDONED) in slot order, before CANVAS_DONE (shown for OPEN slots with no tile). Every tile that is not PLACING leaves the
store; a PLACING one is detached, with the stop flag where its row is in flight, and is stopped at once where it is not. -/
def Obligations.CanvasAbandonEndsTheCanvas : Prop :=
  ∀ (s : State) (tag : Byte), s.Ready →
    let answer := exec (.canvasAbandon tag) s
    let d := s.drain
    let live := allSlots.filter fun k => decide ((s.slot k).state ≠ .free)
    (s.canvas.state = .idle → answer = .next (s.turnedAway tag 0x1C .wrongState))
    ∧ (s.canvas.state ≠ .idle → ∃ u : State, answer = .next (State.answered u tag 0x1C (code8 live.length))
      ∧ u.canvas = .idle ∧ (∀ k, (u.slot k).state = .free) ∧ u.drain.queue = [] ∧ u.drain.hold = d.hold
      ∧ (d.state ∈ [.idle, .offered, .stopped] → u.drain.state = .idle)
      ∧ (d.state = .reading → s.store.access ≠ some .drainRead → u.drain.state = .idle ∧ u.holdsClaim .drainRead = false)
      ∧ (d.state = .sending ∨ (d.state = .reading ∧ s.store.access = some .drainRead) →
          u.drain = { d with queue := [], ended := true })
      ∧ (∀ ctx, u.place = some ctx → ctx.ended = true)
      ∧ u.carry = s.carry
      ∧ (∀ m k, (s.tile m).owner = some k → (s.slot k).state ≠ .free → (s.tile m).state ≠ .placing → (s.tile m).state ≠ .free →
          (u.tile m).state = .free)
      ∧ (∀ ctx k, s.place = some ctx → (s.tile ctx.tile).owner = some k → (s.tile ctx.tile).state = .placing →
          (∀ l, s.measure l = []) → (∀ m, (s.tile m).state ≠ .free → ∃ j, (s.tile m).owner = some j ∧ (s.slot j).state ≠ .free) →
          (ctx.phase = .inFlight → u.place = some { ctx with stop := true, ended := true }
            ∧ u.tile ctx.tile = { s.tile ctx.tile with owner := none })
          ∧ (ctx.phase ≠ .inFlight → u.place = none ∧ (u.tile ctx.tile).state = .free ∧ u.holdsClaim .placement = false))
      ∧ ((∀ k, s.tilesOf k = []) → (∀ k, (s.slot k).state ∈ [.free, .opened]) → (∀ k g, (s.slot k).entry g ≠ .inStore) →
          d.state = .idle →
          u.host = (live.foldl (fun h k => h.raise .exposureDone ((s.slot k).doneContent k .abandoned)) s.host).raise .canvasDone
            (s.canvas.doneContent (some live.length)))
      ∧ u.mem = s.mem ∧ u.store.zeroQueue = s.store.zeroQueue ∧ u.flats = s.flats)

/-! ## Drain -/

/-- DRAIN_HOLD and DRAIN_RESUME (R160, R161) in every unit state: the flag, what becomes of a waiting claim or an offered block, the
claim made again, and the answer with the unit state after and the flag before. -/
def Obligations.HoldAndResumeStopAndStartTheDrain : Prop :=
  ∀ (s : State) (tag : Byte), s.Ready →
    let d := s.drain
    let held := exec (.drainHold tag) s
    let resumed := exec (.drainResume tag) s
    (d.hold = true → held = .next (s.answered tag 0x1D (code8 d.state.code ++ code8 1)))
    ∧ (d.hold = false → d.state ∈ [.idle, .sending, .stopped] ∨ (d.state = .reading ∧ s.store.access = some .drainRead) →
        held = .next (State.answered { s with drain := { d with hold := true } } tag 0x1D (code8 d.state.code ++ code8 0)))
    ∧ (d.hold = false → d.state = .reading → s.store.access ≠ some .drainRead →
        held = .next (State.answered
          (State.grant (State.withdraw { s with drain := { d with hold := true, state := .stopped } } .drainRead))
          tag 0x1D (code8 4 ++ code8 0)))
    ∧ (d.hold = false → d.state = .offered →
        held = .next (State.answered
          (State.removeSource { s with drain := { d with hold := true, state := .stopped, formed := none } } .blocks)
          tag 0x1D (code8 4 ++ code8 0)))
    ∧ (d.hold = false → resumed = .next (s.answered tag 0x1E (code8 d.state.code ++ code8 0)))
    ∧ (d.hold = true → d.state ∈ [.reading, .offered, .sending] →
        resumed = .next (State.answered { s with drain := { d with hold := false } } tag 0x1E (code8 d.state.code ++ code8 1)))
    ∧ (d.hold = true → d.state = .stopped →
        resumed = .next (State.answered
          (State.grant (State.claim { s with drain := { d with hold := false, state := .reading } } .drainRead))
          tag 0x1E (code8 1 ++ code8 1)))
    ∧ (d.hold = true → d.state = .idle →
        let u := State.settle { s with drain := { d with hold := false } }
        resumed = .next (State.answered u tag 0x1E (code8 u.drain.state.code ++ code8 1)))

/-- DRAIN_TAKE (R152 to R155). The idle, unheld drain of an open canvas takes, with the store READY, the head of the queue in ARRIVAL
order, or the lowest cell neither DRAINED nor EXEMPT in ORDERED order, if it is COMPLETE there and zeroed: the cell is DRAINING and out
of the queue, and block 1 is claimed. Otherwise no cell is taken. -/
def Obligations.DrainTakesTheCellItsOrderNames : Prop :=
  ∀ s : State, s.host.requests = [] →
    let d := s.drain
    let ready := d.state = .idle ∧ d.hold = false ∧ s.canvas.state ≠ .idle ∧ s.store.state = .ready
    let taken (i : Nat) (c : Cell) := Host.Outcome.next (State.outboundGrant (State.grant (State.claim
      { s with
        canvas := { s.canvas with cells := s.canvas.cells.set i { c with state := .draining } }
        drain := { d with state := .reading, cell := i, block := 1, queue := d.queue.filter fun j => decide (j ≠ i) } }
      .drainRead)))
    let left := Host.Outcome.next (State.outboundGrant s.grant)
    let passed (i : Nat) := ∀ j, j < i → ∃ c, s.cell? j = some c ∧ (c.state = .drained ∨ c.state = .exempt)
    (¬ready → exec .drainTake s = left)
    ∧ (ready → s.canvas.order = .arrival →
      (d.queue = [] → exec .drainTake s = left)
      ∧ ∀ i rest c, d.queue = i :: rest → s.cell? i = some c →
          (c.zeroed = true → exec .drainTake s = taken i c) ∧ (c.zeroed = false → exec .drainTake s = left))
    ∧ (ready → s.canvas.order = .ordered →
      (passed s.canvas.cells.length → exec .drainTake s = left)
      ∧ ∀ i c, passed i → s.cell? i = some c → c.state ≠ .drained → c.state ≠ .exempt →
          (c.state = .complete → c.zeroed = true → exec .drainTake s = taken i c)
          ∧ (c.state ≠ .complete ∨ c.zeroed = false → exec .drainTake s = left))

/-- DRAIN_BLOCK_READ_DONE (R156, R157, R160, R162). The completed read forms the block and offers it; with the hold flag set no block is
formed and the unit is STOPPED; a read whose canvas was abandoned leaves the unit IDLE. An output pixel is the weighted mean, the sums
and the flags of its canvas pixel. -/
def Obligations.BlockReadsFormBlocks : Prop :=
  (∀ s : State, s.host.requests = [] → s.store.access = some .drainRead →
    let d := s.drain
    let after (e : Drain) : State := { s with store := { s.store with access := none }, drain := e }
    (d.ended = true → exec .drainBlockReadDone s = .next (State.outboundGrant (State.settle (after { Drain.reset with hold := d.hold }))))
    ∧ (d.ended = false → d.hold = true →
        exec .drainBlockReadDone s = .next (State.outboundGrant (State.grant (after { d with state := .stopped }))))
    ∧ (d.ended = false → d.hold = false → ∃ b : Block, b.cell = d.cell ∧ b.number = d.block ∧ (b.last = true ↔ d.block = 16)
        ∧ (∀ c, s.cell? d.cell = some c → b.forced = c.forced) ∧ b.pixels.length = 4096
        ∧ (∀ i, i < 4096 → b.pixels[i]? = some (s.mem.canvasPixel d.cell ((d.block - 1) * 4096 + i)).output)
        ∧ exec .drainBlockReadDone s
          = .next (State.outboundGrant (State.grant (after { d with state := .offered, formed := some b })))))
  ∧ ∀ p : CanvasPixel, p.output =
    { mean := if p.weight = 0 then 0 else f32OfRatio (f32Exact p.flux * 16) (p.weight * f32Unit)
      weight := p.weight, count := p.count, defect := p.defect, saturated := p.saturated, warm := p.warm, nominal := p.nominal
      empty := decide (p.count = 0) }

/-- PICTURE_BLOCK_EMITTED (R158, R162, R163). Before block 16 the next block is claimed, or the held unit is STOPPED at it; after block
16 the cell is DRAINED, the unit IDLE, and the finish test and the next take follow; after an abandonment the unit becomes IDLE, and
after a general clear only the line is freed. -/
def Obligations.EmittedBlocksMoveTheDrainOn : Prop :=
  ∀ (s : State) (b : Block), s.host.requests = [] → s.host.line = some (.block b) →
    let d := s.drain
    let after (e : Drain) : State := { s with host := { s.host with line := none }, drain := e }
    let next (u : State) := exec .pictureBlockEmitted s = .next u.outboundGrant
    (d.state ≠ .sending → next (after d))
    ∧ (d.state = .sending → d.ended = true → next (State.settle (after { Drain.reset with hold := d.hold })))
    ∧ (d.state = .sending → d.ended = false → d.block ≠ 16 → d.hold = true →
        next (State.grant (after { d with state := .stopped, block := d.block + 1, formed := none })))
    ∧ (d.state = .sending → d.ended = false → d.block ≠ 16 → d.hold = false →
        next (State.grant (State.claim (after { d with state := .reading, block := d.block + 1, formed := none }) .drainRead)))
    ∧ (d.state = .sending → d.ended = false → d.block = 16 → ∀ c, s.cell? d.cell = some c →
        next (State.settle (State.finishTest (State.setCell
          (after { d with state := .idle, cell := 0, block := 0, formed := none }) d.cell { c with state := .drained }))))

/-! ## Canvas store and the general clear -/

/-- ZEROING_DONE (R134, R170, R117). The head job's area is cleared, the job leaves the queue and the next is claimed; a PENDING or
COMPLETE cell of that index is zeroed and any other is left; and a row that waited on the cell waits on it no more. -/
def Obligations.ZeroingClearsTheHeadCell : Prop :=
  ∀ (s : State) (i : Nat) (rest : List Nat), s.host.requests = [] → s.store.access = some .zeroing →
    s.store.zeroQueue = i :: rest →
    ∃ t, exec .zeroingDone s = .next t ∧ t.store.zeroQueue = rest ∧ (rest ≠ [] → t.holdsClaim .zeroing = true)
      ∧ (∀ q, q < 65536 → t.mem.canvasPixel i q = { flux := 0, weight := 0, count := 0, defect := false, saturated := false,
                                                     warm := false, nominal := false })
      ∧ (∀ j q, j ≠ i → q < 65536 → t.mem.canvasPixel j q = s.mem.canvasPixel j q)
      ∧ t.mem.tileRows = s.mem.tileRows ∧ t.mem.flats = s.mem.flats
      ∧ (∀ c, s.cell? i = some c → c.state = .pending ∨ c.state = .complete → ∃ e, t.cell? i = some e ∧ e.zeroed = true)
      ∧ (∀ c, s.cell? i = some c → c.state ≠ .pending → c.state ≠ .complete → ∃ e, t.cell? i = some e ∧ e.zeroed = c.zeroed)
      ∧ (∀ ctx, s.place = some ctx → ctx.phase = .waitingZero →
          ∃ e, t.place = some e ∧ e.tile = ctx.tile ∧ e.row = ctx.row
            ∧ (i ∈ ctx.waitSet → e.waitSet = ctx.waitSet.filter fun j => decide (j ≠ i))
            ∧ (ctx.waitSet = [i] → t.holdsClaim .placement = true))
      ∧ t.tiles = s.tiles ∧ t.slots = s.slots ∧ t.ports = s.ports ∧ t.cal = s.cal

/-- MEMORY_GRANT (R167, R168), REFRESH_DONE and REFRESH_INTERVAL_EXPIRY (R169). The order of the grant: a forced refresh, the longest
waiting intake row write, the first kind of the rotation with a claim waiting, an owed refresh; the owed count and the late count. -/
def Obligations.MemoryIsGrantedInOrder : Prop :=
  ∀ s : State,
    let st := s.store
    let granted (c : Claim) (rotation : List RotKind) := ∃ t, exec .memoryGrant s = .next t
      ∧ t.store = { st with access := some c, waiting := st.waiting.filter (fun x => decide (x ≠ c)), rotation := rotation }
      ∧ { t with store := s.store, place := s.place } = s
      ∧ (s.place = none → t.place = none)
      ∧ ∀ ctx, s.place = some ctx → t.place = some { ctx with
          phase := if c = .placement ∧ ctx.phase = .claiming then .inFlight else ctx.phase }
    (st.state = .ready → st.access = none →
      (6 ≤ st.owed → granted .refresh st.rotation)
      ∧ (∀ before l after, st.owed < 6 → st.waiting = before ++ Claim.intake l :: after → (∀ m, Claim.intake m ∉ before) →
          granted (.intake l) st.rotation)
      ∧ (∀ earlier k later before c after, st.owed < 6 → (∀ m, Claim.intake m ∉ st.waiting) →
          st.rotation = earlier ++ k :: later → (∀ x ∈ st.waiting, ∀ j ∈ earlier, x.rotKind ≠ some j) →
          st.waiting = before ++ c :: after → c.rotKind = some k → (∀ x ∈ before, x.rotKind ≠ some k) →
          granted c (st.rotation.filter (fun x => decide (x ≠ k)) ++ [k]))
      ∧ (st.waiting = [] → 0 < st.owed → granted .refresh st.rotation)
      ∧ (st.waiting = [] → st.owed = 0 → exec .memoryGrant s = .next s))
    ∧ (st.state ≠ .ready → st.access = none → exec .memoryGrant s = .next s)
    ∧ (st.access = some .refresh → exec .refreshDone s
        = .next (State.grant { s with store := { st with access := none, owed := st.owed - 1 } }))
    ∧ (s.host.requests = [] → st.state = .ready → st.interval = true →
      (st.owed < 6 → exec .refreshIntervalExpiry s
        = .next (State.outboundGrant (State.grant { s with store := { st with owed := st.owed + 1 } })))
      ∧ (6 ≤ st.owed →
          let late := min 4294967295 (st.late + 1)
          exec .refreshIntervalExpiry s = .next (State.outboundGrant
            (State.raise { s with store := { st with late := late } } .storeFault (code8 0 ++ code32 late)))))

/-- INIT_COMPLETE and WAKE_COMPLETE (R165, R166, R172): the store is READY with its interval running, READY is raised with its cause
and the owed count, the zeroing head is claimed, and the ports in DOWN with signal wake. -/
def Obligations.StoreBecomesReady : Prop :=
  ∀ s : State, s.host.requests = [] →
    let ready (c : Instr) (cause : Nat) := ∃ u : State, exec c s = .next u.outboundGrant
      ∧ u.store.state = .ready ∧ u.store.interval = true ∧ u.store.owed = s.store.owed ∧ u.store.late = s.store.late
      ∧ (s.store.zeroQueue ≠ [] → u.holdsClaim .zeroing = true)
      ∧ (∀ l, u.port l = if (s.port l).state = .down ∧ (s.port l).signal = true then
            { (s.port l).woken with state := .waking, reason := none } else s.port l)
      ∧ (s.host.masked .ready = false → s.host.notices = [] →
          u.host.notices.head? = some { kind := .ready, content := code8 cause ++ code8 s.store.owed, folded := 1 })
      ∧ s.LinkFrame u
    (s.store.state = .initialising → ready .initComplete 0) ∧ (s.store.state = .waking → ready .wakeComplete 1)

/-- PARK (R171, R21) and UNPARK (R172): what holds PARK back; the parked store with its interval stopped, its zeroing and refresh
withdrawn and its owed count kept, and every port that is not OFF in DOWN with nothing open; and the waking that UNPARK begins. That a
zeroing claim which only waits is withdrawn too is log 29's reading. -/
def Obligations.ParkAndUnpark : Prop :=
  ∀ (s : State) (tag : Byte),
    let busy := (∃ k, (s.slot k).state ≠ .free) ∨ (∃ n, (s.tile n).state ≠ .free) ∨ (∃ c ∈ s.canvas.cells, c.state = .draining)
      ∨ (∃ i, (s.flat i).state = .loading) ∨ s.drain.state ≠ .idle
    (s.Ready → busy → exec (.park tag) s = .next (s.turnedAway tag 0x1F .busy))
    ∧ (s.Ready → ¬busy → ∃ u : State, exec (.park tag) s = .next (State.answered u tag 0x1F [])
      ∧ u.store.state = .parked ∧ u.store.interval = false ∧ u.store.owed = s.store.owed
      ∧ u.store.zeroQueue = s.store.zeroQueue ∧ u.holdsClaim .zeroing = false ∧ u.holdsClaim .refresh = false
      ∧ (∀ l, (s.port l).state = .off → u.port l = s.port l)
      ∧ (∀ l, (s.port l).state ≠ .off → (u.port l).state = .down ∧ (u.port l).buffer = [] ∧ (u.port l).ctx = none
          ∧ (u.port l).hkPart = [] ∧ (u.port l).wakeLimit = false ∧ (u.port l).relay.phase = .idle
          ∧ (u.port l).cfg = (s.port l).cfg ∧ (u.port l).hk = (s.port l).hk ∧ (u.port l).good = (s.port l).good)
      ∧ u.canvas = s.canvas ∧ u.drain = s.drain ∧ u.slots = s.slots ∧ u.tiles = s.tiles ∧ u.cal = s.cal ∧ u.flats = s.flats
      ∧ u.mem = s.mem)
    ∧ (s.host.requests = [] → s.host.handlerFree = true → s.store.state = .parked →
        exec (.unpark tag) s = .next (State.answered { s with store := { s.store with state := .waking } } tag 0x20 []))
    ∧ (s.Ready → exec (.unpark tag) s = .next (s.turnedAway tag 0x20 .wrongState))

/-- CLEAR and the clear sequence (R22, R55, R77, R94, R127, R149, R163, R173, R176, R184, R185): who makes the clear, and what every
block holds after it. CLEAR is refused while the store is INITIALISING or WAKING; the clear sequence never is. -/
def Obligations.GeneralClearResetsEveryBlock : Prop :=
  (∀ (s : State) (tag : Byte), s.host.requests = [] →
    (s.host.handlerFree = true → s.store.state = .ready ∨ s.store.state = .parked →
      exec (.clear tag) s = .next (State.outboundGrant (s.generalClear (some tag))))
    ∧ (s.host.handlerFree = true → s.store.state = .initialising ∨ s.store.state = .waking →
      exec (.clear tag) s = .next (s.turnedAway tag 0x23 .notReady))
    ∧ exec .clearSequence s = .next (State.outboundGrant (State.generalClear { s with host := { s.host with rx := .hunting } } none))
    ∧ (s.host.rx = .hunting →
      exec (.hostFrame [0x7D, 0xC1, 0x7D, 0xC1, 0x7D, 0xC1, 0x7D, 0xC1]) s = exec .clearSequence s))
  ∧ ∀ (s : State) (source : Option Byte),
    let t := s.generalClear source
    let content := (match source with | some tag => [0, 1, tag] | none => [1, 0]) ++ code8 t.store.state.code
    (∀ l,
      let p := s.port l
      let q := t.port l
      q.state = (if p.state = .off then .off else if p.signal = true ∧ s.store.state = .ready then .waking else .down)
      ∧ q.reason = none ∧ q.goodRun = 0 ∧ q.badRun = 0 ∧ q.buffer = [] ∧ q.ctx = none ∧ q.hkPart = [] ∧ q.hk = none
      ∧ q.good = 0 ∧ q.bad = 0 ∧ q.stale = 0 ∧ q.overflow = 0 ∧ q.capture = none ∧ q.cfg = p.cfg ∧ q.tap = p.tap
      ∧ q.relay.phase = .idle ∧ q.relay.number = 0 ∧ q.relay.acked = 0 ∧ q.relay.reply = [] ∧ q.relay.abortOwed = false)
    ∧ (∀ g, t.segCal g = { s.segCal g with active := none, armed := false })
    ∧ (∀ i, (s.flat i).state ≠ .loading → t.flat i = s.flat i) ∧ (∀ i, (s.flat i).state = .loading → (t.flat i).state = .empty)
    ∧ (∀ k, (t.slot k).state = .free) ∧ t.carry = 4096 ∧ (∀ n, (t.tile n).state = .free) ∧ t.tiles.queue = []
    ∧ t.tiles.holdCounter = 0 ∧ t.place = none ∧ t.canvas = .idle
    ∧ t.drain.state = .idle ∧ t.drain.hold = false ∧ t.drain.queue = [] ∧ t.mem = s.mem
    ∧ t.store.state = (if s.store.state = .parked then .waking else s.store.state) ∧ t.store.owed = s.store.owed
    ∧ t.store.late = 0 ∧ t.store.zeroQueue = [] ∧ t.store.waiting = []
    ∧ t.store.rotation = [.zeroing, .placement, .drain, .flat, .box]
    ∧ t.store.access = (if s.store.access = some .refresh ∨ (s.store.state = .ready ∧ 0 < s.store.owed) then some .refresh else none)
    ∧ t.host.lineErrors = 0 ∧ t.host.requests = s.host.requests ∧ t.host.job = none ∧ t.host.answers = []
    ∧ t.host.mask = s.host.mask ∧ t.host.line = s.host.line ∧ t.host.rx = s.host.rx
    ∧ (∀ x, t.host.source x = { cls := 1, waits := [] })
    ∧ (s.host.masked .clearDone = false → t.host.notices.head? = some { kind := .clearDone, content := content, folded := 1 })
    ∧ (s.host.masked .clearDone = true → t.host.pendingOf .clearDone = some { content := content, folded := 1 })

/-! ## Invariants -/

/-- Every step keeps the store's contents in canonical form, the law that a canvas pixel's weight sum is 0 exactly when its count is 0
(R132), and every weight a tile can be placed with at 1/16 or more (R32, R113), on which that law rests. -/
def Obligations.StepsKeepTheMemoryLaws : Prop :=
  Kept fun s => s.mem.wf = true ∧ s.mem.PixelLaw ∧ s.WeightsPositive

/-- Every step keeps the bounds of the host link's queues (R175, R178, R179), the law that no kind has a pending entry while it could be
queued (R179), each outbound source in class 1 with an empty set or class 2 with one that is not (R182), and the refresh owed count at
6 or less (R169). -/
def Obligations.StepsKeepTheHostLinkLaws : Prop :=
  Kept fun s => s.host.Bounded ∧ s.host.PendingLaw ∧ s.host.SourcesLawful ∧ s.OwedBounded

/-- Every step keeps every slot's scale within its limits (R96), the tags of the slots in use distinct (R35), the cell table the size
of the grid (R128), and every flat that a record names VALID (R75). -/
def Obligations.StepsKeepTheRecordLaws : Prop :=
  Kept fun s => (∀ k, (s.slot k).ScaleLaw) ∧ s.TagsDistinct ∧ s.TableShaped ∧ s.NamedFlatsValid

/-- The laws that every step keeps hold at power-on. -/
def Obligations.ResetKeepsTheLaws : Prop :=
  let s := State.reset
  (s.mem.wf = true ∧ s.mem.PixelLaw ∧ s.WeightsPositive)
  ∧ (s.host.Bounded ∧ s.host.PendingLaw ∧ s.host.SourcesLawful ∧ s.OwedBounded)
  ∧ (∀ k, (s.slot k).ScaleLaw) ∧ s.TagsDistinct ∧ s.TableShaped ∧ s.NamedFlatsValid
end

