-- ==== Sys2Proof/Laws/State.lean ====
section
/-!
SUPPORT. One lemma per field per update: an update of one part leaves the others, and a part reads back as it was written.
-/

namespace Sys2Proof.Machine

/-! ### setPort -/

@[simp] theorem State.setPort_cal (s : State) (l : Fin 12) (p : Port) : (s.setPort l p).cal = s.cal := rfl
@[simp] theorem State.setPort_flats (s : State) (l : Fin 12) (p : Port) : (s.setPort l p).flats = s.flats := rfl
@[simp] theorem State.setPort_slots (s : State) (l : Fin 12) (p : Port) : (s.setPort l p).slots = s.slots := rfl
@[simp] theorem State.setPort_carry (s : State) (l : Fin 12) (p : Port) : (s.setPort l p).carry = s.carry := rfl
@[simp] theorem State.setPort_tiles (s : State) (l : Fin 12) (p : Port) : (s.setPort l p).tiles = s.tiles := rfl
@[simp] theorem State.setPort_measuring (s : State) (l : Fin 12) (p : Port) : (s.setPort l p).measuring = s.measuring := rfl
@[simp] theorem State.setPort_place (s : State) (l : Fin 12) (p : Port) : (s.setPort l p).place = s.place := rfl
@[simp] theorem State.setPort_canvas (s : State) (l : Fin 12) (p : Port) : (s.setPort l p).canvas = s.canvas := rfl
@[simp] theorem State.setPort_drain (s : State) (l : Fin 12) (p : Port) : (s.setPort l p).drain = s.drain := rfl
@[simp] theorem State.setPort_store (s : State) (l : Fin 12) (p : Port) : (s.setPort l p).store = s.store := rfl
@[simp] theorem State.setPort_mem (s : State) (l : Fin 12) (p : Port) : (s.setPort l p).mem = s.mem := rfl
@[simp] theorem State.setPort_host (s : State) (l : Fin 12) (p : Port) : (s.setPort l p).host = s.host := rfl
@[simp] theorem State.setPort_freeIndex (s : State) (l : Fin 12) (p : Port) : (s.setPort l p).freeIndex = s.freeIndex := rfl
@[simp] theorem State.setPort_pending (s : State) (l : Fin 12) (p : Port) : (s.setPort l p).pending = s.pending := rfl

/-! ### modPort -/

@[simp] theorem State.modPort_cal (s : State) (l : Fin 12) (f : Port → Port) : (s.modPort l f).cal = s.cal := rfl
@[simp] theorem State.modPort_flats (s : State) (l : Fin 12) (f : Port → Port) : (s.modPort l f).flats = s.flats := rfl
@[simp] theorem State.modPort_slots (s : State) (l : Fin 12) (f : Port → Port) : (s.modPort l f).slots = s.slots := rfl
@[simp] theorem State.modPort_carry (s : State) (l : Fin 12) (f : Port → Port) : (s.modPort l f).carry = s.carry := rfl
@[simp] theorem State.modPort_tiles (s : State) (l : Fin 12) (f : Port → Port) : (s.modPort l f).tiles = s.tiles := rfl
@[simp] theorem State.modPort_measuring (s : State) (l : Fin 12) (f : Port → Port) : (s.modPort l f).measuring = s.measuring := rfl
@[simp] theorem State.modPort_place (s : State) (l : Fin 12) (f : Port → Port) : (s.modPort l f).place = s.place := rfl
@[simp] theorem State.modPort_canvas (s : State) (l : Fin 12) (f : Port → Port) : (s.modPort l f).canvas = s.canvas := rfl
@[simp] theorem State.modPort_drain (s : State) (l : Fin 12) (f : Port → Port) : (s.modPort l f).drain = s.drain := rfl
@[simp] theorem State.modPort_store (s : State) (l : Fin 12) (f : Port → Port) : (s.modPort l f).store = s.store := rfl
@[simp] theorem State.modPort_mem (s : State) (l : Fin 12) (f : Port → Port) : (s.modPort l f).mem = s.mem := rfl
@[simp] theorem State.modPort_host (s : State) (l : Fin 12) (f : Port → Port) : (s.modPort l f).host = s.host := rfl
@[simp] theorem State.modPort_freeIndex (s : State) (l : Fin 12) (f : Port → Port) : (s.modPort l f).freeIndex = s.freeIndex := rfl
@[simp] theorem State.modPort_pending (s : State) (l : Fin 12) (f : Port → Port) : (s.modPort l f).pending = s.pending := rfl

/-! ### setBuffer -/

@[simp] theorem State.setBuffer_cal (s : State) (l : Fin 12) (b : List BufItem) : (s.setBuffer l b).cal = s.cal := rfl
@[simp] theorem State.setBuffer_flats (s : State) (l : Fin 12) (b : List BufItem) : (s.setBuffer l b).flats = s.flats := rfl
@[simp] theorem State.setBuffer_slots (s : State) (l : Fin 12) (b : List BufItem) : (s.setBuffer l b).slots = s.slots := rfl
@[simp] theorem State.setBuffer_carry (s : State) (l : Fin 12) (b : List BufItem) : (s.setBuffer l b).carry = s.carry := rfl
@[simp] theorem State.setBuffer_tiles (s : State) (l : Fin 12) (b : List BufItem) : (s.setBuffer l b).tiles = s.tiles := rfl
@[simp] theorem State.setBuffer_measuring (s : State) (l : Fin 12) (b : List BufItem) : (s.setBuffer l b).measuring = s.measuring := rfl
@[simp] theorem State.setBuffer_place (s : State) (l : Fin 12) (b : List BufItem) : (s.setBuffer l b).place = s.place := rfl
@[simp] theorem State.setBuffer_canvas (s : State) (l : Fin 12) (b : List BufItem) : (s.setBuffer l b).canvas = s.canvas := rfl
@[simp] theorem State.setBuffer_drain (s : State) (l : Fin 12) (b : List BufItem) : (s.setBuffer l b).drain = s.drain := rfl
@[simp] theorem State.setBuffer_store (s : State) (l : Fin 12) (b : List BufItem) : (s.setBuffer l b).store = s.store := rfl
@[simp] theorem State.setBuffer_mem (s : State) (l : Fin 12) (b : List BufItem) : (s.setBuffer l b).mem = s.mem := rfl
@[simp] theorem State.setBuffer_host (s : State) (l : Fin 12) (b : List BufItem) : (s.setBuffer l b).host = s.host := rfl
@[simp] theorem State.setBuffer_freeIndex (s : State) (l : Fin 12) (b : List BufItem) : (s.setBuffer l b).freeIndex = s.freeIndex := rfl
@[simp] theorem State.setBuffer_pending (s : State) (l : Fin 12) (b : List BufItem) : (s.setBuffer l b).pending = s.pending := rfl

/-! ### setSegCal -/

@[simp] theorem State.setSegCal_ports (s : State) (g : Fin 96) (c : SegCal) : (s.setSegCal g c).ports = s.ports := rfl
@[simp] theorem State.setSegCal_flats (s : State) (g : Fin 96) (c : SegCal) : (s.setSegCal g c).flats = s.flats := rfl
@[simp] theorem State.setSegCal_slots (s : State) (g : Fin 96) (c : SegCal) : (s.setSegCal g c).slots = s.slots := rfl
@[simp] theorem State.setSegCal_carry (s : State) (g : Fin 96) (c : SegCal) : (s.setSegCal g c).carry = s.carry := rfl
@[simp] theorem State.setSegCal_tiles (s : State) (g : Fin 96) (c : SegCal) : (s.setSegCal g c).tiles = s.tiles := rfl
@[simp] theorem State.setSegCal_measuring (s : State) (g : Fin 96) (c : SegCal) : (s.setSegCal g c).measuring = s.measuring := rfl
@[simp] theorem State.setSegCal_place (s : State) (g : Fin 96) (c : SegCal) : (s.setSegCal g c).place = s.place := rfl
@[simp] theorem State.setSegCal_canvas (s : State) (g : Fin 96) (c : SegCal) : (s.setSegCal g c).canvas = s.canvas := rfl
@[simp] theorem State.setSegCal_drain (s : State) (g : Fin 96) (c : SegCal) : (s.setSegCal g c).drain = s.drain := rfl
@[simp] theorem State.setSegCal_store (s : State) (g : Fin 96) (c : SegCal) : (s.setSegCal g c).store = s.store := rfl
@[simp] theorem State.setSegCal_mem (s : State) (g : Fin 96) (c : SegCal) : (s.setSegCal g c).mem = s.mem := rfl
@[simp] theorem State.setSegCal_host (s : State) (g : Fin 96) (c : SegCal) : (s.setSegCal g c).host = s.host := rfl
@[simp] theorem State.setSegCal_freeIndex (s : State) (g : Fin 96) (c : SegCal) : (s.setSegCal g c).freeIndex = s.freeIndex := rfl
@[simp] theorem State.setSegCal_pending (s : State) (g : Fin 96) (c : SegCal) : (s.setSegCal g c).pending = s.pending := rfl

/-! ### setFlat -/

@[simp] theorem State.setFlat_ports (s : State) (i : Fin 24) (e : FlatEntry) : (s.setFlat i e).ports = s.ports := rfl
@[simp] theorem State.setFlat_cal (s : State) (i : Fin 24) (e : FlatEntry) : (s.setFlat i e).cal = s.cal := rfl
@[simp] theorem State.setFlat_slots (s : State) (i : Fin 24) (e : FlatEntry) : (s.setFlat i e).slots = s.slots := rfl
@[simp] theorem State.setFlat_carry (s : State) (i : Fin 24) (e : FlatEntry) : (s.setFlat i e).carry = s.carry := rfl
@[simp] theorem State.setFlat_tiles (s : State) (i : Fin 24) (e : FlatEntry) : (s.setFlat i e).tiles = s.tiles := rfl
@[simp] theorem State.setFlat_measuring (s : State) (i : Fin 24) (e : FlatEntry) : (s.setFlat i e).measuring = s.measuring := rfl
@[simp] theorem State.setFlat_place (s : State) (i : Fin 24) (e : FlatEntry) : (s.setFlat i e).place = s.place := rfl
@[simp] theorem State.setFlat_canvas (s : State) (i : Fin 24) (e : FlatEntry) : (s.setFlat i e).canvas = s.canvas := rfl
@[simp] theorem State.setFlat_drain (s : State) (i : Fin 24) (e : FlatEntry) : (s.setFlat i e).drain = s.drain := rfl
@[simp] theorem State.setFlat_store (s : State) (i : Fin 24) (e : FlatEntry) : (s.setFlat i e).store = s.store := rfl
@[simp] theorem State.setFlat_mem (s : State) (i : Fin 24) (e : FlatEntry) : (s.setFlat i e).mem = s.mem := rfl
@[simp] theorem State.setFlat_host (s : State) (i : Fin 24) (e : FlatEntry) : (s.setFlat i e).host = s.host := rfl
@[simp] theorem State.setFlat_freeIndex (s : State) (i : Fin 24) (e : FlatEntry) : (s.setFlat i e).freeIndex = s.freeIndex := rfl
@[simp] theorem State.setFlat_pending (s : State) (i : Fin 24) (e : FlatEntry) : (s.setFlat i e).pending = s.pending := rfl

/-! ### setSlot -/

@[simp] theorem State.setSlot_ports (s : State) (k : Fin 4) (x : ExpSlot) : (s.setSlot k x).ports = s.ports := rfl
@[simp] theorem State.setSlot_cal (s : State) (k : Fin 4) (x : ExpSlot) : (s.setSlot k x).cal = s.cal := rfl
@[simp] theorem State.setSlot_flats (s : State) (k : Fin 4) (x : ExpSlot) : (s.setSlot k x).flats = s.flats := rfl
@[simp] theorem State.setSlot_carry (s : State) (k : Fin 4) (x : ExpSlot) : (s.setSlot k x).carry = s.carry := rfl
@[simp] theorem State.setSlot_tiles (s : State) (k : Fin 4) (x : ExpSlot) : (s.setSlot k x).tiles = s.tiles := rfl
@[simp] theorem State.setSlot_measuring (s : State) (k : Fin 4) (x : ExpSlot) : (s.setSlot k x).measuring = s.measuring := rfl
@[simp] theorem State.setSlot_place (s : State) (k : Fin 4) (x : ExpSlot) : (s.setSlot k x).place = s.place := rfl
@[simp] theorem State.setSlot_canvas (s : State) (k : Fin 4) (x : ExpSlot) : (s.setSlot k x).canvas = s.canvas := rfl
@[simp] theorem State.setSlot_drain (s : State) (k : Fin 4) (x : ExpSlot) : (s.setSlot k x).drain = s.drain := rfl
@[simp] theorem State.setSlot_store (s : State) (k : Fin 4) (x : ExpSlot) : (s.setSlot k x).store = s.store := rfl
@[simp] theorem State.setSlot_mem (s : State) (k : Fin 4) (x : ExpSlot) : (s.setSlot k x).mem = s.mem := rfl
@[simp] theorem State.setSlot_host (s : State) (k : Fin 4) (x : ExpSlot) : (s.setSlot k x).host = s.host := rfl
@[simp] theorem State.setSlot_freeIndex (s : State) (k : Fin 4) (x : ExpSlot) : (s.setSlot k x).freeIndex = s.freeIndex := rfl
@[simp] theorem State.setSlot_pending (s : State) (k : Fin 4) (x : ExpSlot) : (s.setSlot k x).pending = s.pending := rfl

/-! ### modSlot -/

@[simp] theorem State.modSlot_ports (s : State) (k : Fin 4) (f : ExpSlot → ExpSlot) : (s.modSlot k f).ports = s.ports := rfl
@[simp] theorem State.modSlot_cal (s : State) (k : Fin 4) (f : ExpSlot → ExpSlot) : (s.modSlot k f).cal = s.cal := rfl
@[simp] theorem State.modSlot_flats (s : State) (k : Fin 4) (f : ExpSlot → ExpSlot) : (s.modSlot k f).flats = s.flats := rfl
@[simp] theorem State.modSlot_carry (s : State) (k : Fin 4) (f : ExpSlot → ExpSlot) : (s.modSlot k f).carry = s.carry := rfl
@[simp] theorem State.modSlot_tiles (s : State) (k : Fin 4) (f : ExpSlot → ExpSlot) : (s.modSlot k f).tiles = s.tiles := rfl
@[simp] theorem State.modSlot_measuring (s : State) (k : Fin 4) (f : ExpSlot → ExpSlot) : (s.modSlot k f).measuring = s.measuring := rfl
@[simp] theorem State.modSlot_place (s : State) (k : Fin 4) (f : ExpSlot → ExpSlot) : (s.modSlot k f).place = s.place := rfl
@[simp] theorem State.modSlot_canvas (s : State) (k : Fin 4) (f : ExpSlot → ExpSlot) : (s.modSlot k f).canvas = s.canvas := rfl
@[simp] theorem State.modSlot_drain (s : State) (k : Fin 4) (f : ExpSlot → ExpSlot) : (s.modSlot k f).drain = s.drain := rfl
@[simp] theorem State.modSlot_store (s : State) (k : Fin 4) (f : ExpSlot → ExpSlot) : (s.modSlot k f).store = s.store := rfl
@[simp] theorem State.modSlot_mem (s : State) (k : Fin 4) (f : ExpSlot → ExpSlot) : (s.modSlot k f).mem = s.mem := rfl
@[simp] theorem State.modSlot_host (s : State) (k : Fin 4) (f : ExpSlot → ExpSlot) : (s.modSlot k f).host = s.host := rfl
@[simp] theorem State.modSlot_freeIndex (s : State) (k : Fin 4) (f : ExpSlot → ExpSlot) : (s.modSlot k f).freeIndex = s.freeIndex := rfl
@[simp] theorem State.modSlot_pending (s : State) (k : Fin 4) (f : ExpSlot → ExpSlot) : (s.modSlot k f).pending = s.pending := rfl

/-! ### setTile -/

@[simp] theorem State.setTile_ports (s : State) (t : Fin 40) (x : Tile) : (s.setTile t x).ports = s.ports := rfl
@[simp] theorem State.setTile_cal (s : State) (t : Fin 40) (x : Tile) : (s.setTile t x).cal = s.cal := rfl
@[simp] theorem State.setTile_flats (s : State) (t : Fin 40) (x : Tile) : (s.setTile t x).flats = s.flats := rfl
@[simp] theorem State.setTile_slots (s : State) (t : Fin 40) (x : Tile) : (s.setTile t x).slots = s.slots := rfl
@[simp] theorem State.setTile_carry (s : State) (t : Fin 40) (x : Tile) : (s.setTile t x).carry = s.carry := rfl
@[simp] theorem State.setTile_measuring (s : State) (t : Fin 40) (x : Tile) : (s.setTile t x).measuring = s.measuring := rfl
@[simp] theorem State.setTile_place (s : State) (t : Fin 40) (x : Tile) : (s.setTile t x).place = s.place := rfl
@[simp] theorem State.setTile_canvas (s : State) (t : Fin 40) (x : Tile) : (s.setTile t x).canvas = s.canvas := rfl
@[simp] theorem State.setTile_drain (s : State) (t : Fin 40) (x : Tile) : (s.setTile t x).drain = s.drain := rfl
@[simp] theorem State.setTile_store (s : State) (t : Fin 40) (x : Tile) : (s.setTile t x).store = s.store := rfl
@[simp] theorem State.setTile_mem (s : State) (t : Fin 40) (x : Tile) : (s.setTile t x).mem = s.mem := rfl
@[simp] theorem State.setTile_host (s : State) (t : Fin 40) (x : Tile) : (s.setTile t x).host = s.host := rfl
@[simp] theorem State.setTile_freeIndex (s : State) (t : Fin 40) (x : Tile) : (s.setTile t x).freeIndex = s.freeIndex := rfl
@[simp] theorem State.setTile_pending (s : State) (t : Fin 40) (x : Tile) : (s.setTile t x).pending = s.pending := rfl

/-! ### modTile -/

@[simp] theorem State.modTile_ports (s : State) (t : Fin 40) (f : Tile → Tile) : (s.modTile t f).ports = s.ports := rfl
@[simp] theorem State.modTile_cal (s : State) (t : Fin 40) (f : Tile → Tile) : (s.modTile t f).cal = s.cal := rfl
@[simp] theorem State.modTile_flats (s : State) (t : Fin 40) (f : Tile → Tile) : (s.modTile t f).flats = s.flats := rfl
@[simp] theorem State.modTile_slots (s : State) (t : Fin 40) (f : Tile → Tile) : (s.modTile t f).slots = s.slots := rfl
@[simp] theorem State.modTile_carry (s : State) (t : Fin 40) (f : Tile → Tile) : (s.modTile t f).carry = s.carry := rfl
@[simp] theorem State.modTile_measuring (s : State) (t : Fin 40) (f : Tile → Tile) : (s.modTile t f).measuring = s.measuring := rfl
@[simp] theorem State.modTile_place (s : State) (t : Fin 40) (f : Tile → Tile) : (s.modTile t f).place = s.place := rfl
@[simp] theorem State.modTile_canvas (s : State) (t : Fin 40) (f : Tile → Tile) : (s.modTile t f).canvas = s.canvas := rfl
@[simp] theorem State.modTile_drain (s : State) (t : Fin 40) (f : Tile → Tile) : (s.modTile t f).drain = s.drain := rfl
@[simp] theorem State.modTile_store (s : State) (t : Fin 40) (f : Tile → Tile) : (s.modTile t f).store = s.store := rfl
@[simp] theorem State.modTile_mem (s : State) (t : Fin 40) (f : Tile → Tile) : (s.modTile t f).mem = s.mem := rfl
@[simp] theorem State.modTile_host (s : State) (t : Fin 40) (f : Tile → Tile) : (s.modTile t f).host = s.host := rfl
@[simp] theorem State.modTile_freeIndex (s : State) (t : Fin 40) (f : Tile → Tile) : (s.modTile t f).freeIndex = s.freeIndex := rfl
@[simp] theorem State.modTile_pending (s : State) (t : Fin 40) (f : Tile → Tile) : (s.modTile t f).pending = s.pending := rfl

/-! ### holdTile -/

@[simp] theorem State.holdTile_ports (s : State) (t : Fin 40) : (s.holdTile t).ports = s.ports := rfl
@[simp] theorem State.holdTile_cal (s : State) (t : Fin 40) : (s.holdTile t).cal = s.cal := rfl
@[simp] theorem State.holdTile_flats (s : State) (t : Fin 40) : (s.holdTile t).flats = s.flats := rfl
@[simp] theorem State.holdTile_slots (s : State) (t : Fin 40) : (s.holdTile t).slots = s.slots := rfl
@[simp] theorem State.holdTile_carry (s : State) (t : Fin 40) : (s.holdTile t).carry = s.carry := rfl
@[simp] theorem State.holdTile_measuring (s : State) (t : Fin 40) : (s.holdTile t).measuring = s.measuring := rfl
@[simp] theorem State.holdTile_place (s : State) (t : Fin 40) : (s.holdTile t).place = s.place := rfl
@[simp] theorem State.holdTile_canvas (s : State) (t : Fin 40) : (s.holdTile t).canvas = s.canvas := rfl
@[simp] theorem State.holdTile_drain (s : State) (t : Fin 40) : (s.holdTile t).drain = s.drain := rfl
@[simp] theorem State.holdTile_store (s : State) (t : Fin 40) : (s.holdTile t).store = s.store := rfl
@[simp] theorem State.holdTile_mem (s : State) (t : Fin 40) : (s.holdTile t).mem = s.mem := rfl
@[simp] theorem State.holdTile_host (s : State) (t : Fin 40) : (s.holdTile t).host = s.host := rfl
@[simp] theorem State.holdTile_freeIndex (s : State) (t : Fin 40) : (s.holdTile t).freeIndex = s.freeIndex := rfl
@[simp] theorem State.holdTile_pending (s : State) (t : Fin 40) : (s.holdTile t).pending = s.pending := rfl

/-! ### queueTile -/

@[simp] theorem State.queueTile_ports (s : State) (t : Fin 40) : (s.queueTile t).ports = s.ports := rfl
@[simp] theorem State.queueTile_cal (s : State) (t : Fin 40) : (s.queueTile t).cal = s.cal := rfl
@[simp] theorem State.queueTile_flats (s : State) (t : Fin 40) : (s.queueTile t).flats = s.flats := rfl
@[simp] theorem State.queueTile_slots (s : State) (t : Fin 40) : (s.queueTile t).slots = s.slots := rfl
@[simp] theorem State.queueTile_carry (s : State) (t : Fin 40) : (s.queueTile t).carry = s.carry := rfl
@[simp] theorem State.queueTile_measuring (s : State) (t : Fin 40) : (s.queueTile t).measuring = s.measuring := rfl
@[simp] theorem State.queueTile_place (s : State) (t : Fin 40) : (s.queueTile t).place = s.place := rfl
@[simp] theorem State.queueTile_canvas (s : State) (t : Fin 40) : (s.queueTile t).canvas = s.canvas := rfl
@[simp] theorem State.queueTile_drain (s : State) (t : Fin 40) : (s.queueTile t).drain = s.drain := rfl
@[simp] theorem State.queueTile_store (s : State) (t : Fin 40) : (s.queueTile t).store = s.store := rfl
@[simp] theorem State.queueTile_mem (s : State) (t : Fin 40) : (s.queueTile t).mem = s.mem := rfl
@[simp] theorem State.queueTile_host (s : State) (t : Fin 40) : (s.queueTile t).host = s.host := rfl
@[simp] theorem State.queueTile_freeIndex (s : State) (t : Fin 40) : (s.queueTile t).freeIndex = s.freeIndex := rfl
@[simp] theorem State.queueTile_pending (s : State) (t : Fin 40) : (s.queueTile t).pending = s.pending := rfl

/-! ### setMeasure -/

@[simp] theorem State.setMeasure_ports (s : State) (l : Fin 12) (m : List Measuring) : (s.setMeasure l m).ports = s.ports := rfl
@[simp] theorem State.setMeasure_cal (s : State) (l : Fin 12) (m : List Measuring) : (s.setMeasure l m).cal = s.cal := rfl
@[simp] theorem State.setMeasure_flats (s : State) (l : Fin 12) (m : List Measuring) : (s.setMeasure l m).flats = s.flats := rfl
@[simp] theorem State.setMeasure_slots (s : State) (l : Fin 12) (m : List Measuring) : (s.setMeasure l m).slots = s.slots := rfl
@[simp] theorem State.setMeasure_carry (s : State) (l : Fin 12) (m : List Measuring) : (s.setMeasure l m).carry = s.carry := rfl
@[simp] theorem State.setMeasure_tiles (s : State) (l : Fin 12) (m : List Measuring) : (s.setMeasure l m).tiles = s.tiles := rfl
@[simp] theorem State.setMeasure_place (s : State) (l : Fin 12) (m : List Measuring) : (s.setMeasure l m).place = s.place := rfl
@[simp] theorem State.setMeasure_canvas (s : State) (l : Fin 12) (m : List Measuring) : (s.setMeasure l m).canvas = s.canvas := rfl
@[simp] theorem State.setMeasure_drain (s : State) (l : Fin 12) (m : List Measuring) : (s.setMeasure l m).drain = s.drain := rfl
@[simp] theorem State.setMeasure_store (s : State) (l : Fin 12) (m : List Measuring) : (s.setMeasure l m).store = s.store := rfl
@[simp] theorem State.setMeasure_mem (s : State) (l : Fin 12) (m : List Measuring) : (s.setMeasure l m).mem = s.mem := rfl
@[simp] theorem State.setMeasure_host (s : State) (l : Fin 12) (m : List Measuring) : (s.setMeasure l m).host = s.host := rfl
@[simp] theorem State.setMeasure_freeIndex (s : State) (l : Fin 12) (m : List Measuring) : (s.setMeasure l m).freeIndex = s.freeIndex := rfl
@[simp] theorem State.setMeasure_pending (s : State) (l : Fin 12) (m : List Measuring) : (s.setMeasure l m).pending = s.pending := rfl

/-! ### setCell -/

@[simp] theorem State.setCell_ports (s : State) (i : Nat) (c : Cell) : (s.setCell i c).ports = s.ports := rfl
@[simp] theorem State.setCell_cal (s : State) (i : Nat) (c : Cell) : (s.setCell i c).cal = s.cal := rfl
@[simp] theorem State.setCell_flats (s : State) (i : Nat) (c : Cell) : (s.setCell i c).flats = s.flats := rfl
@[simp] theorem State.setCell_slots (s : State) (i : Nat) (c : Cell) : (s.setCell i c).slots = s.slots := rfl
@[simp] theorem State.setCell_carry (s : State) (i : Nat) (c : Cell) : (s.setCell i c).carry = s.carry := rfl
@[simp] theorem State.setCell_tiles (s : State) (i : Nat) (c : Cell) : (s.setCell i c).tiles = s.tiles := rfl
@[simp] theorem State.setCell_measuring (s : State) (i : Nat) (c : Cell) : (s.setCell i c).measuring = s.measuring := rfl
@[simp] theorem State.setCell_place (s : State) (i : Nat) (c : Cell) : (s.setCell i c).place = s.place := rfl
@[simp] theorem State.setCell_drain (s : State) (i : Nat) (c : Cell) : (s.setCell i c).drain = s.drain := rfl
@[simp] theorem State.setCell_store (s : State) (i : Nat) (c : Cell) : (s.setCell i c).store = s.store := rfl
@[simp] theorem State.setCell_mem (s : State) (i : Nat) (c : Cell) : (s.setCell i c).mem = s.mem := rfl
@[simp] theorem State.setCell_host (s : State) (i : Nat) (c : Cell) : (s.setCell i c).host = s.host := rfl
@[simp] theorem State.setCell_freeIndex (s : State) (i : Nat) (c : Cell) : (s.setCell i c).freeIndex = s.freeIndex := rfl
@[simp] theorem State.setCell_pending (s : State) (i : Nat) (c : Cell) : (s.setCell i c).pending = s.pending := rfl

/-! ### claim -/

@[simp] theorem State.claim_ports (s : State) (c : Claim) : (s.claim c).ports = s.ports := rfl
@[simp] theorem State.claim_cal (s : State) (c : Claim) : (s.claim c).cal = s.cal := rfl
@[simp] theorem State.claim_flats (s : State) (c : Claim) : (s.claim c).flats = s.flats := rfl
@[simp] theorem State.claim_slots (s : State) (c : Claim) : (s.claim c).slots = s.slots := rfl
@[simp] theorem State.claim_carry (s : State) (c : Claim) : (s.claim c).carry = s.carry := rfl
@[simp] theorem State.claim_tiles (s : State) (c : Claim) : (s.claim c).tiles = s.tiles := rfl
@[simp] theorem State.claim_measuring (s : State) (c : Claim) : (s.claim c).measuring = s.measuring := rfl
@[simp] theorem State.claim_place (s : State) (c : Claim) : (s.claim c).place = s.place := rfl
@[simp] theorem State.claim_canvas (s : State) (c : Claim) : (s.claim c).canvas = s.canvas := rfl
@[simp] theorem State.claim_drain (s : State) (c : Claim) : (s.claim c).drain = s.drain := rfl
@[simp] theorem State.claim_mem (s : State) (c : Claim) : (s.claim c).mem = s.mem := rfl
@[simp] theorem State.claim_host (s : State) (c : Claim) : (s.claim c).host = s.host := rfl
@[simp] theorem State.claim_freeIndex (s : State) (c : Claim) : (s.claim c).freeIndex = s.freeIndex := rfl
@[simp] theorem State.claim_pending (s : State) (c : Claim) : (s.claim c).pending = s.pending := rfl

/-! ### withdraw -/

@[simp] theorem State.withdraw_ports (s : State) (c : Claim) : (s.withdraw c).ports = s.ports := rfl
@[simp] theorem State.withdraw_cal (s : State) (c : Claim) : (s.withdraw c).cal = s.cal := rfl
@[simp] theorem State.withdraw_flats (s : State) (c : Claim) : (s.withdraw c).flats = s.flats := rfl
@[simp] theorem State.withdraw_slots (s : State) (c : Claim) : (s.withdraw c).slots = s.slots := rfl
@[simp] theorem State.withdraw_carry (s : State) (c : Claim) : (s.withdraw c).carry = s.carry := rfl
@[simp] theorem State.withdraw_tiles (s : State) (c : Claim) : (s.withdraw c).tiles = s.tiles := rfl
@[simp] theorem State.withdraw_measuring (s : State) (c : Claim) : (s.withdraw c).measuring = s.measuring := rfl
@[simp] theorem State.withdraw_place (s : State) (c : Claim) : (s.withdraw c).place = s.place := rfl
@[simp] theorem State.withdraw_canvas (s : State) (c : Claim) : (s.withdraw c).canvas = s.canvas := rfl
@[simp] theorem State.withdraw_drain (s : State) (c : Claim) : (s.withdraw c).drain = s.drain := rfl
@[simp] theorem State.withdraw_mem (s : State) (c : Claim) : (s.withdraw c).mem = s.mem := rfl
@[simp] theorem State.withdraw_host (s : State) (c : Claim) : (s.withdraw c).host = s.host := rfl
@[simp] theorem State.withdraw_freeIndex (s : State) (c : Claim) : (s.withdraw c).freeIndex = s.freeIndex := rfl
@[simp] theorem State.withdraw_pending (s : State) (c : Claim) : (s.withdraw c).pending = s.pending := rfl

/-! ### freeStore -/

@[simp] theorem State.freeStore_ports (s : State) : s.freeStore.ports = s.ports := rfl
@[simp] theorem State.freeStore_cal (s : State) : s.freeStore.cal = s.cal := rfl
@[simp] theorem State.freeStore_flats (s : State) : s.freeStore.flats = s.flats := rfl
@[simp] theorem State.freeStore_slots (s : State) : s.freeStore.slots = s.slots := rfl
@[simp] theorem State.freeStore_carry (s : State) : s.freeStore.carry = s.carry := rfl
@[simp] theorem State.freeStore_tiles (s : State) : s.freeStore.tiles = s.tiles := rfl
@[simp] theorem State.freeStore_measuring (s : State) : s.freeStore.measuring = s.measuring := rfl
@[simp] theorem State.freeStore_place (s : State) : s.freeStore.place = s.place := rfl
@[simp] theorem State.freeStore_canvas (s : State) : s.freeStore.canvas = s.canvas := rfl
@[simp] theorem State.freeStore_drain (s : State) : s.freeStore.drain = s.drain := rfl
@[simp] theorem State.freeStore_mem (s : State) : s.freeStore.mem = s.mem := rfl
@[simp] theorem State.freeStore_host (s : State) : s.freeStore.host = s.host := rfl
@[simp] theorem State.freeStore_freeIndex (s : State) : s.freeStore.freeIndex = s.freeIndex := rfl
@[simp] theorem State.freeStore_pending (s : State) : s.freeStore.pending = s.pending := rfl

/-! ### raise -/

@[simp] theorem State.raise_ports (s : State) (k : NoticeKind) (c : List Byte) : (s.raise k c).ports = s.ports := rfl
@[simp] theorem State.raise_cal (s : State) (k : NoticeKind) (c : List Byte) : (s.raise k c).cal = s.cal := rfl
@[simp] theorem State.raise_flats (s : State) (k : NoticeKind) (c : List Byte) : (s.raise k c).flats = s.flats := rfl
@[simp] theorem State.raise_slots (s : State) (k : NoticeKind) (c : List Byte) : (s.raise k c).slots = s.slots := rfl
@[simp] theorem State.raise_carry (s : State) (k : NoticeKind) (c : List Byte) : (s.raise k c).carry = s.carry := rfl
@[simp] theorem State.raise_tiles (s : State) (k : NoticeKind) (c : List Byte) : (s.raise k c).tiles = s.tiles := rfl
@[simp] theorem State.raise_measuring (s : State) (k : NoticeKind) (c : List Byte) : (s.raise k c).measuring = s.measuring := rfl
@[simp] theorem State.raise_place (s : State) (k : NoticeKind) (c : List Byte) : (s.raise k c).place = s.place := rfl
@[simp] theorem State.raise_canvas (s : State) (k : NoticeKind) (c : List Byte) : (s.raise k c).canvas = s.canvas := rfl
@[simp] theorem State.raise_drain (s : State) (k : NoticeKind) (c : List Byte) : (s.raise k c).drain = s.drain := rfl
@[simp] theorem State.raise_store (s : State) (k : NoticeKind) (c : List Byte) : (s.raise k c).store = s.store := rfl
@[simp] theorem State.raise_mem (s : State) (k : NoticeKind) (c : List Byte) : (s.raise k c).mem = s.mem := rfl
@[simp] theorem State.raise_freeIndex (s : State) (k : NoticeKind) (c : List Byte) : (s.raise k c).freeIndex = s.freeIndex := rfl
@[simp] theorem State.raise_pending (s : State) (k : NoticeKind) (c : List Byte) : (s.raise k c).pending = s.pending := rfl

/-! ### movePending -/

@[simp] theorem State.movePending_ports (s : State) : s.movePending.ports = s.ports := by simp only [State.movePending]
@[simp] theorem State.movePending_cal (s : State) : s.movePending.cal = s.cal := by simp only [State.movePending]
@[simp] theorem State.movePending_flats (s : State) : s.movePending.flats = s.flats := by simp only [State.movePending]
@[simp] theorem State.movePending_slots (s : State) : s.movePending.slots = s.slots := by simp only [State.movePending]
@[simp] theorem State.movePending_carry (s : State) : s.movePending.carry = s.carry := by simp only [State.movePending]
@[simp] theorem State.movePending_tiles (s : State) : s.movePending.tiles = s.tiles := by simp only [State.movePending]
@[simp] theorem State.movePending_measuring (s : State) : s.movePending.measuring = s.measuring := by simp only [State.movePending]
@[simp] theorem State.movePending_place (s : State) : s.movePending.place = s.place := by simp only [State.movePending]
@[simp] theorem State.movePending_canvas (s : State) : s.movePending.canvas = s.canvas := by simp only [State.movePending]
@[simp] theorem State.movePending_drain (s : State) : s.movePending.drain = s.drain := by simp only [State.movePending]
@[simp] theorem State.movePending_store (s : State) : s.movePending.store = s.store := by simp only [State.movePending]
@[simp] theorem State.movePending_mem (s : State) : s.movePending.mem = s.mem := by simp only [State.movePending]
@[simp] theorem State.movePending_freeIndex (s : State) : s.movePending.freeIndex = s.freeIndex := by simp only [State.movePending]
@[simp] theorem State.movePending_pending (s : State) : s.movePending.pending = s.pending := by simp only [State.movePending]

/-! ### queueAnswer -/

@[simp] theorem State.queueAnswer_ports (s : State) (tag kind : Byte) (r : Result) : (s.queueAnswer tag kind r).ports = s.ports := rfl
@[simp] theorem State.queueAnswer_cal (s : State) (tag kind : Byte) (r : Result) : (s.queueAnswer tag kind r).cal = s.cal := rfl
@[simp] theorem State.queueAnswer_flats (s : State) (tag kind : Byte) (r : Result) : (s.queueAnswer tag kind r).flats = s.flats := rfl
@[simp] theorem State.queueAnswer_slots (s : State) (tag kind : Byte) (r : Result) : (s.queueAnswer tag kind r).slots = s.slots := rfl
@[simp] theorem State.queueAnswer_carry (s : State) (tag kind : Byte) (r : Result) : (s.queueAnswer tag kind r).carry = s.carry := rfl
@[simp] theorem State.queueAnswer_tiles (s : State) (tag kind : Byte) (r : Result) : (s.queueAnswer tag kind r).tiles = s.tiles := rfl
@[simp] theorem State.queueAnswer_measuring (s : State) (tag kind : Byte) (r : Result) : (s.queueAnswer tag kind r).measuring = s.measuring := rfl
@[simp] theorem State.queueAnswer_place (s : State) (tag kind : Byte) (r : Result) : (s.queueAnswer tag kind r).place = s.place := rfl
@[simp] theorem State.queueAnswer_canvas (s : State) (tag kind : Byte) (r : Result) : (s.queueAnswer tag kind r).canvas = s.canvas := rfl
@[simp] theorem State.queueAnswer_drain (s : State) (tag kind : Byte) (r : Result) : (s.queueAnswer tag kind r).drain = s.drain := rfl
@[simp] theorem State.queueAnswer_store (s : State) (tag kind : Byte) (r : Result) : (s.queueAnswer tag kind r).store = s.store := rfl
@[simp] theorem State.queueAnswer_mem (s : State) (tag kind : Byte) (r : Result) : (s.queueAnswer tag kind r).mem = s.mem := rfl
@[simp] theorem State.queueAnswer_freeIndex (s : State) (tag kind : Byte) (r : Result) : (s.queueAnswer tag kind r).freeIndex = s.freeIndex := rfl
@[simp] theorem State.queueAnswer_pending (s : State) (tag kind : Byte) (r : Result) : (s.queueAnswer tag kind r).pending = s.pending := rfl

/-! ### removeSource -/

@[simp] theorem State.removeSource_ports (s : State) (x : Source) : (s.removeSource x).ports = s.ports := by simp only [State.removeSource]
@[simp] theorem State.removeSource_cal (s : State) (x : Source) : (s.removeSource x).cal = s.cal := by simp only [State.removeSource]
@[simp] theorem State.removeSource_flats (s : State) (x : Source) : (s.removeSource x).flats = s.flats := by simp only [State.removeSource]
@[simp] theorem State.removeSource_slots (s : State) (x : Source) : (s.removeSource x).slots = s.slots := by simp only [State.removeSource]
@[simp] theorem State.removeSource_carry (s : State) (x : Source) : (s.removeSource x).carry = s.carry := by simp only [State.removeSource]
@[simp] theorem State.removeSource_tiles (s : State) (x : Source) : (s.removeSource x).tiles = s.tiles := by simp only [State.removeSource]
@[simp] theorem State.removeSource_measuring (s : State) (x : Source) : (s.removeSource x).measuring = s.measuring := by simp only [State.removeSource]
@[simp] theorem State.removeSource_place (s : State) (x : Source) : (s.removeSource x).place = s.place := by simp only [State.removeSource]
@[simp] theorem State.removeSource_canvas (s : State) (x : Source) : (s.removeSource x).canvas = s.canvas := by simp only [State.removeSource]
@[simp] theorem State.removeSource_drain (s : State) (x : Source) : (s.removeSource x).drain = s.drain := by simp only [State.removeSource]
@[simp] theorem State.removeSource_store (s : State) (x : Source) : (s.removeSource x).store = s.store := by simp only [State.removeSource]
@[simp] theorem State.removeSource_mem (s : State) (x : Source) : (s.removeSource x).mem = s.mem := by simp only [State.removeSource]
@[simp] theorem State.removeSource_freeIndex (s : State) (x : Source) : (s.removeSource x).freeIndex = s.freeIndex := by simp only [State.removeSource]
@[simp] theorem State.removeSource_pending (s : State) (x : Source) : (s.removeSource x).pending = s.pending := by simp only [State.removeSource]

/-! ### Reading back -/

@[simp] theorem State.port_setPort (s : State) (l m : Fin 12) (p : Port) :
    (s.setPort l p).port m = if l = m then p else s.port m := by
  simp only [State.port, State.setPort, Fin.getElem_fin, Vector.getElem_set, Fin.ext_iff]

@[simp] theorem State.port_modPort (s : State) (l m : Fin 12) (f : Port → Port) :
    (s.modPort l f).port m = if l = m then f (s.port l) else s.port m := by
  simp only [State.modPort, State.port_setPort]

@[simp] theorem State.segCal_setSegCal (s : State) (g h : Fin 96) (c : SegCal) :
    (s.setSegCal g c).segCal h = if g = h then c else s.segCal h := by
  simp only [State.segCal, State.setSegCal, Fin.getElem_fin, Vector.getElem_set, Fin.ext_iff]

@[simp] theorem State.flat_setFlat (s : State) (i j : Fin 24) (e : FlatEntry) :
    (s.setFlat i e).flat j = if i = j then e else s.flat j := by
  simp only [State.flat, State.setFlat, Fin.getElem_fin, Vector.getElem_set, Fin.ext_iff]

@[simp] theorem State.slot_setSlot (s : State) (k j : Fin 4) (x : ExpSlot) :
    (s.setSlot k x).slot j = if k = j then x else s.slot j := by
  simp only [State.slot, State.setSlot, Fin.getElem_fin, Vector.getElem_set, Fin.ext_iff]

@[simp] theorem State.slot_modSlot (s : State) (k j : Fin 4) (f : ExpSlot → ExpSlot) :
    (s.modSlot k f).slot j = if k = j then f (s.slot k) else s.slot j := by
  simp only [State.modSlot, State.slot_setSlot]

@[simp] theorem State.tile_setTile (s : State) (t u : Fin 40) (x : Tile) :
    (s.setTile t x).tile u = if t = u then x else s.tile u := by
  simp only [State.tile, State.setTile, Fin.getElem_fin, Vector.getElem_set, Fin.ext_iff]

@[simp] theorem State.tile_modTile (s : State) (t u : Fin 40) (f : Tile → Tile) :
    (s.modTile t f).tile u = if t = u then f (s.tile t) else s.tile u := by
  simp only [State.modTile, State.tile_setTile]

@[simp] theorem State.measure_setMeasure (s : State) (l m : Fin 12) (x : List Measuring) :
    (s.setMeasure l x).measure m = if l = m then x else s.measure m := by
  simp only [State.measure, State.setMeasure, Fin.getElem_fin, Vector.getElem_set, Fin.ext_iff]

@[simp] theorem State.cell?_setCell (s : State) (i j : Nat) (c : Cell) :
    (s.setCell i c).cell? j = if i = j then (if j < s.canvas.cells.length then some c else none) else s.cell? j := by
  simp only [State.cell?, State.setCell, List.getElem?_set]
  split
  · subst_vars; rfl
  · rfl

end Sys2Proof.Machine
end

