-- ==== Sys2Proof/Laws/Cascade.lean ====
section
/-!
SUPPORT. What the consequences of an event can do: the relation `Cascade` between the state before and after. Each shared
operation that an event sets off is shown to keep it, once, so that an invariant of a part it leaves alone needs no unfolding.
-/

namespace Sys2Proof.Machine

/-- What a consequence may do to one exposure slot. -/
structure SlotKeeps (x y : ExpSlot) : Prop where
  free : x.state = .free → y.state = .free
  tag : y.state ≠ .free → y.exposure = x.exposure
  plan : ∀ p ∈ y.placements, p ∈ x.placements
  scale : x.ScaleLaw → y.ScaleLaw

/-- What the consequences of an event leave alone, and the laws they keep. -/
structure Cascade (s t : State) : Prop where
  cal : t.cal = s.cal
  flats : t.flats = s.flats
  mem : t.mem = s.mem
  freeIndex : t.freeIndex = s.freeIndex
  pending : t.pending = s.pending
  storeState : t.store.state = s.store.state
  owed : t.store.owed = s.store.owed
  late : t.store.late = s.store.late
  interval : t.store.interval = s.store.interval
  rx : t.host.rx = s.host.rx
  lineErrors : t.host.lineErrors = s.host.lineErrors
  requests : t.host.requests = s.host.requests
  job : t.host.job = s.host.job
  answers : t.host.answers = s.host.answers
  mask : t.host.mask = s.host.mask
  line : t.host.line = s.host.line
  sources : ∀ x, t.host.source x = s.host.source x
  notices : s.host.notices.length ≤ Config.noticeRoom → t.host.notices.length ≤ Config.noticeRoom
  folded : s.host.PendingLaw → t.host.PendingLaw
  slots : ∀ k, SlotKeeps (s.slot k) (t.slot k)
  weights : s.WeightsPositive → t.WeightsPositive

theorem SlotKeeps.refl (x : ExpSlot) : SlotKeeps x x := ⟨id, fun _ => rfl, fun _ h => h, id⟩

theorem SlotKeeps.trans {x y z : ExpSlot} (a : SlotKeeps x y) (b : SlotKeeps y z) : SlotKeeps x z where
  free h := b.free (a.free h)
  tag h := (b.tag h).trans (a.tag fun hy => h (b.free hy))
  plan p h := a.plan p (b.plan p h)
  scale h := b.scale (a.scale h)

theorem SlotKeeps.empty (x : ExpSlot) : SlotKeeps x .empty where
  free _ := rfl
  tag h := absurd rfl h
  plan _ h := absurd h List.not_mem_nil
  scale _ h := absurd rfl h

theorem Cascade.refl (s : State) : Cascade s s where
  cal := rfl
  flats := rfl
  mem := rfl
  freeIndex := rfl
  pending := rfl
  storeState := rfl
  owed := rfl
  late := rfl
  interval := rfl
  rx := rfl
  lineErrors := rfl
  requests := rfl
  job := rfl
  answers := rfl
  mask := rfl
  line := rfl
  sources _ := rfl
  notices := id
  folded := id
  slots _ := .refl _
  weights := id

theorem Cascade.trans {s t u : State} (a : Cascade s t) (b : Cascade t u) : Cascade s u where
  cal := b.cal.trans a.cal
  flats := b.flats.trans a.flats
  mem := b.mem.trans a.mem
  freeIndex := b.freeIndex.trans a.freeIndex
  pending := b.pending.trans a.pending
  storeState := b.storeState.trans a.storeState
  owed := b.owed.trans a.owed
  late := b.late.trans a.late
  interval := b.interval.trans a.interval
  rx := b.rx.trans a.rx
  lineErrors := b.lineErrors.trans a.lineErrors
  requests := b.requests.trans a.requests
  job := b.job.trans a.job
  answers := b.answers.trans a.answers
  mask := b.mask.trans a.mask
  line := b.line.trans a.line
  sources x := (b.sources x).trans (a.sources x)
  notices h := b.notices (a.notices h)
  folded h := b.folded (a.folded h)
  slots k := (a.slots k).trans (b.slots k)
  weights h := b.weights (a.weights h)

/-- A fold of operations that each keep the relation keeps it. -/
theorem Cascade.foldl {α : Type} (f : State → α → State) (h : ∀ s a, Cascade s (f s a)) :
    ∀ (l : List α) (s : State), Cascade s (l.foldl f s)
  | [], s => .refl s
  | a :: rest, s => (h s a).trans (Cascade.foldl f h rest (f s a))

/-- An update of parts of the state that the relation says nothing about. -/
theorem Cascade.parts {s t : State} (hcal : t.cal = s.cal) (hflats : t.flats = s.flats) (hmem : t.mem = s.mem)
    (hfree : t.freeIndex = s.freeIndex) (hpend : t.pending = s.pending) (hslots : t.slots = s.slots)
    (hhost : t.host = s.host) (hst : t.store.state = s.store.state) (ho : t.store.owed = s.store.owed)
    (hl : t.store.late = s.store.late) (hi : t.store.interval = s.store.interval)
    (hp : s.WeightsPositive → ∀ ctx, t.place = some ctx → 1 ≤ ctx.weight) : Cascade s t where
  cal := hcal
  flats := hflats
  mem := hmem
  freeIndex := hfree
  pending := hpend
  storeState := hst
  owed := ho
  late := hl
  interval := hi
  rx := by rw [hhost]
  lineErrors := by rw [hhost]
  requests := by rw [hhost]
  job := by rw [hhost]
  answers := by rw [hhost]
  mask := by rw [hhost]
  line := by rw [hhost]
  sources x := by rw [hhost]
  notices h := by rw [hhost]; exact h
  folded h := by rw [hhost]; exact h
  slots k := by
    have : t.slot k = s.slot k := by simp only [State.slot, hslots]
    rw [this]; exact .refl _
  weights h := by
    refine ⟨fun k p hpm => h.1 k p ?_, hp h⟩
    have : t.slot k = s.slot k := by simp only [State.slot, hslots]
    rw [this] at hpm; exact hpm

/-! ## Single updates -/

theorem Cascade.setPort (s : State) (l : Fin 12) (p : Port) : Cascade s (s.setPort l p) :=
  .parts rfl rfl rfl rfl rfl rfl rfl rfl rfl rfl rfl fun h => h.2

theorem Cascade.modPort (s : State) (l : Fin 12) (f : Port → Port) : Cascade s (s.modPort l f) := .setPort s l _

theorem Cascade.setBuffer (s : State) (l : Fin 12) (b : List BufItem) : Cascade s (s.setBuffer l b) := .setPort s l _

theorem Cascade.setTile (s : State) (t : Fin 40) (x : Tile) : Cascade s (s.setTile t x) :=
  .parts rfl rfl rfl rfl rfl rfl rfl rfl rfl rfl rfl fun h => h.2

theorem Cascade.modTile (s : State) (t : Fin 40) (f : Tile → Tile) : Cascade s (s.modTile t f) := .setTile s t _

theorem Cascade.setTiles (s : State) (x : TileStore) : Cascade s { s with tiles := x } :=
  .parts rfl rfl rfl rfl rfl rfl rfl rfl rfl rfl rfl fun h => h.2

theorem Cascade.setMeasure (s : State) (l : Fin 12) (m : List Measuring) : Cascade s (s.setMeasure l m) :=
  .parts rfl rfl rfl rfl rfl rfl rfl rfl rfl rfl rfl fun h => h.2

theorem Cascade.setCanvas (s : State) (c : Canvas) : Cascade s { s with canvas := c } :=
  .parts rfl rfl rfl rfl rfl rfl rfl rfl rfl rfl rfl fun h => h.2

theorem Cascade.setCell (s : State) (i : Nat) (c : Cell) : Cascade s (s.setCell i c) := .setCanvas s _

theorem Cascade.setDrain (s : State) (d : Drain) : Cascade s { s with drain := d } :=
  .parts rfl rfl rfl rfl rfl rfl rfl rfl rfl rfl rfl fun h => h.2

theorem Cascade.setCarry (s : State) (v : Nat) : Cascade s { s with carry := v } :=
  .parts rfl rfl rfl rfl rfl rfl rfl rfl rfl rfl rfl fun h => h.2

theorem Cascade.setStore (s : State) (st : StoreCtl) (h1 : st.state = s.store.state) (h2 : st.owed = s.store.owed)
    (h3 : st.late = s.store.late) (h4 : st.interval = s.store.interval) : Cascade s { s with store := st } :=
  .parts rfl rfl rfl rfl rfl rfl rfl h1 h2 h3 h4 fun h => h.2

/-- The placement context is dropped, or replaced by one of positive weight. -/
theorem Cascade.setPlace (s : State) (p : Option PlaceCtx)
    (h : s.WeightsPositive → ∀ ctx, p = some ctx → 1 ≤ ctx.weight) : Cascade s { s with place := p } :=
  .parts rfl rfl rfl rfl rfl rfl rfl rfl rfl rfl rfl h

/-- The placement context is replaced by one of the same weight. -/
theorem Cascade.keepPlace (s : State) (ctx ctx' : PlaceCtx) (h : s.place = some ctx) (hw : ctx'.weight = ctx.weight) :
    Cascade s { s with place := some ctx' } :=
  .setPlace s _ fun hp c hc => by cases hc; rw [hw]; exact hp.2 ctx h

theorem Cascade.dropPlace (s : State) : Cascade s { s with place := none } := .setPlace s none fun _ _ h => nomatch h

theorem Cascade.claim (s : State) (c : Claim) : Cascade s (s.claim c) := by
  unfold State.claim StoreCtl.claim
  split
  · exact .refl s
  · exact .setStore s _ rfl rfl rfl rfl

theorem Cascade.withdraw (s : State) (c : Claim) : Cascade s (s.withdraw c) := .setStore s _ rfl rfl rfl rfl

theorem Cascade.freeStore (s : State) : Cascade s s.freeStore := .setStore s _ rfl rfl rfl rfl

theorem StoreCtl.grant_keeps (st : StoreCtl) :
    st.grant.state = st.state ∧ st.grant.owed = st.owed ∧ st.grant.late = st.late ∧ st.grant.interval = st.interval := by
  unfold StoreCtl.grant
  split
  · split <;> exact ⟨rfl, rfl, rfl, rfl⟩
  · exact ⟨rfl, rfl, rfl, rfl⟩

theorem Cascade.markPlacement (s : State) : Cascade s s.markPlacement := by
  unfold State.markPlacement
  split
  · rename_i ctx h
    split
    · exact .keepPlace s ctx _ h rfl
    · exact .refl s
  · exact .refl s

theorem Cascade.grant (s : State) : Cascade s s.grant := by
  have h := StoreCtl.grant_keeps s.store
  exact (Cascade.setStore s _ h.1 h.2.1 h.2.2.1 h.2.2.2).trans (.markPlacement _)

/-- One slot is replaced by one it may become. -/
theorem Cascade.setSlot (s : State) (k : Fin 4) (x : ExpSlot) (h : SlotKeeps (s.slot k) x) : Cascade s (s.setSlot k x) where
  cal := rfl
  flats := rfl
  mem := rfl
  freeIndex := rfl
  pending := rfl
  storeState := rfl
  owed := rfl
  late := rfl
  interval := rfl
  rx := rfl
  lineErrors := rfl
  requests := rfl
  job := rfl
  answers := rfl
  mask := rfl
  line := rfl
  sources _ := rfl
  notices := id
  folded := id
  slots j := by
    rw [State.slot_setSlot]
    split
    · rename_i hk; subst hk; exact h
    · exact .refl _
  weights hw := by
    refine ⟨fun j p hp => ?_, fun ctx hc => hw.2 ctx hc⟩
    rw [State.slot_setSlot] at hp
    split at hp
    · rename_i hk; exact hw.1 k p (h.plan p hp)
    · exact hw.1 j p hp

theorem Cascade.modSlot (s : State) (k : Fin 4) (f : ExpSlot → ExpSlot) (h : ∀ x, SlotKeeps x (f x)) : Cascade s (s.modSlot k f) :=
  .setSlot s k _ (h _)

/-! ## Notices -/

theorem NoticeKind.num_inj {j k : NoticeKind} (h : j.num = k.num) : j = k := by
  cases j <;> cases k <;> first | rfl | exact absurd h (by decide)

theorem HostLink.pendingOf_setPending (h : HostLink) (k j : NoticeKind) (p : Option PendingNotice) :
    (h.setPending k p).pendingOf j = if k = j then p else h.pendingOf j := by
  simp only [HostLink.pendingOf, HostLink.setPending, Fin.getElem_fin, Vector.getElem_set]
  by_cases hk : k = j
  · subst hk; simp
  · rw [if_neg hk, if_neg]
    intro hn
    exact hk (NoticeKind.num_inj (Fin.ext hn))

theorem HostLink.raise_spec (h : HostLink) (k : NoticeKind) (c : List Byte) :
    (h.takes k = true ∧ h.raise k c = { h with notices := h.notices ++ [⟨k, c, 1⟩] })
      ∨ (h.takes k = false ∧ h.raise k c = h.setPending k (some (foldNotice (h.pendingOf k) c))) := by
  unfold HostLink.raise
  cases hk : h.takes k
  · exact .inr ⟨rfl, rfl⟩
  · exact .inl ⟨rfl, rfl⟩

/-- Room that is left was there before one notice more. -/
theorem HostLink.takes_of_append (h : HostLink) (n : Notice) (j : NoticeKind)
    (hj : HostLink.takes { h with notices := h.notices ++ [n] } j = true) : h.takes j = true := by
  simp only [HostLink.takes, HostLink.masked, List.length_append, Bool.and_eq_true, decide_eq_true_eq] at hj ⊢
  exact ⟨hj.1, by simp only [List.length_singleton] at hj; omega⟩

theorem HostLink.raise_pendingLaw (h : HostLink) (k : NoticeKind) (c : List Byte) (hl : h.PendingLaw) :
    (h.raise k c).PendingLaw := by
  intro j hj
  rcases h.raise_spec k c with ⟨_, e⟩ | ⟨hf, e⟩
  · rw [e] at hj ⊢
    exact hl j (h.takes_of_append _ j hj)
  · rw [e] at hj ⊢
    rw [HostLink.pendingOf_setPending]
    split
    · rename_i hk
      subst hk
      exact absurd (show h.takes k = true from hj) (by rw [hf]; decide)
    · exact hl j hj

theorem HostLink.raise_notices (h : HostLink) (k : NoticeKind) (c : List Byte) (hl : h.notices.length ≤ Config.noticeRoom) :
    (h.raise k c).notices.length ≤ Config.noticeRoom := by
  rcases h.raise_spec k c with ⟨ht, e⟩ | ⟨_, e⟩
  · rw [e]
    simp only [HostLink.takes, Bool.and_eq_true, decide_eq_true_eq] at ht
    simp only [List.length_append, List.length_singleton]
    omega
  · rw [e]; exact hl

/-- A raise changes the notice queue and the pending table only. -/
theorem HostLink.raise_keeps (h : HostLink) (k : NoticeKind) (c : List Byte) :
    { h.raise k c with notices := h.notices, pendingNotices := h.pendingNotices } = h := by
  rcases h.raise_spec k c with ⟨_, e⟩ | ⟨_, e⟩
  · rw [e]
  · rw [e]; rfl

theorem Cascade.raise (s : State) (k : NoticeKind) (c : List Byte) : Cascade s (s.raise k c) where
  cal := rfl
  flats := rfl
  mem := rfl
  freeIndex := rfl
  pending := rfl
  storeState := rfl
  owed := rfl
  late := rfl
  interval := rfl
  rx := (congrArg HostLink.rx (s.host.raise_keeps k c) :)
  lineErrors := (congrArg HostLink.lineErrors (s.host.raise_keeps k c) :)
  requests := (congrArg HostLink.requests (s.host.raise_keeps k c) :)
  job := (congrArg HostLink.job (s.host.raise_keeps k c) :)
  answers := (congrArg HostLink.answers (s.host.raise_keeps k c) :)
  mask := (congrArg HostLink.mask (s.host.raise_keeps k c) :)
  line := (congrArg HostLink.line (s.host.raise_keeps k c) :)
  sources x := by
    cases x
    · exact (congrArg HostLink.answerSource (s.host.raise_keeps k c) :)
    · exact (congrArg HostLink.noticeSource (s.host.raise_keeps k c) :)
    · exact (congrArg HostLink.blockSource (s.host.raise_keeps k c) :)
  notices h := s.host.raise_notices k c h
  folded h := s.host.raise_pendingLaw k c h
  slots _ := .refl _
  weights := id

end Sys2Proof.Machine
end

