-- ==== Sys2Proof/Laws/Consequences.lean ====
section
/-!
SUPPORT. The shared operations that an event sets off keep `Cascade`, one lemma each.
-/

namespace Sys2Proof.Machine

/-! ## Slots -/

/-- A slot whose state, tag, plan and photometry stay as they were. -/
theorem SlotKeeps.same {x y : ExpSlot} (h1 : y.state = x.state) (h2 : y.exposure = x.exposure)
    (h3 : y.placements = x.placements) (h4 : y.photo = x.photo) : SlotKeeps x y where
  free h := h1.trans h
  tag _ := h2
  plan p h := h3 ▸ h
  scale h := by unfold ExpSlot.ScaleLaw at h ⊢; rw [h1, h4]; exact h

/-- A slot that is not FREE takes another state. -/
theorem SlotKeeps.live {x y : ExpSlot} (h0 : x.state ≠ .free) (h2 : y.exposure = x.exposure)
    (h3 : y.placements = x.placements) (h4 : y.photo = x.photo) : SlotKeeps x y where
  free h := absurd h h0
  tag _ := h2
  plan p h := h3 ▸ h
  scale h := by unfold ExpSlot.ScaleLaw at h ⊢; rw [h4]; exact fun _ => h h0

theorem ExpSlot.live_of_committed {x : ExpSlot} (h : x.isCommitted ≠ false) : x.state ≠ .free := by
  intro hf
  exact h (by simp [ExpSlot.isCommitted, hf])

/-! ## Canvas -/

theorem Cascade.claimRow (s : State) (ctx : PlaceCtx)
    (h : s.WeightsPositive → 1 ≤ ctx.weight) : Cascade s (s.claimRow ctx) :=
  (Cascade.setPlace s _ fun hp c hc => by cases hc; exact h hp).trans (.claim _ _)

theorem Cascade.leaveWait (s : State) (i : Nat) : Cascade s (s.leaveWait i) := by
  unfold State.leaveWait
  split
  · exact .refl s
  · rename_i ctx h
    split
    · dsimp only
      split
      · exact .claimRow s ctx fun hp => hp.2 ctx h
      · exact .keepPlace s ctx _ h rfl
    · exact .refl s

theorem Cascade.completeCell (s : State) (i : Nat) (c : Cell) : Cascade s (s.completeCell i c) :=
  ((Cascade.setCell s i _).trans (.setDrain _ _)).trans (.leaveWait _ i)

theorem Cascade.payCell (placed : Bool) (s : State) (i : Nat) : Cascade s (s.payCell placed i) := by
  unfold State.payCell
  split
  · exact .refl s
  · dsimp only
    split
    · split
      · exact .completeCell s i _
      · exact .setCell s i _
    · exact .setCell s i _

theorem Cascade.payCells (s : State) (placed : Bool) (cells : List Nat) : Cascade s (s.payCells placed cells) :=
  .foldl _ (Cascade.payCell placed) _ _

theorem Cascade.queueZeroing (s : State) (i : Nat) : Cascade s (s.queueZeroing i) := by
  unfold State.queueZeroing
  split
  · exact .refl s
  · dsimp only
    split
    · refine Cascade.trans ?_ (.claim _ _)
      exact .setStore s _ rfl rfl rfl rfl
    · exact .setStore s _ rfl rfl rfl rfl

theorem Cascade.cellZeroed (s : State) (i : Nat) : Cascade s (s.cellZeroed i) := by
  unfold State.cellZeroed
  split
  · exact .refl s
  · split
    · exact .setCell s i _
    · exact .refl s

theorem Cascade.endPlacementCanvas (s : State) : Cascade s s.endPlacementCanvas := by
  unfold State.endPlacementCanvas
  split
  · exact .refl s
  · rename_i ctx h
    dsimp only
    split
    · exact .claimRow s _ fun hp => hp.2 ctx h
    · exact .keepPlace s ctx _ h rfl

theorem Cascade.canvasToIdle (s : State) : Cascade s s.canvasToIdle :=
  (Cascade.setCanvas s _).trans (.endPlacementCanvas _)

theorem Cascade.finishTest (s : State) : Cascade s s.finishTest := by
  unfold State.finishTest
  split
  · exact (Cascade.raise s _ _).trans (.canvasToIdle _)
  · exact .refl s

theorem Cascade.drainCell (s : State) (i : Nat) : Cascade s (s.drainCell i) := by
  unfold State.drainCell
  split
  · exact ((Cascade.setCell s i _).trans (.setDrain _ _)).trans (.claim _ _)
  · exact (Cascade.setDrain s _).trans (.claim _ _)

theorem Cascade.drainTake (s : State) : Cascade s s.drainTake := by
  unfold State.drainTake
  split
  · split
    · exact .drainCell s _
    · exact .refl s
  · exact .refl s

theorem Cascade.settle (s : State) : Cascade s s.settle := (Cascade.drainTake s).trans (.grant _)

/-! ## Exposure slots -/

theorem Cascade.endSlot (s : State) (k : Fin 4) (o : DoneOutcome) : Cascade s (s.endSlot k o) :=
  (Cascade.raise s _ _).trans (.setSlot _ k _ (.empty _))

theorem Cascade.finishSlot (s : State) (k : Fin 4) : Cascade s (s.finishSlot k) := (Cascade.setCarry s _).trans (.endSlot _ k _)

theorem Cascade.settleSlot (s : State) (k : Fin 4) : Cascade s (s.settleSlot k) := by
  unfold State.settleSlot
  dsimp only
  split
  · exact .refl s
  · rename_i hc
    have hl := ExpSlot.live_of_committed hc
    split
    · exact .setSlot s k _ (.live hl rfl rfl rfl)
    · split
      · exact .setSlot s k _ (.live hl rfl rfl rfl)
      · generalize (if (s.slot k).timer = .running then TimerState.stopped else (s.slot k).timer) = v
        split
        · exact .setSlot s k _ (.live hl rfl rfl rfl)
        · refine Cascade.trans ?_ (.finishSlot _ k)
          exact .setSlot s k _ (.live hl rfl rfl rfl)

theorem Cascade.recordResolution (s : State) (k : Fin 4) (g : Fin 96) (why : Reason) :
    Cascade s (s.recordResolution k g why) := by
  unfold State.recordResolution
  dsimp only
  split
  · exact .refl s
  · split
    · split
      · refine Cascade.trans ?_ (.payCells _ _ _)
        exact .setSlot s k _ (.same rfl rfl rfl rfl)
      · exact .setSlot s k _ (.same rfl rfl rfl rfl)
    · exact .setSlot s k _ (.same rfl rfl rfl rfl)

/-! ## Leaving the store -/

theorem Cascade.withdrawWrite (s : State) (g : Fin 96) : Cascade s (s.withdrawWrite g) := by
  unfold State.withdrawWrite
  split
  · exact .withdraw s _
  · exact .refl s

theorem Cascade.dropMeasuring (s : State) (t : Fin 40) (l : Fin 12) : Cascade s (s.dropMeasuring t l) := by
  unfold State.dropMeasuring
  split
  · exact .refl s
  · split
    · exact (Cascade.withdraw s _).trans (.setMeasure _ l _)
    · exact .setMeasure s l _

theorem Cascade.leaveStore (s : State) (t : Fin 40) (o : TileOutcome) : Cascade s (s.leaveStore t o) := by
  unfold State.leaveStore
  dsimp only
  refine Cascade.trans ?_ (.setTile _ t _)
  refine Cascade.trans ?_ (.setTiles _ _)
  split
  · refine Cascade.trans ?_ (.raise _ _ _)
    exact .modSlot s _ _ fun _ => .same rfl rfl rfl rfl
  · exact .raise s _ _

theorem Cascade.discardTile (s : State) (t : Fin 40) (o : TileOutcome) : Cascade s (s.discardTile t o) := by
  unfold State.discardTile
  dsimp only
  split
  · split
    · exact (Cascade.withdrawWrite s _).trans (.leaveStore _ t o)
    · exact (Cascade.dropMeasuring s t _).trans (.leaveStore _ t o)
  · exact .leaveStore s t o

/-! ## Photometry -/

theorem Cascade.holdTile (s : State) (t : Fin 40) : Cascade s (s.holdTile t) := (Cascade.modTile s t _).trans (.setTiles _ _)

theorem Cascade.queueTile (s : State) (t : Fin 40) : Cascade s (s.queueTile t) := (Cascade.modTile s t _).trans (.setTiles _ _)

theorem Cascade.freezeSlot (take : State → State) (ht : ∀ s, Cascade s (take s)) (s : State) (k : Fin 4) (cause : FreezeCause)
    (g : Option (Fin 96)) : Cascade s (s.freezeSlot take k cause g) := by
  unfold State.freezeSlot
  dsimp only
  split
  · refine Cascade.trans (.trans (.trans (.setSlot s k _ ?_) (.foldl _ Cascade.queueTile _ _)) (ht _)) (.raise _ _ _)
    exact ⟨id, fun _ => rfl, fun _ h => h, id⟩
  · exact .refl s

theorem Cascade.exhaustedTest (take : State → State) (ht : ∀ s, Cascade s (take s)) (s : State) (k : Fin 4) :
    Cascade s (s.exhaustedTest take k) := by
  unfold State.exhaustedTest
  dsimp only
  split
  · exact .freezeSlot take ht s k _ _
  · exact .refl s

theorem Cascade.resolve (take : State → State) (ht : ∀ s, Cascade s (take s)) (s : State) (k : Fin 4) (g : Fin 96)
    (why : Reason) : Cascade s (s.resolve take k g why) := by
  unfold State.resolve
  split
  · exact .refl s
  · exact ((Cascade.recordResolution s k g why).trans (.settleSlot _ k)).trans (.exhaustedTest take ht _ k)

theorem Cascade.pressFreeze (take : State → State) (ht : ∀ s, Cascade s (take s)) (s : State) (g : Fin 96) :
    Cascade s (s.pressFreeze take g) := by
  refine .foldl _ (fun s k => ?_) _ _
  split
  · exact .refl s
  · exact .freezeSlot take ht s k _ _

/-- R96. Clamping lands within the limits. -/
theorem clampScale_mem {lower upper : Nat} (h : lower ≤ upper) (v : Nat) :
    lower ≤ clampScale lower upper v ∧ clampScale lower upper v ≤ upper := by
  unfold clampScale
  split
  · exact ⟨Nat.le_refl _, h⟩
  · split <;> omega

/-! ## Placement -/

theorem effectiveWeight_pos (warm : Bool) (weight factor : Nat) (h : 1 ≤ weight) : 1 ≤ effectiveWeight warm weight factor := by
  unfold effectiveWeight
  split
  · exact Nat.le_max_left _ _
  · exact h

theorem Cascade.startRow (s : State) (ctx : PlaceCtx) (row : Nat)
    (h : s.WeightsPositive → 1 ≤ ctx.weight) : Cascade s (s.startRow ctx row) := by
  unfold State.startRow
  dsimp only
  generalize (if ctx.ended = true then _ else _) = w
  split
  · exact (Cascade.setTile s _ _).trans (.claimRow _ _ h)
  · refine Cascade.trans (.setTile s _ _) (.setPlace _ _ ?_)
    intro hp c hc
    cases hc
    exact h hp

theorem Cascade.completePlacement (s : State) (t : Fin 40) : Cascade s (s.completePlacement t) := by
  unfold State.completePlacement
  dsimp only
  refine Cascade.trans ?_ (.dropPlace _)
  split
  · exact ((Cascade.modTile s t _).trans (.leaveStore _ t _)).trans (.resolve id (fun s => .refl s) _ _ _ _)
  · exact (Cascade.modTile s t _).trans (.leaveStore _ t _)

theorem Cascade.nextRow (s : State) (ctx : PlaceCtx) (row : Nat)
    (h : s.WeightsPositive → 1 ≤ ctx.weight) : Cascade s (s.nextRow ctx row) := by
  unfold State.nextRow
  split
  · exact .startRow s ctx _ h
  · exact .completePlacement s _

theorem ExpSlot.placementFor_mem {x : ExpSlot} {g : Fin 96} {p : Placement} (h : x.placementFor g = some p) :
    p ∈ x.placements := List.mem_of_find?_eq_some h

/-- A tile taken is placed with a positive weight, where every planned weight is positive. -/
theorem Cascade.takeTile (s : State) (t : Fin 40) : Cascade s (s.takeTile t) := by
  unfold State.takeTile
  dsimp only
  split
  · exact .refl s
  · split
    · exact .refl s
    · rename_i k _ _ p hp
      refine Cascade.trans ?_ (.nextRow _ _ 0 fun hw => hw.2 _ rfl)
      refine Cascade.trans (.setTile s t _) (.setPlace _ _ ?_)
      intro hw c hc
      cases hc
      exact effectiveWeight_pos _ _ _ (hw.1 k p (ExpSlot.placementFor_mem hp))

theorem Cascade.takeTiles : ∀ (n : Nat) (s : State), Cascade s (s.takeTiles n)
  | 0, s => .refl s
  | n + 1, s => by
    unfold State.takeTiles
    split
    · refine Cascade.trans ?_ (Cascade.takeTiles n _)
      exact (Cascade.setTiles s _).trans (.takeTile _ _)
    · exact .refl s
    · exact .refl s

theorem Cascade.take (s : State) : Cascade s s.take := .takeTiles 41 s

theorem Cascade.stopTile (s : State) (t : Fin 40) : Cascade s (s.stopTile t) := (Cascade.discardTile s t _).trans (.dropPlace _)

theorem Cascade.stopDetached (s : State) (t : Fin 40) : Cascade s (s.stopDetached t) := by
  unfold State.stopDetached
  split
  · exact .refl s
  · rename_i ctx h
    split
    · split
      · exact .keepPlace s ctx _ h rfl
      · exact (Cascade.withdraw s _).trans (.stopTile _ t)
    · exact .refl s

/-! ## Measurement, close and intake -/

theorem Photometry.updated_mem (p : Photometry) (e m : Int) (h : p.lower ≤ p.upper) :
    p.lower ≤ p.updated e m ∧ p.updated e m ≤ p.upper := clampScale_mem h _

theorem SlotKeeps.accept (x : ExpSlot) (l : List RefRec) (e m : F32) :
    SlotKeeps x { x with refs := l, photo := x.photo.accept e m } where
  free h := h
  tag _ := rfl
  plan _ h := h
  scale h := by
    intro hl
    have hx := h hl
    unfold Photometry.accept
    dsimp only
    split
    · exact Photometry.updated_mem _ _ _ (hx.1.trans hx.2)
    · exact hx

theorem Cascade.recordRef (s : State) (t : Fin 40) (k : Fin 4) (i : Nat) (r : RefResult) (f : Option F32) :
    Cascade s (s.recordRef t k i r f) := by
  unfold State.recordRef
  split
  · exact .refl s
  · dsimp only
    split
    · split
      · refine Cascade.trans ?_ (.freezeSlot State.take Cascade.take _ k _ _)
        refine Cascade.trans ?_ (.modTile _ t _)
        exact .setSlot s k _ (SlotKeeps.accept _ _ _ _)
      · refine Cascade.trans ?_ (.modTile _ t _)
        exact .setSlot s k _ (SlotKeeps.accept _ _ _ _)
    · refine Cascade.trans ?_ (.modTile _ t _)
      exact .setSlot s k _ ⟨id, fun _ => rfl, fun _ h => h, id⟩

theorem Cascade.routeTile (s : State) (t : Fin 40) (k : Fin 4) : Cascade s (s.routeTile t k) := by
  unfold State.routeTile
  dsimp only
  refine Cascade.trans (.trans ?_ (.exhaustedTest State.take Cascade.take _ k)) (.settleSlot _ k)
  split
  · exact .modTile s t _
  · split
    · exact .holdTile s t
    · exact (Cascade.queueTile s t).trans (.take _)

theorem Cascade.measureStep (s : State) (l : Fin 12) : Cascade s (s.measureStep l).1 := by
  unfold State.measureStep
  split
  · exact .refl s
  · dsimp only
    split
    · exact .setMeasure s l _
    · split
      · exact (Cascade.setMeasure s l _).trans (.routeTile _ _ _)
      · split
        · exact .setMeasure s l _
        · split
          · dsimp only
            refine Cascade.trans ?_ (.recordRef _ _ _ _ _ _)
            exact .setMeasure s l _
          · split
            · dsimp only
              refine Cascade.trans ?_ (.recordRef _ _ _ _ _ _)
              exact .setMeasure s l _
            · exact .claim s _

theorem Cascade.measureLoop (l : Fin 12) : ∀ (n : Nat) (s : State), Cascade s (s.measureLoop l n)
  | 0, s => .refl s
  | n + 1, s => by
    unfold State.measureLoop
    dsimp only
    split
    · exact (Cascade.measureStep s l).trans (Cascade.measureLoop l n _)
    · exact .measureStep s l

theorem Cascade.measureRun (s : State) (l : Fin 12) : Cascade s (s.measureRun l) := .measureLoop l _ s

theorem Cascade.closeTile (l : Fin 12) (truncated : Bool) (s : State) (t : Fin 40) : Cascade s (s.closeTile l truncated t) := by
  unfold State.closeTile
  dsimp only
  split
  · split
    · refine Cascade.trans ?_ (.discardTile _ t _)
      exact (Cascade.withdrawWrite s _).trans (.setTile _ t _)
    · split
      · refine Cascade.trans ?_ (.resolve State.take Cascade.take _ _ _ _)
        refine Cascade.trans ?_ (.discardTile _ t _)
        exact (Cascade.withdrawWrite s _).trans (.setTile _ t _)
      · split
        · refine Cascade.trans ?_ (.measureRun _ l)
          exact ((Cascade.withdrawWrite s _).trans (.setTile _ t _)).trans (.setMeasure _ l _)
        · exact ((Cascade.withdrawWrite s _).trans (.setTile _ t _)).trans (.setMeasure _ l _)
  · exact .refl s

theorem Cascade.closeTiles (s : State) (l : Fin 12) (truncated : Bool) : Cascade s (s.closeTiles l truncated) :=
  .foldl _ (Cascade.closeTile l truncated) _ _

theorem Cascade.intakeItems (l : Fin 12) : ∀ (items : List BufItem) (s : State), Cascade s (s.intakeItems l items)
  | [], s => .setBuffer s l _
  | .truncation :: _, s => .setBuffer s l _
  | .start _ _ :: _, s => .setBuffer s l _
  | .finish :: rest, s => by
    unfold State.intakeItems
    dsimp only
    split
    · exact ((Cascade.setBuffer s l _).trans (.closeTiles _ l _)).trans (Cascade.intakeItems l rest _)
    · exact (Cascade.setBuffer s l _).trans (.closeTiles _ l _)
  | .row b :: rest, s => by
    unfold State.intakeItems
    split
    · exact Cascade.intakeItems l rest s
    · exact (Cascade.setBuffer s l _).trans (.claim _ _)

theorem Cascade.intakeRun (s : State) (l : Fin 12) : Cascade s (s.intakeRun l) := by
  unfold State.intakeRun
  split
  · exact .intakeItems l _ s
  · exact .refl s

theorem Cascade.resumeLink (s : State) (l : Fin 12) : Cascade s (s.resumeLink l) :=
  (Cascade.measureRun s l).trans (.intakeRun _ l)

/-! ## Readout start, but for the armed transfers -/

theorem Cascade.startSegment (s : State) (l : Fin 12) (k : Fin 4) (e : Nat) (lat : Latched) (g : Fin 96) :
    Cascade s (s.startSegment l k e lat g) := by
  unfold State.startSegment
  dsimp only
  split
  · exact .resolve State.take Cascade.take s k g _
  · split
    · exact .resolve State.take Cascade.take s k g _
    · split
      · exact (Cascade.resolve State.take Cascade.take s k g _).trans (.pressFreeze State.take Cascade.take _ g)
      · exact (Cascade.setTile s _ _).trans (.modSlot _ k _ fun _ => .same rfl rfl rfl rfl)

theorem Cascade.handleSegment (l : Fin 12) (k : Fin 4) (e : Nat) (lat : Latched) (s : State) (a : Fin 8) :
    Cascade s (s.handleSegment l k e lat a) := by
  unfold State.handleSegment
  dsimp only
  split
  · exact .refl s
  · split
    · exact .setSlot s k _ (.same rfl rfl rfl rfl)
    · split
      · exact .refl s
      · exact .startSegment s l k e lat _

theorem Cascade.associate (s : State) (l : Fin 12) (e row : Nat) : Cascade s (s.associate l e row) := by
  unfold State.associate
  split
  · exact .raise s _ _
  · dsimp only
    refine Cascade.trans ?_ (.settleSlot _ _)
    refine Cascade.trans ?_ (.foldl _ (Cascade.handleSegment l _ e _) _ _)
    refine .modSlot s _ _ fun x => ?_
    split
    · exact .same rfl rfl rfl rfl
    · exact .refl x

theorem Cascade.latchContext (s : State) (l : Fin 12) (lat : Latched) (rest : List BufItem) :
    Cascade s (s.latchContext l lat rest) := .modPort s l _

/-! ## Links -/

theorem Cascade.setPortState (s : State) (l : Fin 12) (st : PortState) (reason : Option FaultReason) (cause : LinkCause) :
    Cascade s (s.setPortState l st reason cause) := by
  unfold State.setPortState
  dsimp only
  split
  · exact .setPort s l _
  · exact (Cascade.setPort s l _).trans (.raise _ _ _)

theorem Cascade.detect (s : State) (l : Fin 12) : Cascade s (s.detect l) := by
  unfold State.detect
  dsimp only
  split
  · exact (Cascade.modPort s l _).trans (.setPortState _ l _ _ _)
  · exact .refl s

theorem Cascade.endRelay (s : State) (l : Fin 12) (r : Relay) (o : RelayOutcome) : Cascade s (s.endRelay l r o) :=
  (Cascade.modPort s l _).trans (.raise _ _ _)

theorem Cascade.cutRelay (s : State) (l : Fin 12) (o : RelayOutcome) : Cascade s (s.cutRelay l o) := by
  unfold State.cutRelay
  dsimp only
  split
  · exact .endRelay s l _ o
  · exact .refl s

theorem Cascade.closeLink (s : State) (l : Fin 12) (o : RelayOutcome) : Cascade s (s.closeLink l o) :=
  (((Cascade.modPort s l _).trans (.withdraw _ _)).trans (.closeTiles _ l _)).trans (.cutRelay _ l o)

theorem Cascade.loseLink (s : State) (l : Fin 12) (st : PortState) (cause : LinkCause) (o : RelayOutcome)
    (f : Port → Port) : Cascade s (s.loseLink l st cause o f) :=
  ((Cascade.setPortState s l st _ cause).trans (.closeLink _ l o)).trans (.modPort _ l f)

end Sys2Proof.Machine
end

