-- ==== Sys2Proof/Laws/Arrive.lean ====
section
/-!
SUPPORT. What the end of an event at the host link can do: the outbound grant changes the host link's own fields and the drain
unit's state alone, and a request that finds the handler free is served at once.
-/

namespace Sys2Proof.Machine

/-! ## The outbound grant -/

/-- What an outbound grant leaves alone: everything but the outbound half of the host link and the drain unit's state. -/
structure Outbound (s t : State) : Prop where
  rest : { t with host := s.host, drain := { t.drain with state := s.drain.state } } = s
  rx : t.host.rx = s.host.rx
  lineErrors : t.host.lineErrors = s.host.lineErrors
  requests : t.host.requests = s.host.requests
  job : t.host.job = s.host.job
  mask : t.host.mask = s.host.mask

theorem Outbound.refl (s : State) : Outbound s s := ⟨rfl, rfl, rfl, rfl, rfl, rfl⟩

theorem HostLink.setSource_keeps (h : HostLink) (x : Source) (v : SourceState) :
    (h.setSource x v).rx = h.rx ∧ (h.setSource x v).lineErrors = h.lineErrors ∧ (h.setSource x v).requests = h.requests
      ∧ (h.setSource x v).job = h.job ∧ (h.setSource x v).mask = h.mask ∧ (h.setSource x v).answers = h.answers
      ∧ (h.setSource x v).notices = h.notices ∧ (h.setSource x v).pendingNotices = h.pendingNotices
      ∧ (h.setSource x v).line = h.line := by
  cases x <;> exact ⟨rfl, rfl, rfl, rfl, rfl, rfl, rfl, rfl, rfl⟩

theorem HostLink.removeSource_keeps (h : HostLink) (x : Source) :
    (h.removeSource x).rx = h.rx ∧ (h.removeSource x).lineErrors = h.lineErrors
      ∧ (h.removeSource x).requests = h.requests ∧ (h.removeSource x).job = h.job ∧ (h.removeSource x).mask = h.mask
      ∧ (h.removeSource x).answers = h.answers ∧ (h.removeSource x).notices = h.notices
      ∧ (h.removeSource x).pendingNotices = h.pendingNotices ∧ (h.removeSource x).line = h.line := by
  cases x <;> exact ⟨rfl, rfl, rfl, rfl, rfl, rfl, rfl, rfl, rfl⟩

theorem HostLink.moveKind_keeps (h : HostLink) (k : NoticeKind) :
    { h.moveKind k with notices := h.notices, pendingNotices := h.pendingNotices } = h := by
  unfold HostLink.moveKind
  split
  · rfl
  · split <;> rfl

theorem HostLink.moves_keep : ∀ (l : List NoticeKind) (h : HostLink),
    { l.foldl HostLink.moveKind h with notices := h.notices, pendingNotices := h.pendingNotices } = h
  | [], h => rfl
  | k :: l, h => by
    have h1 := HostLink.moves_keep l (h.moveKind k)
    have h2 := HostLink.moveKind_keeps h k
    rw [List.foldl_cons]
    generalize l.foldl HostLink.moveKind (h.moveKind k) = u at h1
    generalize h.moveKind k = v at h1 h2
    cases u; cases v; cases h
    simp only [HostLink.mk.injEq] at h1 h2 ⊢
    simp_all

/-- R181. A move of pending entries changes the notice queue and the pending table only. -/
theorem HostLink.movePending_keeps (h : HostLink) :
    { h.movePending with notices := h.notices, pendingNotices := h.pendingNotices } = h := HostLink.moves_keep noticeKinds h

/-- Two host links that differ at most in the notice queue and the pending table. -/
theorem HostLink.fields_of_notices {u h : HostLink}
    (e : { u with notices := h.notices, pendingNotices := h.pendingNotices } = h) :
    u.rx = h.rx ∧ u.lineErrors = h.lineErrors ∧ u.requests = h.requests ∧ u.job = h.job ∧ u.mask = h.mask
      ∧ u.answers = h.answers ∧ u.line = h.line ∧ ∀ x, u.source x = h.source x := by
  cases u
  cases h
  simp only [HostLink.mk.injEq] at e ⊢
  obtain ⟨h1, h2, h3, h4, h5, _, h7, _, h9, h10, h11, h12⟩ := e
  subst h1 h2 h3 h4 h5 h7 h9 h10 h11 h12
  exact ⟨rfl, rfl, rfl, rfl, rfl, rfl, rfl, fun x => by cases x <;> rfl⟩

theorem Outbound.movePending {s t : State} (a : Outbound s t) : Outbound s t.movePending := by
  have h := HostLink.fields_of_notices t.host.movePending_keeps
  unfold State.movePending
  generalize t.host.movePending = u at h
  exact ⟨a.rest, h.1.trans a.rx, h.2.1.trans a.lineErrors, h.2.2.1.trans a.requests, h.2.2.2.1.trans a.job,
    h.2.2.2.2.1.trans a.mask⟩

theorem Outbound.takeMessage {s t : State} {x : Source} {m : Message} (h : s.takeMessage x = some (m, t)) : Outbound s t := by
  unfold State.takeMessage at h
  split at h <;> split at h
  all_goals first
    | (cases h; exact ⟨rfl, rfl, rfl, rfl, rfl, rfl⟩)
    | cases h

theorem Outbound.grantSource (s : State) (x : Source) : Outbound s (s.grantSource x) := by
  unfold State.grantSource
  split
  · exact .refl s
  · rename_i m t h
    have ht := Outbound.takeMessage h
    have h1 := HostLink.removeSource_keeps t.host x
    have h3 : ∀ v, Outbound s { t with host := { (t.host.removeSource x).setSource x v with line := some m } } := fun v => by
      have h2 := HostLink.setSource_keeps (t.host.removeSource x) x v
      exact ⟨ht.rest, h2.1.trans (h1.1.trans ht.rx), h2.2.1.trans (h1.2.1.trans ht.lineErrors),
        h2.2.2.1.trans (h1.2.2.1.trans ht.requests), h2.2.2.2.1.trans (h1.2.2.2.1.trans ht.job),
        h2.2.2.2.2.1.trans (h1.2.2.2.2.1.trans ht.mask)⟩
    dsimp only
    split
    · exact (h3 _).movePending
    · exact h3 _

theorem Outbound.outboundGrant (s : State) : Outbound s s.outboundGrant := by
  unfold State.outboundGrant
  split
  · exact .refl s
  · split
    · exact .refl s
    · exact .grantSource s _

/-! ## The request handler -/

theorem State.handlerRun_idle (s : State) (h : s.host.requests = []) : s.handlerRun = s := by
  unfold State.handlerRun
  rw [h]
  rfl

/-- With no request waiting, the end of an event is the outbound grant. -/
theorem State.pump_idle (s : State) (h : s.host.requests = []) : s.pump = s.outboundGrant := by
  unfold State.pump
  rw [s.handlerRun_idle h, State.handlerRun_idle _ ((Outbound.outboundGrant s).requests.trans h)]

/-- R177. A request that finds the handler free and none before it is served in its arrival event, and the free line is granted. -/
theorem State.arrive_served (s : State) (tag : Byte) (r : Request) (h1 : s.host.requests = [])
    (h2 : s.host.handlerFree = true) (h3 : (s.serve tag r).host.requests = []) :
    s.arrive tag r = (s.serve tag r).outboundGrant := by
  have e : ({ s with host := { s.host with requests := s.host.requests ++ [(tag, r)] } } : State).handlerRun
      = s.serve tag r := by
    have hs : ({ s with host := { s.host with requests := [] } } : State) = s := by rw [← h1]
    unfold State.handlerRun
    rw [h1]
    show State.handlerLoop 1 _ = _
    unfold State.handlerLoop
    show (if s.host.handlerFree = true then _ else _) = _
    rw [if_pos h2]
    show State.serve { s with host := { s.host with requests := [] } } tag r = _
    rw [hs]
  unfold State.arrive
  rw [if_neg (by rw [h1]; decide)]
  unfold State.pump
  rw [e, State.handlerRun_idle _ ((Outbound.outboundGrant _).requests.trans h3)]

end Sys2Proof.Machine
end

