-- ==== Sys2Proof/Laws/Memory.lean ====
section
/-!
SUPPORT. The regions of the canvas store: every operation keeps the canonical form, and each reads back what was written.
-/

namespace Sys2Proof.Machine

namespace Region

variable {α : Type} [DecidableEq α]

/-- A weaker lower bound on the keys. -/
theorem wfFrom_mono (d : α) {lo lo' : Nat} (h : lo' ≤ lo) :
    ∀ {m : List (Nat × α)}, wfFrom d lo m = true → wfFrom d lo' m = true
  | [], _ => rfl
  | (k, v) :: rest, hm => by
    simp only [wfFrom, Bool.and_eq_true, decide_eq_true_eq] at hm ⊢
    exact ⟨⟨by omega, hm.1.2⟩, hm.2⟩

theorem write_wfFrom (d : α) (key : Nat) (v : α) :
    ∀ {lo : Nat} {m : List (Nat × α)}, lo ≤ key → wfFrom d lo m = true → wfFrom d lo (write d m key v) = true
  | lo, [], h, _ => by
    unfold write
    split
    · rfl
    · rename_i hv
      simp only [wfFrom, Bool.and_eq_true, decide_eq_true_eq]
      exact ⟨⟨h, hv⟩, trivial⟩
  | lo, (k, w) :: rest, h, hm => by
    have hm' := hm
    simp only [wfFrom, Bool.and_eq_true, decide_eq_true_eq] at hm'
    obtain ⟨⟨hlo, hw⟩, hrest⟩ := hm'
    unfold write
    split
    · rename_i hlt
      split
      · exact hm
      · rename_i hv
        simp only [wfFrom, Bool.and_eq_true, decide_eq_true_eq]
        exact ⟨⟨h, hv⟩, ⟨by omega, hw⟩, hrest⟩
    · split
      · rename_i heq
        split
        · exact wfFrom_mono d (by omega) hrest
        · rename_i hv
          simp only [wfFrom, Bool.and_eq_true, decide_eq_true_eq]
          exact ⟨⟨h, hv⟩, by rw [heq]; exact hrest⟩
      · simp only [wfFrom, Bool.and_eq_true, decide_eq_true_eq]
        exact ⟨⟨hlo, hw⟩, write_wfFrom d key v (by omega) hrest⟩

/-- Writing keeps the canonical form. -/
theorem write_wf (d : α) (m : List (Nat × α)) (key : Nat) (v : α) (h : wf d m = true) : wf d (write d m key v) = true :=
  write_wfFrom d key v (Nat.zero_le _) h

/-- Clearing keeps the canonical form. -/
theorem clear_wfFrom (d : α) (a b : Nat) :
    ∀ {lo : Nat} {m : List (Nat × α)}, wfFrom d lo m = true → wfFrom d lo (clear a b m) = true
  | _, [], _ => rfl
  | lo, (k, w) :: rest, hm => by
    simp only [wfFrom, Bool.and_eq_true, decide_eq_true_eq] at hm
    unfold clear
    split
    · exact wfFrom_mono d (by omega) (clear_wfFrom d a b hm.2)
    · simp only [wfFrom, Bool.and_eq_true, decide_eq_true_eq]
      exact ⟨hm.1, clear_wfFrom d a b hm.2⟩

theorem clear_wf (d : α) (a b : Nat) (m : List (Nat × α)) (h : wf d m = true) : wf d (clear a b m) = true :=
  clear_wfFrom d a b h

/-- Writing a run keeps the canonical form. -/
theorem writeRun_wf (d : α) : ∀ (vs : List α) (m : List (Nat × α)) (key : Nat), wf d m = true → wf d (writeRun d m key vs) = true
  | [], _, _, h => h
  | v :: rest, m, key, h => writeRun_wf d rest _ _ (write_wf d m key v h)

theorem read_of_wfFrom (d : α) {key : Nat} : ∀ {lo : Nat} {m : List (Nat × α)}, wfFrom d lo m = true → key < lo → read d m key = d
  | _, [], _, _ => rfl
  | lo, (k, w) :: rest, hm, h => by
    simp only [wfFrom, Bool.and_eq_true, decide_eq_true_eq] at hm
    unfold read
    rw [if_neg (by omega)]
    exact read_of_wfFrom d hm.2 (by omega)

theorem read_writeFrom (d : α) (key : Nat) (v : α) (j : Nat) :
    ∀ {lo : Nat} {m : List (Nat × α)}, wfFrom d lo m = true → read d (write d m key v) j = if j = key then v else read d m j
  | _, [], _ => by
    unfold write
    split
    · rename_i hv; subst hv; simp [read]
    · simp only [read, eq_comm]
  | lo, (k, w) :: rest, hm => by
    simp only [wfFrom, Bool.and_eq_true, decide_eq_true_eq] at hm
    obtain ⟨⟨_, hw⟩, hrest⟩ := hm
    unfold write
    split
    · rename_i hlt
      split
      · rename_i hv
        by_cases hj : j = key
        · rw [if_pos hj, hv]
          simp only [read]
          rw [if_neg (by omega)]
          exact read_of_wfFrom d hrest (by omega)
        · rw [if_neg hj]
      · simp only [read, eq_comm]
    · split
      · rename_i heq
        split
        · rename_i hv
          by_cases hj : j = key
          · rw [if_pos hj, hv]
            exact read_of_wfFrom d hrest (by omega)
          · rw [if_neg hj]
            simp only [read]
            rw [if_neg (by omega)]
        · by_cases hj : j = key
          · simp [read, hj]
          · simp only [read, if_neg hj]
            rw [if_neg (by omega), if_neg (by omega)]
      · rename_i hne
        simp only [read]
        rw [read_writeFrom d key v j hrest]
        by_cases hk : k = j
        · rw [if_pos hk, if_pos hk, if_neg (by omega)]
        · rw [if_neg hk, if_neg hk]

/-- A key reads as it was last written; every other key reads as before. -/
theorem read_write (d : α) (m : List (Nat × α)) (key : Nat) (v : α) (j : Nat) (h : wf d m = true) :
    read d (write d m key v) j = if j = key then v else read d m j :=
  read_writeFrom d key v j h

omit [DecidableEq α] in
/-- A cleared key reads as an unlisted one; every other key reads as before. -/
theorem read_clear (d : α) (a b j : Nat) :
    ∀ m : List (Nat × α), read d (clear a b m) j = if a ≤ j ∧ j < b then d else read d m j
  | [] => by simp [clear, read]
  | (k, w) :: rest => by
    unfold clear
    split
    · rename_i h
      rw [read_clear d a b j rest]
      by_cases hj : a ≤ j ∧ j < b
      · rw [if_pos hj, if_pos hj]
      · rw [if_neg hj, if_neg hj]
        simp only [read]
        rw [if_neg (by omega)]
    · rename_i h
      simp only [read]
      rw [read_clear d a b j rest]
      by_cases hk : k = j
      · rw [if_pos hk, if_neg (by omega), if_pos hk]
      · rw [if_neg hk, if_neg hk]

end Region

/-- Every memory operation keeps the canonical form. -/
theorem Memory.setTileRow_wf (m : Memory) (t : Fin 40) (row : Nat) (px : List CalPixel) (h : m.wf = true) :
    (m.setTileRow t row px).wf = true := by
  simp only [Memory.wf, Memory.setTileRow, Bool.and_eq_true] at h ⊢
  exact ⟨⟨Region.write_wf _ _ _ _ h.1.1, h.1.2⟩, h.2⟩

theorem Memory.setCanvasPixel_wf (m : Memory) (cell place : Nat) (p : CanvasPixel) (h : m.wf = true) :
    (m.setCanvasPixel cell place p).wf = true := by
  simp only [Memory.wf, Memory.setCanvasPixel, Bool.and_eq_true] at h ⊢
  exact ⟨⟨h.1.1, Region.write_wf _ _ _ _ h.1.2⟩, h.2⟩

theorem Memory.zeroCell_wf (m : Memory) (cell : Nat) (h : m.wf = true) : (m.zeroCell cell).wf = true := by
  simp only [Memory.wf, Memory.zeroCell, Bool.and_eq_true] at h ⊢
  exact ⟨⟨h.1.1, Region.clear_wf _ _ _ _ h.1.2⟩, h.2⟩

theorem Memory.setFlatRun_wf (m : Memory) (entry : Fin 24) (place : Nat) (values : List Nat) (h : m.wf = true) :
    (m.setFlatRun entry place values).wf = true := by
  simp only [Memory.wf, Memory.setFlatRun, Bool.and_eq_true] at h ⊢
  exact ⟨h.1, Region.writeRun_wf _ _ _ _ h.2⟩

/-- The store's contents at power-on are in canonical form. -/
theorem State.reset_mem_wf : State.reset.mem.wf = true := rfl

/-- A canvas pixel reads as it was written. -/
theorem Memory.canvasPixel_setCanvasPixel (m : Memory) (c p c' p' : Nat) (x : CanvasPixel) (h : m.wf = true) :
    (m.setCanvasPixel c p x).canvasPixel c' p' = if cellKey c' p' = cellKey c p then x else m.canvasPixel c' p' := by
  simp only [Memory.wf, Bool.and_eq_true] at h
  exact Region.read_write _ _ _ _ _ h.1.2

/-- A row of a tile reads as it was written. -/
theorem Memory.tileRow_setTileRow (m : Memory) (t u : Fin 40) (r q : Nat) (px : List CalPixel) (h : m.wf = true) :
    (m.setTileRow t r px).tileRow u q = if tileRowKey u q = tileRowKey t r then px else m.tileRow u q := by
  simp only [Memory.wf, Bool.and_eq_true] at h
  exact Region.read_write _ _ _ _ _ h.1.1

/-- Zeroing clears its cell's area and leaves every other. -/
theorem Memory.canvasPixel_zeroCell (m : Memory) (cell c p : Nat) (hp : p < Config.cellPixels) :
    (m.zeroCell cell).canvasPixel c p = if c = cell then CanvasPixel.zero else m.canvasPixel c p := by
  unfold Memory.zeroCell Memory.canvasPixel
  rw [Region.read_clear]
  have hk : (cellKey cell 0 ≤ cellKey c p ∧ cellKey c p < cellKey (cell + 1) 0) ↔ c = cell := by
    simp only [cellKey, Config.cellPixels] at hp ⊢
    omega
  simp only [hk]

end Sys2Proof.Machine
end

