-- ==== Sys2Proof/Laws/Moves.lean ====
section
/-!
SUPPORT. What the moves of tiles into holding and into the placement queue do to the store (R86, R87), one tile and a list of them.
-/

namespace Sys2Proof.Machine

/-- A busy placement unit takes no tile (R112). -/
theorem State.take_of_busy (s : State) (h : s.place ≠ none) : s.take = s := by
  unfold State.take State.takeTiles
  cases hp : s.place with
  | none => exact absurd hp h
  | some _ => rfl

/-- An idle unit before an empty queue takes no tile. -/
theorem State.take_of_empty (s : State) (h : s.tiles.queue = []) : s.take = s := by
  unfold State.take State.takeTiles
  cases hp : s.place <;> rw [h]

/-- R86. A tile held for its scale takes the hold counter, which rises; nothing else of the store moves. -/
theorem State.holdTile_moves (s : State) (t : Fin 40) :
    (∀ n, (s.holdTile t).tile n = if n = t then { s.tile t with state := .heldScale, holdOrder := some s.tiles.holdCounter } else s.tile n)
    ∧ (s.holdTile t).tiles.holdCounter = wrapSucc16 s.tiles.holdCounter
    ∧ (s.holdTile t).tiles.holding = s.tiles.holding ++ [t] ∧ (s.holdTile t).tiles.queue = s.tiles.queue
    ∧ { s.holdTile t with tiles := s.tiles } = s :=
  ⟨fun n => (State.tile_setTile s t n _).trans (if_congr eq_comm rfl rfl), rfl, rfl, rfl, rfl⟩

/-- R87. A queued tile stands at the tail of the queue and is held no more. -/
theorem State.queueTile_moves (s : State) (t : Fin 40) :
    (∀ n, (s.queueTile t).tile n = if n = t then { s.tile t with state := .queued, holdOrder := none } else s.tile n)
    ∧ (s.queueTile t).tiles.queue = s.tiles.queue ++ [t]
    ∧ (s.queueTile t).tiles.holding = s.tiles.holding.filter (fun u => decide (u ≠ t))
    ∧ (s.queueTile t).tiles.holdCounter = s.tiles.holdCounter ∧ { s.queueTile t with tiles := s.tiles } = s :=
  ⟨fun n => (State.tile_setTile s t n _).trans (if_congr eq_comm rfl rfl), rfl, rfl, rfl, rfl⟩

/-- Tiles queued one after another: what a freeze does before the unit takes (R107). -/
theorem State.queueTiles_moves (l : List (Fin 40)) (s : State) :
    (∀ n, (l.foldl State.queueTile s).tile n = if n ∈ l then { s.tile n with state := .queued, holdOrder := none } else s.tile n)
    ∧ (l.foldl State.queueTile s).tiles.queue = s.tiles.queue ++ l
    ∧ (l.foldl State.queueTile s).tiles.holding = s.tiles.holding.filter (fun u => decide (u ∉ l))
    ∧ (l.foldl State.queueTile s).tiles.holdCounter = s.tiles.holdCounter
    ∧ { l.foldl State.queueTile s with tiles := s.tiles } = s := by
  induction l generalizing s with
  | nil => exact ⟨fun n => by simp, by simp, by simp, rfl, rfl⟩
  | cons t l ih =>
    obtain ⟨ht, hq, hh, hc, he⟩ := ih (s.queueTile t)
    obtain ⟨ht', hq', hh', hc', he'⟩ := s.queueTile_moves t
    rw [List.foldl_cons]
    refine ⟨fun n => ?_, by rw [hq, hq']; simp, ?_, hc.trans hc', ?_⟩
    · rw [ht, ht']
      by_cases h1 : n = t
      · subst h1; by_cases h2 : n ∈ l <;> simp [h2]
      · simp [h1]
    · rw [hh, hh', List.filter_filter]; congr 1; funext u; by_cases h1 : u = t <;> by_cases h2 : u ∈ l <;> simp [h1, h2]
    · exact (congrArg (fun u : State => ({ u with tiles := s.tiles } : State)) he).trans he'

end Sys2Proof.Machine
end

