-- ==== Sys2Proof/Laws/PerInstr.lean ====
section
/-!
SUPPORT. The family `Fields`: a well-formed request command's payload reads back as the request it stands for, every field at
its own place (R186). First what each reader makes of what each coder wrote.
-/

namespace Sys2Proof.Machine

/-! ## Readers of single fields -/

theorem Take.bind_apply {α β : Type} (f : Take α) (g : α → Take β) (b : List Byte) :
    (f >>= g) b = match f b with | none => none | some (a, rest) => g a rest := by
  show (f b).bind _ = _
  cases f b <;> rfl

theorem Take.pure_apply {α : Type} (a : α) (b : List Byte) : (pure a : Take α) b = some (a, b) := rfl

theorem take8_code8 (n : Nat) (h : fitsU 1 n = true) (rest : List Byte) : take8 (code8 n ++ rest) = some (n, rest) := by
  have h : n < 256 := by simpa [fitsU] using h
  simp [take8, code8, Take.bind_apply, Take.pure_apply, takeByte, Nat.mod_eq_of_lt h]

theorem take16_code16 (n : Nat) (h : fitsU 2 n = true) (rest : List Byte) : take16 (code16 n ++ rest) = some (n, rest) := by
  have h : n < 65536 := by simpa [fitsU] using h
  show some ((BitVec.ofNat 8 n).toNat + 256 * (BitVec.ofNat 8 (n / 256)).toNat, rest) = _
  simp only [BitVec.toNat_ofNat, Option.some.injEq, Prod.mk.injEq, and_true]
  omega

theorem take32_code32 (n : Nat) (h : fitsU 4 n = true) (rest : List Byte) : take32 (code32 n ++ rest) = some (n, rest) := by
  have h : n < 4294967296 := by simpa [fitsU] using h
  show some ((BitVec.ofNat 8 n).toNat + 256 * (BitVec.ofNat 8 (n / 256)).toNat + 65536 * ((BitVec.ofNat 8 (n / 65536)).toNat
    + 256 * (BitVec.ofNat 8 (n / 65536 / 256)).toNat), rest) = _
  simp only [BitVec.toNat_ofNat, Option.some.injEq, Prod.mk.injEq, and_true]
  omega

theorem fitsU_toNat {w b : Nat} (v : BitVec w) (h : w ≤ 8 * b) : fitsU b v.toNat = true := by
  simp only [fitsU, decide_eq_true_eq]
  exact lt_of_lt_of_le v.isLt (Nat.pow_le_pow_right (by decide) h)

theorem takeI32_codeI32 (z : Int) (h : fitsI32 z = true) (rest : List Byte) : takeI32 (codeI32 z ++ rest) = some (z, rest) := by
  simp only [fitsI32, decide_eq_true_eq] at h
  simp only [takeI32, codeI32, Take.bind_apply, take32_code32 _ (fitsU_toNat (b := 4) (BitVec.ofInt 32 z) (by decide)),
    Take.pure_apply, BitVec.ofNat_toNat, BitVec.setWidth_eq, BitVec.toInt_ofInt]
  rw [Int.bmod_eq_of_le (by omega) (by omega)]

theorem takeF32_codeF32 (f : F32) (rest : List Byte) : takeF32 (codeF32 f ++ rest) = some (f, rest) := by
  simp only [takeF32, codeF32, Take.bind_apply, take32_code32 _ (fitsU_toNat (b := 4) f (by decide)), Take.pure_apply,
    BitVec.ofNat_toNat, BitVec.setWidth_eq]

theorem takeOpt8_codeOpt8 (v : Option Nat) (h : fitsOpt 1 v = true) (rest : List Byte) :
    takeOpt8 (codeOpt8 v ++ rest) = some (v, rest) := by
  cases v with
  | none => rfl
  | some n =>
    have h : n + 1 < 256 := by simpa [fitsOpt] using h
    have h1 : fitsU 1 n = true := by simp [fitsU]; omega
    simp only [takeOpt8, codeOpt8, Take.bind_apply, take8_code8 n h1, Take.pure_apply]
    rw [if_neg (by omega)]

theorem takeOpt32_codeOpt32 (v : Option Nat) (h : fitsOpt 4 v = true) (rest : List Byte) :
    takeOpt32 (codeOpt32 v ++ rest) = some (v, rest) := by
  cases v with
  | none => rfl
  | some n =>
    have h : n + 1 < 4294967296 := by simpa [fitsOpt] using h
    have h1 : fitsU 4 n = true := by simp [fitsU]; omega
    simp only [takeOpt32, codeOpt32, Take.bind_apply, take32_code32 n h1, Take.pure_apply]
    rw [if_neg (by omega)]

/-! ## Lists -/

theorem takeN_flatMap {α : Type} (f : Take α) (g : α → List Byte) : ∀ (l : List α) (rest : List Byte),
    (∀ a ∈ l, ∀ r, f (g a ++ r) = some (a, r)) → takeN f l.length (l.flatMap g ++ rest) = some (l, rest)
  | [], _, _ => rfl
  | a :: l, rest, h => by
    have h1 := h a List.mem_cons_self
    have h2 := takeN_flatMap f g l rest fun b hb => h b (List.mem_cons_of_mem _ hb)
    simp only [List.length_cons, takeN, List.flatMap_cons, List.append_assoc, Take.bind_apply, h1, h2, Take.pure_apply]

theorem takeList8_codeList8 {α : Type} (f : Take α) (g : α → List Byte) (l : List α) (rest : List Byte)
    (hl : fitsU 1 l.length = true) (h : ∀ a ∈ l, ∀ r, f (g a ++ r) = some (a, r)) :
    takeList8 f (codeList8 g l ++ rest) = some (l, rest) := by
  simp only [takeList8, codeList8, List.append_assoc, Take.bind_apply, take8_code8 _ hl, takeN_flatMap f g l rest h]

theorem takeList16_codeList16 {α : Type} (f : Take α) (g : α → List Byte) (l : List α) (rest : List Byte)
    (hl : fitsU 2 l.length = true) (h : ∀ a ∈ l, ∀ r, f (g a ++ r) = some (a, r)) :
    takeList16 f (codeList16 g l ++ rest) = some (l, rest) := by
  simp only [takeList16, codeList16, List.append_assoc, Take.bind_apply, take16_code16 _ hl, takeN_flatMap f g l rest h]

theorem takeByte_cons (b : Byte) (rest : List Byte) : takeByte ([b] ++ rest) = some (b, rest) := rfl

theorem natBytes_length : ∀ n v, (natBytes n v).length = n
  | 0, _ => rfl
  | n + 1, v => by simp [natBytes, natBytes_length n]

theorem bytesToNat_natBytes : ∀ n v, bytesToNat (natBytes n v) = v % 256 ^ n
  | 0, v => by simp [natBytes, bytesToNat, Nat.mod_one]
  | n + 1, v => by
    show v % 256 + 256 * bytesToNat (natBytes n (v / 256)) = v % 256 ^ (n + 1)
    rw [bytesToNat_natBytes n, pow_succ', Nat.mod_mul]

theorem takeSegments_natBytes (m : BitVec 96) (rest : List Byte) :
    takeSegments (natBytes 12 m.toNat ++ rest) = some (m, rest) := by
  have h := takeN_flatMap takeByte (fun b => [b]) (natBytes 12 m.toNat) rest fun _ _ _ => rfl
  rw [natBytes_length, List.flatMap_singleton' ] at h
  simp only [takeSegments, Take.bind_apply, h, Take.pure_apply, bytesToNat_natBytes]
  rw [Nat.mod_eq_of_lt (by exact m.isLt), BitVec.ofNat_toNat, BitVec.setWidth_eq]

theorem takeRef_codeRef (r : Nat × Nat × Nat × F32) (h : (fitsU 1 r.1 && fitsU 2 r.2.1 && fitsU 2 r.2.2.1) = true)
    (rest : List Byte) : takeRef (codeRef r ++ rest) = some (r, rest) := by
  simp only [Bool.and_eq_true] at h
  obtain ⟨⟨h1, h2⟩, h3⟩ := h
  simp only [takeRef, codeRef, List.append_assoc, Take.bind_apply, take8_code8 _ h1, take16_code16 _ h2, take16_code16 _ h3,
    takeF32_codeF32, Take.pure_apply]

theorem takeRect_codeRect (d : Nat × Nat × Nat × Nat)
    (h : (fitsU 2 d.1 && fitsU 2 d.2.1 && fitsU 2 d.2.2.1 && fitsU 2 d.2.2.2) = true) (rest : List Byte) :
    takeRect (codeRect d ++ rest) = some (d, rest) := by
  simp only [Bool.and_eq_true] at h
  obtain ⟨⟨⟨h1, h2⟩, h3⟩, h4⟩ := h
  simp only [takeRect, codeRect, List.append_assoc, Take.bind_apply, take16_code16 _ h1, take16_code16 _ h2,
    take16_code16 _ h3, take16_code16 _ h4, Take.pure_apply]

/-- Reading a payload that a reader takes whole. -/
theorem readRequest_of_take {kind : Byte} {payload : List Byte} {r : Request} (f : Take Request)
    (hk : takeRequest kind.toNat = some f) (hf : f (payload ++ []) = some (r, [])) : readRequest kind payload = r := by
  rw [List.append_nil] at hf
  simp only [readRequest, hk, hf]

end Sys2Proof.Machine

/-! ## The family -/

namespace Sys2Proof.Laws.Fields

open Sys2Proof.Machine

/-- A well-formed command that brings a request: the request's payload reads back as that request. -/
def Statement (i : Instr) : Prop :=
  i.wf = true → ∀ (tag : Byte) (r : Request), requestOf i = some (tag, r) → readRequest r.kind r.payload = r

theorem powerOn : Statement (.powerOn) :=
  fun _ _ _ h => nomatch h

theorem signalDetect : ∀ link, Statement (.signalDetect link) :=
  fun _ _ _ _ h => nomatch h

theorem signalLoss : ∀ link, Statement (.signalLoss link) :=
  fun _ _ _ _ h => nomatch h

theorem wakeLimitExpiry : ∀ link, Statement (.wakeLimitExpiry link) :=
  fun _ _ _ _ h => nomatch h

theorem cameraFrame : ∀ link rising bytes, Statement (.cameraFrame link rising bytes) :=
  fun _ _ _ _ _ _ h => nomatch h

theorem relayTimeout : ∀ link, Statement (.relayTimeout link) :=
  fun _ _ _ _ h => nomatch h

theorem readoutStart : ∀ link, Statement (.readoutStart link) :=
  fun _ _ _ _ h => nomatch h

theorem readoutEnd : ∀ link, Statement (.readoutEnd link) :=
  fun _ _ _ _ h => nomatch h

theorem intakeRowWriteDone : Statement (.intakeRowWriteDone) :=
  fun _ _ _ h => nomatch h

theorem referenceBoxReadDone : Statement (.referenceBoxReadDone) :=
  fun _ _ _ h => nomatch h

theorem tileTake : Statement (.tileTake) :=
  fun _ _ _ h => nomatch h

theorem placementRowDone : Statement (.placementRowDone) :=
  fun _ _ _ h => nomatch h

theorem readoutLimitExpiry : ∀ slot, Statement (.readoutLimitExpiry slot) :=
  fun _ _ _ _ h => nomatch h

theorem drainTake : Statement (.drainTake) :=
  fun _ _ _ h => nomatch h

theorem drainBlockReadDone : Statement (.drainBlockReadDone) :=
  fun _ _ _ h => nomatch h

theorem pictureBlockEmitted : Statement (.pictureBlockEmitted) :=
  fun _ _ _ h => nomatch h

theorem zeroingDone : Statement (.zeroingDone) :=
  fun _ _ _ h => nomatch h

theorem flatDataWriteDone : Statement (.flatDataWriteDone) :=
  fun _ _ _ h => nomatch h

theorem refreshDone : Statement (.refreshDone) :=
  fun _ _ _ h => nomatch h

theorem refreshIntervalExpiry : Statement (.refreshIntervalExpiry) :=
  fun _ _ _ h => nomatch h

theorem initComplete : Statement (.initComplete) :=
  fun _ _ _ h => nomatch h

theorem wakeComplete : Statement (.wakeComplete) :=
  fun _ _ _ h => nomatch h

theorem memoryGrant : Statement (.memoryGrant) :=
  fun _ _ _ h => nomatch h

theorem hostFrame : ∀ bytes, Statement (.hostFrame bytes) :=
  fun _ _ _ _ h => nomatch h

theorem clearSequence : Statement (.clearSequence) :=
  fun _ _ _ h => nomatch h

theorem outboundGrant : Statement (.outboundGrant) :=
  fun _ _ _ h => nomatch h

theorem messageSent : Statement (.messageSent) :=
  fun _ _ _ h => nomatch h

theorem pendingMove : Statement (.pendingMove) :=
  fun _ _ _ h => nomatch h

theorem unknownKind : ∀ tag kind, Statement (.unknownKind tag kind) := by
  intro tag kind h _ _ he
  cases he
  have hk : ∀ k : Fin 256, namesRequest (BitVec.ofFin k) = false → takeRequest k.val = none := by decide +kernel
  have h1 := hk kind.toFin (by simpa [Instr.wf] using h)
  unfold readRequest
  rw [show takeRequest (Request.kind (.unknown kind)).toNat = none from h1]
  rfl

theorem linkEnable : ∀ tag link, Statement (.linkEnable tag link) := by
  intro tag link h _ _ he
  cases he
  simp only [Instr.wf] at h
  refine readRequest_of_take _ rfl ?_
  simp only [Request.payload, Take.bind_apply, take8_code8, h, Take.pure_apply]

theorem linkConfig : ∀ tag link slots active rows overscan missing low high warm, Statement (.linkConfig tag link slots active rows overscan missing low high warm) := by
  intro tag link slots active rows overscan missing low high warm h _ _ he
  cases he
  simp only [Instr.wf, Bool.and_eq_true] at h
  refine readRequest_of_take _ rfl ?_
  simp only [takeLinkConfig, Request.payload, List.append_assoc, Take.bind_apply, take8_code8, take16_code16, h, Take.pure_apply]

theorem linkDisable : ∀ tag link, Statement (.linkDisable tag link) := by
  intro tag link h _ _ he
  cases he
  simp only [Instr.wf] at h
  refine readRequest_of_take _ rfl ?_
  simp only [Request.payload, Take.bind_apply, take8_code8, h, Take.pure_apply]

theorem linkReset : ∀ tag link, Statement (.linkReset tag link) := by
  intro tag link h _ _ he
  cases he
  simp only [Instr.wf] at h
  refine readRequest_of_take _ rfl ?_
  simp only [Request.payload, Take.bind_apply, take8_code8, h, Take.pure_apply]

theorem linkQuery : ∀ tag link, Statement (.linkQuery tag link) := by
  intro tag link h _ _ he
  cases he
  simp only [Instr.wf] at h
  refine readRequest_of_take _ rfl ?_
  simp only [Request.payload, Take.bind_apply, take8_code8, h, Take.pure_apply]

theorem hkRead : ∀ tag link, Statement (.hkRead tag link) := by
  intro tag link h _ _ he
  cases he
  simp only [Instr.wf] at h
  refine readRequest_of_take _ rfl ?_
  simp only [Request.payload, Take.bind_apply, take8_code8, h, Take.pure_apply]

theorem relay : ∀ tag link outgoing expected timeout, Statement (.relay tag link outgoing expected timeout) := by
  intro tag link outgoing expected timeout h _ _ he
  cases he
  simp only [Instr.wf, Bool.and_eq_true] at h
  have hl := fun rest => takeList8_codeList8 takeByte (fun b => [b]) outgoing rest (by simp only [h]) fun _ _ _ => rfl
  refine readRequest_of_take _ rfl ?_
  simp only [takeRelay, Request.payload, List.append_assoc, Take.bind_apply, take8_code8, hl, h, Take.pure_apply]

theorem exposureOpen : ∀ tag exposure mode initial lower upper attack decay quota nominal limit, Statement (.exposureOpen tag exposure mode initial lower upper attack decay quota nominal limit) := by
  intro tag exposure mode initial lower upper attack decay quota nominal limit h _ _ he
  cases he
  simp only [Instr.wf, Bool.and_eq_true] at h
  refine readRequest_of_take _ rfl ?_
  simp only [takeExposureOpen, Request.payload, List.append_assoc, Take.bind_apply, take16_code16, take8_code8, take32_code32,
    takeOpt32_codeOpt32, h, Take.pure_apply]

theorem planPlace : ∀ tag exposure segment weight anchorX anchorY colX colY rowX rowY cells, Statement (.planPlace tag exposure segment weight anchorX anchorY colX colY rowX rowY cells) := by
  intro tag exposure segment weight anchorX anchorY colX colY rowX rowY cells h _ _ he
  cases he
  simp only [Instr.wf, Bool.and_eq_true] at h
  have hl := fun rest => takeList8_codeList8 take16 code16 cells rest (by simp only [h]) fun a ha =>
    take16_code16 a (List.all_eq_true.mp h.2 a ha)
  refine readRequest_of_take _ rfl ?_
  simp only [takePlanPlace, Request.payload, List.append_assoc, Take.bind_apply, take16_code16, take8_code8, take32_code32,
    takeI32_codeI32, hl, h, Take.pure_apply]

theorem planRef : ∀ tag exposure refs, Statement (.planRef tag exposure refs) := by
  intro tag exposure refs h _ _ he
  cases he
  simp only [Instr.wf, Bool.and_eq_true] at h
  have hl := fun rest => takeList8_codeList8 takeRef codeRef refs rest (by simp only [h]) fun a ha =>
    takeRef_codeRef a (List.all_eq_true.mp h.2 a ha)
  refine readRequest_of_take _ rfl ?_
  simp only [Request.payload, List.append_assoc, Take.bind_apply, take16_code16, hl, h, Take.pure_apply]

theorem exposureCommit : ∀ tag exposure, Statement (.exposureCommit tag exposure) := by
  intro tag exposure h _ _ he
  cases he
  simp only [Instr.wf] at h
  refine readRequest_of_take _ rfl ?_
  simp only [Request.payload, Take.bind_apply, take16_code16, h, Take.pure_apply]

theorem exposureAbandon : ∀ tag exposure, Statement (.exposureAbandon tag exposure) := by
  intro tag exposure h _ _ he
  cases he
  simp only [Instr.wf] at h
  refine readRequest_of_take _ rfl ?_
  simp only [Request.payload, Take.bind_apply, take16_code16, h, Take.pure_apply]

theorem exposureQuery : ∀ tag exposure, Statement (.exposureQuery tag exposure) := by
  intro tag exposure h _ _ he
  cases he
  simp only [Instr.wf] at h
  refine readRequest_of_take _ rfl ?_
  simp only [Request.payload, Take.bind_apply, take16_code16, h, Take.pure_apply]

theorem calLoad : ∀ tag segment mode skip level gain flat saturation defects, Statement (.calLoad tag segment mode skip level gain flat saturation defects) := by
  intro tag segment mode skip level gain flat saturation defects h _ _ he
  cases he
  simp only [Instr.wf, Bool.and_eq_true] at h
  have hl := fun rest => takeList8_codeList8 takeRect codeRect defects rest (by simp only [h]) fun a ha =>
    takeRect_codeRect a (List.all_eq_true.mp h.2 a ha)
  refine readRequest_of_take _ rfl ?_
  simp only [takeCalLoad, Request.payload, List.append_assoc, Take.bind_apply, take16_code16, take8_code8, take32_code32,
    takeOpt8_codeOpt8, hl, h, Take.pure_apply]

theorem calApplyNow : ∀ tag segments, Statement (.calApplyNow tag segments) := by
  intro tag segments _ _ _ he
  cases he
  refine readRequest_of_take _ rfl ?_
  simp only [Request.payload, List.append_assoc, Take.bind_apply, takeSegments_natBytes]
  rfl

theorem calApplyNextReadout : ∀ tag segments, Statement (.calApplyNextReadout tag segments) := by
  intro tag segments _ _ _ he
  cases he
  refine readRequest_of_take _ rfl ?_
  simp only [Request.payload, List.append_assoc, Take.bind_apply, takeSegments_natBytes]
  rfl

theorem calApplyDisarm : ∀ tag segments, Statement (.calApplyDisarm tag segments) := by
  intro tag segments _ _ _ he
  cases he
  refine readRequest_of_take _ rfl ?_
  simp only [Request.payload, List.append_assoc, Take.bind_apply, takeSegments_natBytes]
  rfl

theorem calQuery : ∀ tag segment, Statement (.calQuery tag segment) := by
  intro tag segment h _ _ he
  cases he
  simp only [Instr.wf] at h
  refine readRequest_of_take _ rfl ?_
  simp only [Request.payload, Take.bind_apply, take8_code8, h, Take.pure_apply]

theorem flatBegin : ∀ tag index columns rows check, Statement (.flatBegin tag index columns rows check) := by
  intro tag index columns rows check h _ _ he
  cases he
  simp only [Instr.wf, Bool.and_eq_true] at h
  refine readRequest_of_take _ rfl ?_
  simp only [takeFlatBegin, Request.payload, List.append_assoc, Take.bind_apply, take16_code16, take8_code8, take32_code32 _
    (fitsU_toNat (b := 4) check (by decide)), BitVec.ofNat_toNat, BitVec.setWidth_eq, h, Take.pure_apply]

theorem flatData : ∀ tag index offset values, Statement (.flatData tag index offset values) := by
  intro tag index offset values h _ _ he
  cases he
  simp only [Instr.wf, Bool.and_eq_true] at h
  have hl := fun rest => takeList16_codeList16 take16 code16 values rest (by simp only [h]) fun a ha =>
    take16_code16 a (List.all_eq_true.mp h.2 a ha)
  refine readRequest_of_take _ rfl ?_
  simp only [takeFlatData, Request.payload, List.append_assoc, Take.bind_apply, take8_code8, take32_code32, hl, h, Take.pure_apply]

theorem flatEnd : ∀ tag index, Statement (.flatEnd tag index) := by
  intro tag index h _ _ he
  cases he
  simp only [Instr.wf] at h
  refine readRequest_of_take _ rfl ?_
  simp only [Request.payload, Take.bind_apply, take8_code8, h, Take.pure_apply]

theorem flatDrop : ∀ tag index, Statement (.flatDrop tag index) := by
  intro tag index h _ _ he
  cases he
  simp only [Instr.wf] at h
  refine readRequest_of_take _ rfl ?_
  simp only [Request.payload, Take.bind_apply, take8_code8, h, Take.pure_apply]

theorem flatQuery : ∀ tag index, Statement (.flatQuery tag index) := by
  intro tag index h _ _ he
  cases he
  simp only [Instr.wf] at h
  refine readRequest_of_take _ rfl ?_
  simp only [Request.payload, Take.bind_apply, take8_code8, h, Take.pure_apply]

theorem storeQuery : ∀ tag, Statement (.storeQuery tag) := by
  intro tag _ _ _ he
  cases he
  rfl

theorem scaleSet : ∀ tag exposure value, Statement (.scaleSet tag exposure value) := by
  intro tag exposure value h _ _ he
  cases he
  simp only [Instr.wf, Bool.and_eq_true] at h
  refine readRequest_of_take _ rfl ?_
  simp only [Request.payload, List.append_assoc, Take.bind_apply, take16_code16, take32_code32, h, Take.pure_apply]

theorem canvasOpen : ∀ tag width height order, Statement (.canvasOpen tag width height order) := by
  intro tag width height order h _ _ he
  cases he
  simp only [Instr.wf, Bool.and_eq_true] at h
  refine readRequest_of_take _ rfl ?_
  simp only [Request.payload, List.append_assoc, Take.bind_apply, take8_code8, h, Take.pure_apply]

theorem canvasClose : ∀ tag, Statement (.canvasClose tag) := by
  intro tag _ _ _ he
  cases he
  rfl

theorem cellRelease : ∀ tag cell, Statement (.cellRelease tag cell) := by
  intro tag cell h _ _ he
  cases he
  simp only [Instr.wf] at h
  refine readRequest_of_take _ rfl ?_
  simp only [Request.payload, Take.bind_apply, take16_code16, h, Take.pure_apply]

theorem cellQuery : ∀ tag cell, Statement (.cellQuery tag cell) := by
  intro tag cell h _ _ he
  cases he
  simp only [Instr.wf] at h
  refine readRequest_of_take _ rfl ?_
  simp only [Request.payload, Take.bind_apply, take16_code16, h, Take.pure_apply]

theorem canvasAbandon : ∀ tag, Statement (.canvasAbandon tag) := by
  intro tag _ _ _ he
  cases he
  rfl

theorem drainHold : ∀ tag, Statement (.drainHold tag) := by
  intro tag _ _ _ he
  cases he
  rfl

theorem drainResume : ∀ tag, Statement (.drainResume tag) := by
  intro tag _ _ _ he
  cases he
  rfl

theorem park : ∀ tag, Statement (.park tag) := by
  intro tag _ _ _ he
  cases he
  rfl

theorem unpark : ∀ tag, Statement (.unpark tag) := by
  intro tag _ _ _ he
  cases he
  rfl

theorem status : ∀ tag, Statement (.status tag) := by
  intro tag _ _ _ he
  cases he
  rfl

theorem noticeMask : ∀ tag mask, Statement (.noticeMask tag mask) := by
  intro tag mask h _ _ he
  cases he
  simp only [Instr.wf] at h
  refine readRequest_of_take _ rfl ?_
  simp only [Request.payload, Take.bind_apply, take16_code16, h, Take.pure_apply]

theorem clear : ∀ tag, Statement (.clear tag) := by
  intro tag _ _ _ he
  cases he
  rfl

theorem hostFrameDiscard : ∀ bytes, Statement (.hostFrameDiscard bytes) :=
  fun _ _ _ _ h => nomatch h

end Sys2Proof.Laws.Fields
end

