-- ==== Sys2Proof/Tests/Slice0.lean ====
section
/-!
SUPPORT. The model's own tests: ill-formed terms that the check refuses, the manual's worked examples, one command on a small state
each, and for every obligation with hypotheses a state and operands that meet them, clause by clause.
-/

namespace Sys2Proof.Tests

open Sys2Proof.Machine

set_option Elab.async false

/-! ## Small states -/

/-- The state after a command; the same state where there is none. -/
def run (s : State) (i : Instr) : State :=
  match exec i s with
  | .next t => t
  | .fault _ => s
  | .refused _ => s

/-- The state after some commands. -/
def runs (s : State) (l : List Instr) : State := l.foldl run s

/-- The last answer queued or on the line. -/
def lastAnswer (s : State) : Option Answer :=
  match s.host.answers.getLast? with
  | some a => some a
  | none => match s.host.line with
    | some (.answer a) => some a
    | _ => none

/-- The result of the last answer. -/
def result (s : State) : Option Result := (lastAnswer s).map Answer.result

/-- The store READY, everything else at power-on. -/
def up : State := { State.reset with store := { StoreCtl.reset with state := .ready, interval := true } }

/-- The store PARKED, WAKING. -/
def parked : State := { State.reset with store := { StoreCtl.reset with state := .parked } }
def waking : State := { State.reset with store := { StoreCtl.reset with state := .waking } }

/-- A small geometry: amplifier slot 0, 64 columns and rows, 8 overscan columns. -/
def small : LinkConfig :=
  { slots := 1, active := 64, rows := 64, overscan := 8, missing := 16, low := 16300, high := 18300, warm := 8 }

/-- Link 0 in a state, with signal and the small geometry. -/
def linked (st : PortState) : State := up.setPort 0 { Port.reset with state := st, signal := true, cfg := small }

/-- Link 0 READING exposure 7 with row 2 accepted last, and some items in its buffer while an intake write is claimed. -/
def reading (items : List BufItem) : State :=
  let s := (linked .reading).modPort 0 fun p =>
    { p with ctx := some { exposure := 7, lastRow := 2, latched := none }, buffer := items }
  { s with store := { s.store with access := some (.intake 0) } }

/-- A relay in a phase, with two bytes to send and one reply byte expected. -/
def relayIn (phase : RelayPhase) : Relay :=
  { Relay.reset with phase := phase, number := 1, outgoing := [0x41, 0x42], expected := 1, timeout := 16 }

/-- A canvas of 2 by 1 cells. -/
def canvasOf (st : CanvasState) (order : DrainOrder) (cells : List Cell) : State :=
  { up with canvas := { state := st, width := 2, height := 1, order := order, commits := 0, released := 0, cells := cells } }

def gathering : State := canvasOf .gathering .ordered [.fresh, .fresh]

/-- A cell in a state, zeroed. -/
def cellIn (st : CellState) (owed : Nat) : Cell := { Cell.fresh with state := st, owed := owed, zeroed := true }

/-- The plan of segment 0 onto both cells, and photometry fields in the middle of their limits. -/
def plan0 : Placement :=
  { segment := 0, weight := 16, anchorX := 0, anchorY := 0, colX := 65536, colY := 0, rowX := 0, rowY := 65536, cells := [0, 1] }

def photo (mode : Mode) : Photometry :=
  { mode := mode, scale := 4096, lower := 256, upper := 65536, attack := 64, decay := 128, quota := 3, accepted := 0, rejected := 0,
    frozen := false }

def slot7 (st : SlotState) (timer : TimerState) (mode : Mode) : ExpSlot :=
  { ExpSlot.empty with state := st, exposure := 7, nominal := 1000, limit := 60, timer := timer, photo := photo mode
                       placements := [plan0] }

/-- Exposure 7 in slot 0. -/
def exposed (st : SlotState) (timer : TimerState) (mode : Mode) : State := gathering.setSlot 0 (slot7 st timer mode)

/-- A record for the small geometry: bias 100, gain 1, no flat. -/
def rec0 : CalRec :=
  { bias := .fixed 100, gain := 4096, flat := none, saturation := 60000, defects := [], columns := 64, rows := 64 }

/-- A tile of segment 0 and exposure 7 in a state, with its first rows held. -/
def tile7 (st : TileState) (held : List Nat) : Tile :=
  { Tile.empty with state := st, owner := some 0, exposure := 7, cal := some rec0, columns := 64, rows := 64, limit := 16, time := 1000
                    nominal := true, held := held, received := held.length }

/-! ## Well-formedness: one ill-formed term for each check -/

theorem test_wf_kind : (Instr.unknownKind 0 0x23).wf = false ∧ (Instr.unknownKind 0 0x24).wf = true := by decide +kernel
theorem test_wf_link : (Instr.linkEnable 0 256).wf = false ∧ (Instr.linkDisable 0 256).wf = false ∧ (Instr.linkReset 0 256).wf = false
    ∧ (Instr.linkQuery 0 256).wf = false ∧ (Instr.hkRead 0 256).wf = false ∧ (Instr.linkEnable 0 255).wf = true := by decide +kernel
theorem test_wf_linkConfig : ∀ c ∈ [Instr.linkConfig 0 256 0 0 0 0 0 0 0 0, .linkConfig 0 0 256 0 0 0 0 0 0 0,
    .linkConfig 0 0 0 65536 0 0 0 0 0 0, .linkConfig 0 0 0 0 65536 0 0 0 0 0, .linkConfig 0 0 0 0 0 256 0 0 0 0,
    .linkConfig 0 0 0 0 0 0 256 0 0 0, .linkConfig 0 0 0 0 0 0 0 65536 0 0, .linkConfig 0 0 0 0 0 0 0 0 65536 0,
    .linkConfig 0 0 0 0 0 0 0 0 0 256], c.wf = false := by decide +kernel
theorem test_wf_relay : ∀ c ∈ [Instr.relay 0 256 [] 0 0, .relay 0 0 (List.replicate 256 0) 0 0, .relay 0 0 [] 256 0,
    .relay 0 0 [] 0 256], c.wf = false := by decide +kernel
theorem test_wf_exposureOpen : ∀ c ∈ [Instr.exposureOpen 0 65536 0 none 0 0 0 0 0 0 0, .exposureOpen 0 0 256 none 0 0 0 0 0 0 0,
    .exposureOpen 0 0 0 (some 4294967295) 0 0 0 0 0 0 0, .exposureOpen 0 0 0 none 4294967296 0 0 0 0 0 0,
    .exposureOpen 0 0 0 none 0 4294967296 0 0 0 0 0, .exposureOpen 0 0 0 none 0 0 65536 0 0 0 0, .exposureOpen 0 0 0 none 0 0 0 65536 0 0 0,
    .exposureOpen 0 0 0 none 0 0 0 0 256 0 0, .exposureOpen 0 0 0 none 0 0 0 0 0 4294967296 0, .exposureOpen 0 0 0 none 0 0 0 0 0 0 65536],
    c.wf = false := by decide +kernel
theorem test_wf_planPlace : ∀ c ∈ [Instr.planPlace 0 65536 0 0 0 0 0 0 0 0 [], .planPlace 0 0 256 0 0 0 0 0 0 0 [],
    .planPlace 0 0 0 256 0 0 0 0 0 0 [], .planPlace 0 0 0 0 4294967296 0 0 0 0 0 [], .planPlace 0 0 0 0 0 4294967296 0 0 0 0 [],
    .planPlace 0 0 0 0 0 0 2147483648 0 0 0 [], .planPlace 0 0 0 0 0 0 0 (-2147483649) 0 0 [], .planPlace 0 0 0 0 0 0 0 0 2147483648 0 [],
    .planPlace 0 0 0 0 0 0 0 0 0 2147483648 [], .planPlace 0 0 0 0 0 0 0 0 0 0 (List.replicate 256 0),
    .planPlace 0 0 0 0 0 0 0 0 0 0 [65536]], c.wf = false := by decide +kernel
theorem test_wf_planRef : ∀ c ∈ [Instr.planRef 0 65536 [], .planRef 0 0 (List.replicate 256 (0, 0, 0, 0)), .planRef 0 0 [(256, 0, 0, 0)],
    .planRef 0 0 [(0, 65536, 0, 0)], .planRef 0 0 [(0, 0, 65536, 0)]], c.wf = false := by decide +kernel
theorem test_wf_exposure : ∀ c ∈ [Instr.exposureCommit 0 65536, .exposureAbandon 0 65536, .exposureQuery 0 65536, .scaleSet 0 65536 0,
    .scaleSet 0 0 4294967296], c.wf = false := by decide +kernel
theorem test_wf_calLoad : ∀ c ∈ [Instr.calLoad 0 256 0 0 0 0 none 0 [], .calLoad 0 0 256 0 0 0 none 0 [], .calLoad 0 0 0 256 0 0 none 0 [],
    .calLoad 0 0 0 0 65536 0 none 0 [], .calLoad 0 0 0 0 0 4294967296 none 0 [], .calLoad 0 0 0 0 0 0 (some 255) 0 [],
    .calLoad 0 0 0 0 0 0 none 65536 [], .calLoad 0 0 0 0 0 0 none 0 (List.replicate 256 (0, 0, 0, 0)),
    .calLoad 0 0 0 0 0 0 none 0 [(65536, 0, 0, 0)], .calLoad 0 0 0 0 0 0 none 0 [(0, 65536, 0, 0)],
    .calLoad 0 0 0 0 0 0 none 0 [(0, 0, 65536, 0)], .calLoad 0 0 0 0 0 0 none 0 [(0, 0, 0, 65536)], .calQuery 0 256],
    c.wf = false := by decide +kernel
theorem test_wf_flat : ∀ c ∈ [Instr.flatBegin 0 256 0 0 0, .flatBegin 0 0 65536 0 0, .flatBegin 0 0 0 65536 0, .flatData 0 256 0 [],
    .flatData 0 0 4294967296 [], .flatData 0 0 0 [65536], .flatEnd 0 256, .flatDrop 0 256, .flatQuery 0 256], c.wf = false := by
  decide +kernel
theorem test_wf_canvas : ∀ c ∈ [Instr.canvasOpen 0 256 0 0, .canvasOpen 0 0 256 0, .canvasOpen 0 0 0 256, .cellRelease 0 65536,
    .cellQuery 0 65536, .noticeMask 0 65536], c.wf = false := by decide +kernel
theorem test_wf_flatData_length : (Instr.flatData 0 0 0 (List.replicate 65536 0)).wf = false := by
  simp only [Instr.wf, fitsU, List.length_replicate, show decide (65536 < 2 ^ (8 * 2)) = false from by decide, Bool.and_false,
    Bool.false_and]

/-! ## The manual's worked examples -/

/-- R113's table. -/
theorem test_effective_weights : effectiveWeight true 40 8 = 20 ∧ effectiveWeight true 255 3 = 48 ∧ effectiveWeight true 1 8 = 1
    ∧ effectiveWeight true 1 1 = 1 := by decide +kernel

/-- R114: −0.5 goes to 0, and 254.5 to 255. -/
theorem test_nearest_pixel : nearestPixel (-32768) = 0 ∧ nearestPixel (254 * 65536 + 32768) = 255 := by decide +kernel

/-- 09: 1025 ÷ 3.25 and −3.818359375 ÷ 1.25 as single-precision numbers. -/
theorem test_output_means :
    ({ CanvasPixel.zero with flux := 0x44802000, weight := 52, count := 2 } : CanvasPixel).output.mean = 0x439DB13B
    ∧ ({ CanvasPixel.zero with flux := 0xC0746000, weight := 20, count := 1 } : CanvasPixel).output.mean = 0xC0438000 := by
  decide +kernel

/-- 06: four references in TRACKING take the scale from 4096 to 4224, 3968, 4352 and 4288. -/
theorem test_scale_updates :
    let p : Photometry := { photo .tracking with lower := 3840, upper := 4352, attack := 64, decay := 32 }
    p.updated 2500 2000 = 4224 ∧ { p with scale := 4224 }.updated 2500 3200 = 3968
      ∧ { p with scale := 3968 }.updated 4000 1000 = 4352 ∧ { p with scale := 4352 }.updated 1500 1500 = 4288 := by decide +kernel

/-- 04: five pixels of row 40, with the bias of the overscan and the fixed level's. -/
theorem test_calibrated_row :
    let r : CalRec := { rec0 with bias := .overscan 2, gain := 10240, flat := some 5, defects := [⟨500, 503, 0, 2047⟩] }
    let columns := [9, 9] ++ List.replicate 20 1002 ++ List.replicate 10 1005
    let b := r.biasOf columns
    b = (30090, 30) ∧ r.pixel b 15360 20000 40 120 3403 = .value 0x43A00000 ∧ r.pixel b 16384 20000 40 121 980 = .value 0xC0380000
      ∧ r.pixel b 0 20000 40 122 3500 = .flagged true false ∧ r.pixel b 16000 20000 40 501 3410 = .flagged true false
      ∧ r.pixel b 16384 20000 40 900 61250 = .flagged false true
      ∧ { r with bias := .fixed 1000 }.pixel (1000, 1) 15360 20000 40 120 3403 = .value 0x43A03333 := by decide +kernel

/-- The CRCs of the digits 1 to 9: CBF43926h and 29B1h. -/
theorem test_crcs : crc32 [0x31, 0x32, 0x33, 0x34, 0x35, 0x36, 0x37, 0x38, 0x39] = 0xCBF43926
    ∧ crc16 [0x31, 0x32, 0x33, 0x34, 0x35, 0x36, 0x37, 0x38, 0x39] = 0x29B1 := by decide +kernel

/-- An IDLE frame of the lane, and one that carries a housekeeping word. -/
def idle (lane : Nat) (m : Marker) : List Byte := cameraFrameBytes 1 0 0 0 0 0 lane m.code []
def word (index value : Nat) : List Byte := cameraFrameBytes 1 0 0 0 index value 0 0 []
/-- A ROW frame of the small geometry: every active column reads 600, every overscan column 100. -/
def rowOf (flags tag row : Nat) : List Byte :=
  cameraFrameBytes 3 flags tag row 3 0 0 0 ((List.replicate 64 600 ++ List.replicate 8 100).flatMap code16)
def train : List Byte := cameraFrameBytes 2 0 0 0 0 0 0 0 trainPattern

/-- 02: the relay of A1h, 07h and 3Ch, frame by frame. -/
def relayArrivals : List (List Byte) :=
  [idle 0 .none, idle 0 .none, idle 0 .ack, idle 0 .ack, idle 0 .none, [0x01], idle 0 .ack, idle 0 .none, idle 0 .ack, idle 0 .none,
   idle 0x5A .byte, idle 0x5A .byte, idle 0 .none, idle 0 .last, idle 0 .none]

def relayStart : State :=
  (linked .synced).modPort 0 fun p => { p with relay :=
    { Relay.reset with phase := .waitQuiet, number := 12, outgoing := [0xA1, 0x07, 0x3C], expected := 2, timeout := 16 } }

theorem test_relay_lanes :
    (List.range 15).map (fun n =>
      ((runs relayStart ((relayArrivals.take (n + 1)).map (Instr.cameraFrame 0 true))).port 0).lane)
    = [some (.byte, 0xA1), some (.byte, 0xA1), some (.none, 0), some (.none, 0), some (.byte, 0x07), some (.byte, 0x07),
       some (.none, 0), some (.last, 0x3C), some (.none, 0), some (.none, 0), some (.ack, 0), some (.ack, 0), some (.none, 0),
       some (.ack, 0), some (.none, 0)] := by decide +kernel

theorem test_relay_ends :
    let p := (runs relayStart (relayArrivals.map (Instr.cameraFrame 0 true))).port 0
    p.relay.phase = .idle ∧ p.relay.acked = 3 ∧ p.relay.reply = [0x5A, 0] ∧ p.relay.number = 12 := by decide +kernel

/-- 11: the short run at the outbound arbiter. -/
def note (n : Nat) : Notice := { kind := .ready, content := code8 n, folded := 1 }
def block0 : Block := { cell := 0, number := 1, last := false, forced := false, pixels := [] }
def shortRun : State :=
  { up with
    host := { HostLink.reset with
      line := some (.block block0), answers := [{ tag := 1, kind := 0x21, result := .done [] }], notices := [note 1, note 2] }
    drain := { Drain.reset with state := .offered, block := 1, formed := some block0 } }

theorem test_short_run :
    let s2 := run shortRun .pictureBlockEmitted
    let s3 := run s2 .messageSent
    let s4 := run s3 .messageSent
    let s5 := run s4 .pictureBlockEmitted
    s2.host.line = some (.answer { tag := 1, kind := 0x21, result := .done [] })
      ∧ s2.host.source .answers = { cls := 2, waits := [.notices, .blocks] }
      ∧ s3.host.line = some (.notice (note 1)) ∧ s3.host.source .notices = { cls := 2, waits := [.blocks] }
      ∧ s3.host.source .answers = { cls := 2, waits := [.blocks] }
      ∧ s4.host.line = some (.block block0) ∧ s4.host.source .blocks = { cls := 2, waits := [.notices] }
      ∧ s4.host.source .notices = { cls := 1, waits := [] } ∧ s4.host.source .answers = { cls := 1, waits := [] }
      ∧ s5.host.line = some (.notice (note 2)) ∧ s5.host.source .notices = { cls := 1, waits := [] }
      ∧ s5.host.source .blocks = { cls := 1, waits := [] } := by decide +kernel

/-- 10: the forced refresh comes before the intake, and the intake before the rotating kinds. -/
def behind : State :=
  { up with store := { up.store with
      owed := 5, zeroQueue := [12, 13], access := some .zeroing, waiting := [.placement, .intake 2]
      rotation := [.placement, .drain, .flat, .box, .zeroing] } }

theorem test_refresh_falls_behind :
    let s4 := run behind .refreshIntervalExpiry
    let s5 := run s4 .refreshIntervalExpiry
    let s6 := run s5 .zeroingDone
    let s9 := run s6 .refreshDone
    s4.store.owed = 6 ∧ s5.store.owed = 6 ∧ s5.store.late = 1 ∧ s6.store.access = some .refresh
      ∧ s6.store.waiting = [.placement, .intake 2, .zeroing] ∧ s6.store.zeroQueue = [13] ∧ s9.store.owed = 5
      ∧ s9.store.access = some (.intake 2) := by decide +kernel

/-! ## One command, or a few, on a small state -/

theorem test_power_on : run (linked .reading) .powerOn = State.reset.setPort 0 { Port.reset with signal := true } := by decide +kernel
theorem test_empty_queue_idles : step { up with pending := [] } = .next up := rfl
theorem test_no_table_word : decodeTableWord 8 0x21 = none ∧ State.withFetchWord up 8 0x21 = up := ⟨rfl, rfl⟩

/-- From no signal to SYNCED: detection, training over two taps, and two good frames. -/
theorem test_link_comes_up :
    let s := runs (up.setPort 1 { Port.reset with state := .down, cfg := small })
      [.signalDetect 1, .cameraFrame 1 false train, .cameraFrame 1 false train, .cameraFrame 1 true train,
       .cameraFrame 1 true (idle 0 .none), .cameraFrame 1 true (idle 0 .none)]
    (s.port 1).state = .synced ∧ (s.port 1).tap = 1 ∧ (s.port 1).good = 2 := by decide +kernel

theorem test_alignment_fails :
    let s := runs ((linked .aligning).modPort 0 fun p => { p with tap := 62 })
      [.cameraFrame 0 true train, .cameraFrame 0 true train]
    (s.port 0).state = .fault ∧ (s.port 0).reason = some .align ∧ (s.port 0).tap = 63 := by decide +kernel

theorem test_signal_loss : ((run (linked .synced) (.signalLoss 0)).port 0).state = .down
    ∧ ((run (linked .synced) (.signalLoss 0)).port 0).signal = false := by decide +kernel

theorem test_wake_limit : ((run ((linked .waking).modPort 0 Port.woken) (.wakeLimitExpiry 0)).port 0).state = .waking
    ∧ ((run ((linked .waking).modPort 0 fun p => { p.woken with signal := false }) (.wakeLimitExpiry 0)).port 0).state = .down := by
  decide +kernel

theorem test_relay_timeout :
    let s := run ((linked .synced).modPort 0 fun p => { p with relay := { relayIn .offer with idleFrames := 16 } }) (.relayTimeout 0)
    (s.port 0).relay.phase = .idle ∧ (s.port 0).relay.number = 1 := by decide +kernel

/-- Twelve words make a cycle: FIRST is raised, and the latched time of exposure 7 is 1000 ms. -/
theorem test_housekeeping_cycle :
    let s := runs (linked .synced) ([0, 7, 1000, 0, 17000, 1, 2, 3, 4, 5, 6, 8].zipIdx.map fun (v, i) => .cameraFrame 0 true (word i v))
    ((s.port 0).hk.map HkCycle.words) = some [0, 7, 1000, 0, 17000, 1, 2, 3, 4, 5, 6, 8]
      ∧ ((s.port 0).hk.map HkCycle.zone) = some .inside ∧ ((s.port 0).latch 7 none).time = some 1000
      ∧ ((s.port 0).latch 8 (some 5)).time = some 5 := by decide +kernel

/-! ## An exposure from its plan to its picture block -/

/-- A record, a canvas, an exposure with a plan of both cells and no reference, committed; both cells zeroed. -/
def committed : State :=
  runs (linked .synced)
    [.calLoad 1 0 1 0 100 4096 none 60000 [], .calApplyNow 1 (1 : BitVec 96), .messageSent, .messageSent,
     .canvasOpen 1 2 1 0, .exposureOpen 1 7 1 none 256 65536 64 128 3 1000 60,
     .planPlace 1 7 0 16 0 0 65536 0 0 65536 [0, 1], .exposureCommit 1 7, .zeroingDone, .zeroingDone]

theorem test_committed :
    (committed.slot 0).state = .committed ∧ (committed.slot 0).photo.scale = 4096
      ∧ committed.canvas.cells = List.replicate 2 { Cell.fresh with state := .pending, owed := 1, zeroed := true }
      ∧ committed.canvas.commits = 1 ∧ committed.store.zeroQueue = [] ∧ (committed.segCal 0).active = some rec0 := by decide +kernel

/-- The readout of rows 0 and 63 of exposure 7 starts, is written, and ends: 62 rows are missing, beyond the limit of 16. -/
def read2 : State :=
  runs committed [.cameraFrame 0 true (rowOf 1 7 0), .readoutStart 0, .intakeRowWriteDone, .cameraFrame 0 true (rowOf 2 7 63),
                  .intakeRowWriteDone]

theorem test_row_is_calibrated :
    let s := runs committed [.cameraFrame 0 true (rowOf 1 7 0), .readoutStart 0, .intakeRowWriteDone]
    s.mem.tileRow 0 0 = List.replicate 64 (.value 0x43FA0000) ∧ (s.tile 0).held = [0] ∧ (s.slot 0).timer = .stopped
      ∧ (s.port 0).state = .reading := by decide +kernel

theorem test_rows_discard :
    (read2.tile 0).state = .free ∧ (read2.slot 0).state = .free ∧ (read2.port 0).state = .synced
      ∧ read2.canvas.cells = List.replicate 2
          { Cell.fresh with state := .pending, owed := 0, resolved := 1, writtenOff := 1, zeroed := true } := by decide +kernel

/-- A QUEUED tile with row 5 held is taken and placed, and its slot finishes. -/
def queued : State :=
  let s := committed.setTile 3 { tile7 .queued [5] with missing := some 63, segment := 0 }
  let s := s.setSlot 0 { (s.slot 0 : ExpSlot).setEntry 0 .inStore with state := .placing, timer := .stopped }
  { s with tiles := { s.tiles with queue := [3] }, mem := s.mem.setTileRow 3 5 [.value 0x3F800000, .flagged true false] }

theorem test_tile_is_placed :
    let s := runs queued [.tileTake, .placementRowDone]
    (s.tile 3).state = .free ∧ (s.slot 0).state = .free ∧ s.place = none ∧ s.carry = 4096
      ∧ s.mem.canvasPixel 0 (5 * 256) = { CanvasPixel.zero with flux := 0x3F800000, weight := 16, count := 1, nominal := true } := by
  decide +kernel

/-- The zeroed cell 0 of a closed canvas is drained in sixteen blocks, and the canvas finishes. -/
def closing : State :=
  { canvasOf .gathering .ordered [cellIn .pending 0, .fresh] with
    mem := ({ tileRows := [], cells := [], flats := [] } : Memory).setCanvasPixel 0 3
      { CanvasPixel.zero with flux := 0x44802000, weight := 52, count := 2, warm := true } }

theorem test_close_completes_and_drains :
    let s := run closing (.canvasClose 1)
    s.canvas.cells = [cellIn .draining 0, { Cell.fresh with state := .exempt }] ∧ s.drain.state = .reading ∧ s.drain.block = 1
      ∧ result s = some (.done [1, 0, 1, 0, 0, 0]) := by decide +kernel

/-- The last block of cell 0 is on the line. -/
def lastBlock : State :=
  { canvasOf .closed .ordered [cellIn .draining 0, { Cell.fresh with state := .exempt }] with
    drain := { Drain.reset with state := .sending, block := 16, formed := some block0 }
    host := { HostLink.reset with line := some (.block block0) } }

theorem test_last_block_finishes_the_canvas :
    let s := run lastBlock .pictureBlockEmitted
    s.canvas = .idle ∧ s.drain.state = .idle ∧ (match s.host.line with | some (.notice n) => decide (n.kind = .canvasDone) | _ => false) = true := by
  decide +kernel

theorem test_block_read : (run { canvasOf .gathering .ordered [cellIn .draining 0, .fresh] with
    drain := { Drain.reset with state := .reading, block := 2 }
    store := { up.store with access := some .drainRead } } .drainBlockReadDone).drain.state = .sending := by decide +kernel

theorem test_drain_take_in_arrival_order :
    let s := run { canvasOf .gathering .arrival [cellIn .complete 0, cellIn .complete 0] with
      drain := { Drain.reset with queue := [1, 0] } } .drainTake
    s.drain.cell = 1 ∧ s.drain.queue = [0] ∧ s.store.access = some .drainRead := by decide +kernel

theorem test_release_and_query :
    let s := run { canvasOf .gathering .ordered [.fresh, cellIn .pending 3] with drain := { Drain.reset with hold := true } }
      (.cellRelease 1 1)
    s.canvas.cells = [.fresh, { cellIn .complete 0 with forced := true }] ∧ s.drain.queue = [1] ∧ s.canvas.released = 1
      ∧ result s = some (.done [1, 2, 3])
      ∧ result (runs s [.messageSent, .cellQuery 1 1])
        = some (.done [1, 0, 1, 0, 2, 0, 0, 0, 0, 0, 0, 0, 0, 0, 0, 0, 1, 1, 0, 1, 1, 0]) := by decide +kernel

theorem test_canvas_abandon :
    let s := run (exposed .reading .running .tracking) (.canvasAbandon 1)
    s.canvas = .idle ∧ (s.slot 0).state = .free ∧ result s = some (.done [1]) := by decide +kernel

theorem test_hold_and_resume :
    let s := { gathering with drain := { Drain.reset with state := .offered, block := 7, formed := some block0 } }
    let held := run s (.drainHold 1)
    held.drain.state = .stopped ∧ held.drain.formed = none ∧ result held = some (.done [4, 0])
      ∧ (run held (.drainResume 1)).drain.state = .reading := by decide +kernel

theorem test_park_and_unpark :
    let s := run (linked .synced) (.park 1)
    s.store.state = .parked ∧ (s.port 0).state = .down ∧ (runs s [.unpark 1]).store.state = .waking
      ∧ ((runs s [.unpark 1, .wakeComplete]).port 0).state = .waking := by decide +kernel

theorem test_init_complete : (run State.reset .initComplete).store.state = .ready
    ∧ (run State.reset .initComplete).host.line = some (.notice { kind := .ready, content := [0, 0], folded := 1 }) := by decide +kernel

theorem test_memory_grant : (run { up with store := { up.store with waiting := [.zeroing, .intake 3] } } .memoryGrant).store.access
    = some (.intake 3) := by decide +kernel

theorem test_clear : (run (exposed .reading .running .tracking) (.clear 9)).host.line
    = some (.notice { kind := .clearDone, content := [0, 1, 9, 1], folded := 1 })
    ∧ ((run (exposed .reading .running .tracking) .clearSequence).slot 0).state = .free := by decide +kernel

theorem test_status_frame : run up (.hostFrame (frameBytes (frameBody 0x21 5 []))) = run up.flagged (.status 5) := by decide +kernel
theorem test_unknown_kind : result (run up (.unknownKind 5 0x24)) = some (.refused .unknownKind) := by decide +kernel
theorem test_bad_frame : (run up (.hostFrameDiscard (frameBytes [0x21, 5, 0, 0, 0, 0]))).host.line
    = some (.notice { kind := .lineError, content := [0, 1, 0, 0, 0], folded := 1 }) := by decide +kernel

/-- Masking LINK_STATE puts its next notice in the pending table; PENDING_MOVE finds nothing to move, and unmasking moves it. -/
theorem test_mask_and_move :
    let s := runs up [.noticeMask 1 2, .linkEnable 1 0]
    s.host.pendingOf .linkState = some { content := [0, 0, 0xFF, 1, 0xFF, 0], folded := 1 }
      ∧ run s .pendingMove = s ∧ (run s (.noticeMask 1 0)).host.pendingOf .linkState = none := by decide +kernel

theorem test_outbound_grant : (run { up with host := { HostLink.reset with notices := [note 1] } } .outboundGrant).host.line
    = some (.notice (note 1)) := by decide +kernel

/-! ## Requests -/

theorem test_link_config_limits :
    ((run up (.linkConfig 1 11 255 1024 2048 64 255 65534 65535 16)).port 11).cfg.rows = 2048
      ∧ result (run up (.linkConfig 1 11 255 1040 2048 64 255 65534 65535 16)) = some (.refused .badField)
      ∧ result (run up (.linkConfig 1 11 255 1024 2048 64 255 65535 65535 16)) = some (.refused .badField) := by decide +kernel
theorem test_link_requests :
    ((run (linked .synced) (.linkDisable 1 0)).port 0).state = .off ∧ ((run (linked .synced) (.linkReset 1 0)).port 0).state = .waking
      ∧ result (run up (.linkReset 1 0)) = some (.refused .wrongState) ∧ result (run up (.hkRead 1 0)) = some (.done [0])
      ∧ result (run up (.linkQuery 1 12)) = some (.refused .badField) := by decide +kernel
theorem test_relay_request : ((run (linked .synced) (.relay 1 0 [1] 32 16)).port 0).relay.phase = .waitQuiet
    ∧ result (run (linked .synced) (.relay 1 0 [] 32 16)) = some (.refused .badField) := by decide +kernel
theorem test_exposure_requests :
    result (run gathering (.exposureOpen 1 7 2 (some 70000) 256 65536 64 128 3 1000 0)) = some (.refused .badField)
      ∧ ((run gathering (.exposureOpen 1 7 2 none 4100 65536 64 128 3 1000 0)).slot 0).photo.scale = 4100
      ∧ ((run (exposed .opened .notStarted .fixed) (.planRef 1 7 [(0, 5, 6, 0x3F800000)])).slot 0).refs.length = 1
      ∧ ((run (exposed .opened .notStarted .fixed) (.exposureAbandon 1 7)).slot 0).state = .free
      ∧ ((run (exposed .opened .running .fixed) (.readoutLimitExpiry 0)).slot 0).state = .free
      ∧ ((run (exposed .opened .notStarted .fixed) (.scaleSet 1 7 65536)).slot 0).photo.scale = 65536
      ∧ ((result (run (exposed .opened .notStarted .fixed) (.exposureQuery 1 7))).isSome = true) := by decide +kernel
theorem test_cal_requests :
    let s := run (linked .synced) (.calLoad 1 0 1 0 100 4096 none 60000 [])
    (s.segCal 0).holding = some rec0 ∧ ((run s (.calApplyNextReadout 1 (1 : BitVec 96))).segCal 0).armed = true
      ∧ ((runs s [.calApplyNextReadout 1 (1 : BitVec 96), .calApplyDisarm 1 (1 : BitVec 96)]).segCal 0).armed = false
      ∧ result (run up (.calApplyNow 1 (1 : BitVec 96))) = some (.refused .empty)
      ∧ (result (run s (.calQuery 1 95))).isSome = true := by decide +kernel

/-- The last 66 values of a flat of 64 by 64 are loaded, in two runs, and its check agrees. -/
def flatValues : List Nat := List.replicate 66 16384
def loading : State :=
  up.setFlat 0 { state := .loading, columns := 64, rows := 64, expected := crc32More 5 (flatValues.flatMap code16), count := 4030
                 running := 5 }
def upload : State := runs loading [.flatData 1 0 4030 flatValues, .flatDataWriteDone, .flatDataWriteDone]

theorem test_flat_upload : (upload.flat 0).count = 4096 ∧ upload.mem.flatValue 0 4095 = 16384 ∧ upload.host.job = none
    ∧ ((run upload (.flatEnd 1 0)).flat 0).state = .valid ∧ ((run upload (.flatDrop 1 0)).flat 0).state = .empty
    ∧ ((run up (.flatBegin 1 0 64 64 5)).flat 0).state = .loading := by decide +kernel
theorem test_flat_query : result (run up (.flatQuery 1 0)) = some (.done (0 :: 0 :: 0 :: List.replicate 24 0)) := by decide +kernel
theorem test_store_query : ((result (run up (.storeQuery 1))).map fun r => match r with
    | .done p => p.length
    | .refused _ => 0) = some (40 * 3 + 4) := by decide +kernel

/-- A reference of nine rows of nine values is judged at its ninth box read, and moves the scale. -/
def measured : State :=
  let s := (exposed .opened .running .tracking).setTile 3 { tile7 .filling (List.range 64) with missing := some 0 }
  let s := s.modSlot 0 fun x => { (x.setEntry 0 .inStore) with
    refs := [{ segment := 0, column := 4, row := 4, expected := 0x43220000, result := .unmeasured, measured := none }] }
  let s := s.setMeasure 0 [{ tile := 3, refs := [0], boxRow := 8 }]
  let m := (List.range 9).foldl (fun m r => m.setTileRow 3 r (List.replicate 64 (.value 0x3F800000))) s.mem
  { s with mem := m, store := { s.store with access := some (.box 0) } }

theorem test_box_is_judged :
    let s := run measured .referenceBoxReadDone
    (s.slot 0).refs.map RefRec.result = [.accepted] ∧ (s.slot 0).refs.map RefRec.measured = [some 0x42A20000]
      ∧ (s.slot 0).photo.scale = 6144 ∧ (s.tile 3).state = .heldPlan ∧ (s.tile 3).accepted = 1 := by decide +kernel

/-! ## Witnesses: states and operands that meet the hypotheses of the obligations, clause by clause -/

theorem ready_up : up.Ready := by unfold State.Ready; decide +kernel
theorem ready_linked : ∀ st ∈ [PortState.off, .down, .waking, .aligning, .synced, .reading, .fault], (linked st).Ready := by
  unfold State.Ready; decide +kernel
theorem ready_canvas : gathering.Ready ∧ (canvasOf .idle .ordered []).Ready := by unfold State.Ready; decide +kernel
theorem ready_exposed : (exposed .opened .notStarted .tracking).Ready ∧ (exposed .opened .running .tracking).Ready
    ∧ (exposed .reading .running .tracking).Ready := by unfold State.Ready; decide +kernel

theorem witness_StepRunsTheFrontCommand : ({ up with pending := [.storeQuery 1] } : State).pending = .storeQuery 1 :: [] := rfl

theorem witness_RequestCommandIsItsFrame :
    (Instr.status 5).wf = true ∧ requestOf (.status 5) = some (5, .status) ∧ Request.status.payload.length ≤ 4103
      ∧ up.host.rx.between ∧ ({ Receiver.hunting with inFrame := true } : Receiver).between :=
  ⟨by decide +kernel, rfl, by decide +kernel, Or.inl rfl, Or.inr rfl⟩

theorem witness_HostFramesAreJudged :
    up.host.rx.between ∧ (List.replicate 4103 (0 : Byte)).length ≤ 4103
      ∧ ([1] : List Byte).length < 6
      ∧ (let body : List Byte := [0x21, 5, 0, 0, 0, 0]
         body ≠ [] ∧ body.length ≤ 4109 ∧ ¬(body.length < 6 ∨ bytesToNat ((body.drop 2).take 2) ≠ body.length - 6
            ∨ 4103 < bytesToNat ((body.drop 2).take 2))
         ∧ ¬crc16 (body.take (body.length - 2)) = bytesToNat (body.drop (body.length - 2)))
      ∧ (let body := frameBody 0x21 5 []
         body ≠ [] ∧ body.length ≤ 4109 ∧ ¬(body.length < 6 ∨ bytesToNat ((body.drop 2).take 2) ≠ body.length - 6
            ∨ 4103 < bytesToNat ((body.drop 2).take 2))
         ∧ crc16 (body.take (body.length - 2)) = bytesToNat (body.drop (body.length - 2))
         ∧ 4 ≤ ({ up with host := { up.host with requests := List.replicate 4 (1, .status) } } : State).host.requests.length)
      ∧ (0 : Byte) ≠ 0x5E ∧ (0 : Byte) ≠ 0x5D ∧ (0 : Byte) ≠ 0xC1 :=
  ⟨Or.inl rfl, by rw [List.length_replicate], by decide +kernel, by decide +kernel, by decide +kernel, by decide, by decide, by decide⟩

theorem witness_HandlerRefusesBeforeTheOwner :
    (∀ k, Request.clear ≠ .unknown k) ∧ State.reset.store.state = .initialising ∧ waking.store.state = .waking
      ∧ Request.clear.kind ≠ 0x21 ∧ parked.store.state = .parked ∧ (∀ k, Request.park ≠ .unknown k) ∧ Request.park.kind ≠ 0x20
      ∧ Request.park.kind ≠ 0x21 ∧ Request.park.kind ≠ 0x22 ∧ Request.park.kind ≠ 0x23 ∧ up.store.state = .ready
      ∧ namesRequest 0 = false ∧ namesRequest 0x24 = false ∧ up.host.requests = [] ∧ up.host.handlerFree = true
      ∧ up.reply 1 (.linkReset 0) = (up, some (.refused .wrongState)) ∧ RefuseReason.wrongState ≠ .checkFailed :=
  ⟨nofun, rfl, rfl, by decide, rfl, nofun, by decide +kernel⟩

theorem witness_PartQueriesReadTheState :
    gathering.TableShaped ∧ up.TableShaped ∧ up.canvas.state = .idle ∧ gathering.canvas.state ≠ .idle
      ∧ gathering.canvas.width * gathering.canvas.height ≤ 2 ∧ gathering.cell? 1 = some .fresh
      ∧ State.reset.host.requests = [] ∧ State.reset.host.handlerFree = true :=
  ⟨rfl, rfl, rfl, by decide +kernel, by decide +kernel, by decide +kernel, rfl, by decide +kernel⟩

/-- 31 notices wait, and a READY and a LINK_STATE are pending. -/
def nearlyFull : State :=
  let h : HostLink := { HostLink.reset with notices := List.replicate 31 (note 1) }
  { up with host := (h.setPending .ready (some ⟨[7], 2⟩)).setPending .linkState (some ⟨[8], 3⟩) }

theorem witness_NoticesQueueFoldAndMove :
    HostLink.reset.mask.getLsbD NoticeKind.ready.num.val = false ∧ HostLink.reset.notices.length < 32
      ∧ HostLink.reset.mask.getLsbD NoticeKind.tileReport.num.val = true
      ∧ nearlyFull.host.requests = [] ∧ nearlyFull.host.notices.length = 31 ∧ nearlyFull.host.masked .ready = false
      ∧ nearlyFull.host.pendingOf .ready = some ⟨[7], 2⟩ ∧ (∀ j ∈ noticeKinds, ¬j.num < NoticeKind.ready.num)
      ∧ (run nearlyFull .pendingMove).host.notices.getLast? = some ⟨.linkState, [8], 3⟩
      ∧ parked.host.requests = [] ∧ parked.host.handlerFree = true ∧ parked.store.state = .parked ∧ 2 ^ 13 ≤ 8192 ∧ 8191 < 2 ^ 13 := by
  decide +kernel

/-- An answer waits, and every source is in class 2. -/
def answering (n : Nat) : State :=
  { up with host := { HostLink.reset with
      answers := [{ tag := 1, kind := 0x21, result := .done [] }], answerSource := { cls := n, waits := [.blocks] }
      noticeSource := { cls := 2, waits := [.answers] }, blockSource := { cls := 2, waits := [.answers] } } }

theorem witness_OutboundGrantServesTheLowestClass :
    (∀ n ∈ [1, 2], (answering n).host.requests = [] ∧ (answering n).host.line = none
      ∧ ((answering n).takeMessage .answers).isSome = true ∧ (answering n).waits .answers = true
      ∧ (∀ y ∈ allSources, (answering n).waits y = true → ((answering n).host.source .answers).cls ≤ ((answering n).host.source y).cls)
      ∧ (∀ y ∈ allSources, (answering n).waits y = true → allSources.idxOf Source.answers ≤ allSources.idxOf y)
      ∧ (((answering n).host.source .answers).cls = 1 ∨ ∀ y ∈ allSources, ((answering n).host.source y).cls = 2))
      ∧ (run (answering 1) .outboundGrant).host.line.isSome = true ∧ (∀ x ∈ allSources, up.waits x = false) := by decide +kernel

theorem witness_MessageSent :
    (run (answering 1) .outboundGrant).host.line = some (.answer { tag := 1, kind := 0x21, result := .done [] })
      ∧ (run { up with host := { HostLink.reset with notices := [note 1] } } .outboundGrant).host.line = some (.notice (note 1))
      ∧ (runs (answering 1) [.outboundGrant, .messageSent]).host.line = none := by decide +kernel

theorem witness_DetectionWakesThePort :
    (let s := up.setPort 11 { Port.reset with state := .down }
     s.host.requests = [] ∧ s.store.state = .ready ∧ (s.port 11).state = .down ∧ (s.port 11).signal = false)
    ∧ (let s := (linked .waking).modPort 0 Port.woken
       (s.port 0).state = .waking ∧ (s.port 0).wakeLimit = true ∧ (s.port 0).signal = true)
    ∧ ((linked .off).port 0).state = .off ∧ ((linked .off).port 0).signal = true ∧ (linked .off).host.handlerFree = true
    ∧ (let s := up.setPort 0 { Port.reset with state := .waking, wakeLimit := true }
       s.host.requests = [] ∧ (s.port 0).signal = false ∧ (s.port 0).state = .waking ∧ (s.port 0).wakeLimit = true)
    ∧ (up.port 0).signal = false := by decide +kernel

theorem witness_LinkEndsLeaveNothingOpen :
    (∀ st ∈ [PortState.waking, .aligning, .synced, .reading], ((linked st).port 0).state ∈ [.waking, .aligning, .synced, .reading]
      ∧ ((linked st).port 0).state ≠ .off ∧ ((linked st).port 0).state ≠ .down ∧ ((linked st).port 0).signal = true)
    ∧ (let s := up.setPort 0 { Port.reset with state := .fault, reason := some .align }
       (s.port 0).state ≠ .off ∧ (s.port 0).state ≠ .down ∧ (s.port 0).signal = false)
    ∧ 11 < 12 ∧ (up.port 0).state = .off ∧ ((linked .down).port 0).state = .down := by decide +kernel

theorem witness_RecordQueriesReadTheRecords :
    (exposed .opened .running .tracking).slotOf 7 = some 0 ∧ ((exposed .opened .running .tracking).slot 0).timer = .running
      ∧ ((exposed .opened .notStarted .tracking).slot 0).timer ≠ .running := by decide +kernel

theorem witness_TrainingFindsTheTap :
    (∀ st ∈ [PortState.off, .down, .fault], ((linked st).port 0).state ∈ [.off, .down, .fault])
    ∧ (linked .waking).host.requests = [] ∧ ((linked .waking).port 0).state = .waking ∧ train.getD 0 0 = 2
    ∧ (train.drop 11).take 16 = trainPattern ∧ ((linked .waking).port 0).relay.phase = .idle
    ∧ ((linked .waking).port 0).relay.abortOwed = false
    ∧ (let p := ({ (linked .aligning).port 0 with sense := some true } : Port)
       p.sense = some !false ∧ p.sense ≠ some !true ∧ p.tap < 63 ∧ ({ p with tap := 63 } : Port).tap = 63) := by decide +kernel

theorem witness_GoodIdleFrameCounts :
    (linked .synced).host.requests = [] ∧ ((linked .synced).port 0).state = .synced ∧ ((linked .synced).port 0).relay.phase = .idle
      ∧ ((linked .synced).port 0).relay.abortOwed = false ∧ ((linked .synced).port 0).hkPart = [] ∧ 11 < 12 ∧ 65535 < 65536 := by
  decide +kernel

theorem witness_RowFramesEnterTheBuffer :
    small.judge (rowOf 1 7 63) = none ∧ frameKind (rowOf 1 7 63) = 3 ∧ ((linked .synced).port 0).buffer = []
      ∧ ((linked .synced).port 0).state = .synced ∧ frameStart (rowOf 1 7 63) = true ∧ frameEnd (rowOf 1 7 63) = false
      ∧ frameRow (rowOf 1 7 63) < small.rows ∧ bufferedRows ((linked .synced).port 0).buffer < 4
      ∧ (reading []).holdsClaim (.intake 0) = true ∧ ((reading []).port 0).state = .reading
      ∧ ((reading []).port 0).ctx = some { exposure := 7, lastRow := 2, latched := none } ∧ frameStart (rowOf 0 7 3) = false
      ∧ frameEnd (rowOf 0 7 3) = false ∧ frameTag (rowOf 0 7 3) = 7 ∧ ¬frameRow (rowOf 0 7 3) ≤ 2 ∧ ¬small.rows ≤ frameRow (rowOf 0 7 3)
      ∧ 4 ≤ bufferedRows ((reading (List.replicate 4 (.row ⟨1, []⟩))).port 0).buffer
      ∧ frameEnd (rowOf 2 7 3) = true ∧ frameTag (rowOf 0 8 3) ≠ 7 ∧ frameRow (rowOf 0 7 2) ≤ 2 ∧ small.rows ≤ frameRow (rowOf 0 7 64)
      ∧ ((run (reading []) (.cameraFrame 0 true (rowOf 2 7 3))).port 0).buffer = [.row (small.rowOf (rowOf 2 7 3)), .finish] := by
  decide +kernel

theorem witness_BadFramesCountTowardsLossOfLock :
    (∀ st ∈ [PortState.synced, .reading], ((linked st).port 0).state ∈ [.synced, .reading] ∧ ((linked st).port 0).relay.phase = .idle
      ∧ ((linked st).port 0).relay.abortOwed = false ∧ ((linked st).port 0).cfg.judge [] = some .crc)
    ∧ (let s := (linked .synced).modPort 0 fun p => { p with badRun := 3 }
       (s.port 0).badRun = 3 ∧ ((run s (.cameraFrame 0 true [])).port 0).state = .waking) ∧ 2 < 3 := by decide +kernel

theorem witness_RelaysBeginAndTimeOut :
    let s := up.setPort 0 { Port.reset with state := .synced, relay := { relayIn .waitByte with idleFrames := 16 } }
    s.host.requests = [] ∧ (s.port 0).relay.phase ≠ .idle ∧ (s.port 0).relay.timeout ≤ (s.port 0).relay.idleFrames := by decide +kernel

theorem witness_RelayHandshake :
    (relayIn .waitQuiet).phase ≠ .idle ∧ (relayIn .waitQuiet).acked < (relayIn .waitQuiet).outgoing.length
      ∧ (let r := { relayIn .waitQuiet with acked := 2 }
         r.outgoing.length ≤ r.acked ∧ 0 < r.expected ∧ ({ r with expected := 0 } : Relay).expected = 0)
      ∧ (relayIn .offer).phase = .offer ∧ (relayIn .waitByte).reply.length < (relayIn .waitByte).expected
      ∧ (let r := { relayIn .waitByte with reply := [1] }
         r.expected ≤ r.reply.length)
      ∧ ({ relayIn .acknowledge with lastSeen := true } : Relay).lastSeen = true ∧ (relayIn .acknowledge).lastSeen = false
      ∧ ({ relayIn .idle with abortOwed := true } : Relay).abortOwed = true ∧ (relayIn .offer).abortOwed = false
      ∧ (relayIn .offer).outgoing.drop 0 = [0x41, 0x42] ∧ (relayIn .offer).outgoing.drop 1 = [0x42] := by decide +kernel

theorem witness_ExposureOpenFillsTheLowestFreeSlot :
    gathering.canvas.state = .gathering ∧ (∀ v, some 256 = some v → 256 ≤ v ∧ v ≤ 65536)
      ∧ (∀ j, (gathering.slot j).state ≠ .free → (gathering.slot j).exposure ≠ 65535) ∧ (gathering.slot 0).state = .free
      ∧ (let s := exposed .opened .notStarted .fixed
         (∀ j, (s.slot j).state ≠ .free → (s.slot j).exposure ≠ 8) ∧ (s.slot 1).state = .free ∧ ∀ j, j < 1 → (s.slot j).state ≠ .free) :=
  ⟨rfl, fun v h => by cases h; decide, by decide +kernel⟩

/-- Four exposures, 1 to 4. -/
def allOpen : State :=
  [0, 1, 2, 3].foldl (fun s k => State.setSlot s k { slot7 .opened .notStarted .fixed with exposure := k.val + 1 }) gathering

theorem witness_ExposureRequestsAreChecked :
    (∀ v, some 65536 = some v → 256 ≤ v ∧ v ≤ 65536)
      ∧ ¬(1 ≤ 0) ∧ up.canvas.state ≠ .gathering ∧ (∃ j, (allOpen.slot j).state ≠ .free ∧ (allOpen.slot j).exposure = 4)
      ∧ (¬∃ j, (allOpen.slot j).state ≠ .free ∧ (allOpen.slot j).exposure = 5) ∧ (∀ j, (allOpen.slot j).state ≠ .free)
      ∧ up.slotOf 7 = none ∧ (exposed .reading .running .tracking).slotOf 7 = some 0
      ∧ ((exposed .reading .running .tracking).slot 0).state ≠ .opened :=
  ⟨fun v h => by cases h; decide, by decide +kernel⟩

theorem witness_PlanPlaceKeepsSegmentOrder :
    let s := exposed .opened .notStarted .tracking
    s.slotOf 7 = some 0 ∧ (s.slot 0).state = .opened ∧ (s.slot 0).placements.Pairwise (fun p q => p.segment < q.segment)
      ∧ ¬(96 < 96) ∧ (95 < 96 ∧ 1 ≤ 255 ∧ 131072 ≤ s.canvas.width * 65536 ∧ 65536 ≤ s.canvas.height * 65536 ∧ (-262144 : Int) ≤ -262144
        ∧ 1 ≤ [0, 1].length ∧ (∀ i ∈ [0, 1], i < s.canvas.width * s.canvas.height) ∧ [0, 1].Nodup)
      ∧ ((run s (.planPlace 1 7 95 255 131072 65536 (-262144) 262144 0 0 [1, 0])).slot 0).placements.length = 2 := by decide +kernel

theorem witness_PlanRefAppendsReferences :
    let s := exposed .opened .notStarted .tracking
    let r : Nat × Nat × Nat × F32 := (95, 1023, 2047, 0x7F7FFFFF)
    s.slotOf 7 = some 0 ∧ (s.slot 0).state = .opened ∧ ¬(1 ≤ ([] : List Nat).length)
      ∧ (r.1 < 96 ∧ r.2.1 ≤ 1023 ∧ r.2.2.1 ≤ 2047 ∧ 0 < r.2.2.2.toNat ∧ r.2.2.2.toNat < 0x7F800000)
      ∧ (s.slot 0).refs.length + [r].length ≤ 32
      ∧ 32 < ({ s.slot 0 with refs := List.replicate 32 ⟨0, 4, 4, 0x3F800000, .unmeasured, none⟩ } : ExpSlot).refs.length + [r].length := by
  decide +kernel

/-- Exposure 7 OPEN, its segment's slot enabled. -/
def planned : State := (exposed .opened .notStarted .tracking).setPort 0 { Port.reset with cfg := small }

theorem witness_CommitPromisesToCells :
    planned.Ready ∧ planned.slotOf 7 = some 0 ∧ (planned.slot 0).state = .opened ∧ (planned.slot 0).timer = .notStarted
      ∧ planned.tilesOf 0 = [] ∧ (∀ g, (planned.slot 0).entry g = .notStarted) ∧ (planned.slot 0).placements = [plan0]
      ∧ plan0.cells.Nodup ∧ (planned.port (linkOf plan0.segment)).cfg.slots.getLsbD (plan0.segment.val % 8) = true
      ∧ plan0.cells = [0, 1] ∧ planned.cell? 0 = some .fresh ∧ planned.cell? 1 = some .fresh
      ∧ Cell.fresh.owed + [plan0].countP (fun q => decide (1 ∈ q.cells)) ≤ 255
      ∧ planned.tiles.queue = [] ∧ planned.heldTiles 0 = []
      ∧ result (run planned (.exposureCommit 1 7)) = some (.done [2, 1, 0, 0, 0]) := by unfold State.Ready; decide +kernel

/-- The refusals of a commit: an empty plan, a slot not enabled, a closed cell, a cell that owes 255. -/
theorem witness_CommitRefusals :
    result (run (planned.modSlot 0 fun x => { x with placements := [] }) (.exposureCommit 1 7)) = some (.refused .emptyPlan)
      ∧ result (run (exposed .opened .notStarted .tracking) (.exposureCommit 1 7)) = some (.refused .segmentOff)
      ∧ result (run (planned.setCell 1 (cellIn .exempt 0)) (.exposureCommit 1 7)) = some (.refused .cellClosed)
      ∧ result (run (planned.setCell 1 (cellIn .pending 255)) (.exposureCommit 1 7)) = some (.refused .owedLimit)
      ∧ result (run (planned.setCell 1 (cellIn .pending 254)) (.exposureCommit 1 7)) = some (.done [2, 1, 0, 0, 0]) := by decide +kernel

theorem witness_AbandonedAndOverrunSlotsEnd :
    (let s := exposed .opened .running .tracking
     s.slotOf 7 = some 0 ∧ (s.slot 0).state = .opened ∧ s.tilesOf 0 = [] ∧ (∀ g, (s.slot 0).entry g ≠ .inStore) ∧ s.host.requests = []
       ∧ (s.slot 0).timer = .running)
    ∧ (let s := (exposed .reading .running .tracking).setTile 3 (tile7 .queued [])
       s.slotOf 7 = some 0 ∧ (s.tile 3).owner = some 0 ∧ (s.tile 3).state ≠ .placing ∧ (s.tile 3).state ≠ .free
         ∧ (s.slot 0).timer = .running ∧ (s.slot 0).state = .reading ∧ s.tilesOf 0 ≠ [] ∧ (s.slot 0).photo.mode ≠ .settled
         ∧ ((run s (.readoutLimitExpiry 0)).slot 0).state = .placing) := by decide +kernel

theorem witness_ScaleSetAndUpdate :
    (exposed .opened .notStarted .tracking).slotOf 7 = some 0 ∧ (0 : Int) < 1 ∧ (photo .tracking).mode = .tracking
      ∧ ((photo .settled).mode = .settled ∧ (photo .settled).frozen = false) ∧ (photo .fixed).mode = .fixed
      ∧ ({ photo .settled with frozen := true } : Photometry).frozen = true := by decide +kernel

/-- A VALID flat of the small geometry in entry 3. -/
def withFlat : State := (linked .synced).setFlat 3 { state := .valid, columns := 64, rows := 64, expected := 0, count := 0, running := 0 }

theorem witness_CalLoadReplacesTheHoldingRecord :
    (Bias.overscan 4 = .overscan 4 ∨ Bias.overscan 4 = .fixed 0) ∧ (Bias.fixed 9 = .overscan 0 ∨ Bias.fixed 9 = .fixed 9)
      ∧ ¬(16 ≤ 15) ∧ (15 ≤ 15 ∧ 65535 ≤ 65535 ∧ 1024 ≤ 65536 ∧ 1 ≤ 65535)
      ∧ (withFlat.flat 2).state ≠ .valid ∧ (withFlat.flat 3).state = .valid ∧ (withFlat.flat 3).columns = small.active
      ∧ (up.port 11).cfg.active ≠ (withFlat.flat 3).columns ∧ 4 + 4 ≤ small.overscan ∧ ¬(5 + 4 ≤ small.overscan)
      ∧ 95 < 96 ∧ 1 < 2 ∧ 23 < 24
      ∧ result (run withFlat (.calLoad 1 7 0 4 0 1024 (some 3) 1 [(0, 1023, 0, 2047)])) = some (.done [])
      ∧ result (run withFlat (.calLoad 1 7 0 5 0 1024 (some 3) 1 [])) = some (.refused .geometry)
      ∧ result (run withFlat (.calLoad 1 7 0 4 0 1024 (some 2) 1 [])) = some (.refused .flatNotValid) := by decide +kernel

/-- Segments 0 and 95 with holding records. -/
def held2 : State := ((linked .synced).setSegCal 0 { SegCal.reset with holding := some rec0 }).setSegCal 95
  { SegCal.reset with holding := some rec0, generation := 65535 }

theorem witness_CalApplyTransfersArmsAndDisarms :
    let m : BitVec 96 := 1 ||| (1 <<< 95)
    m ≠ 0 ∧ (∃ g : Fin 96, (3 : BitVec 96).getLsbD g.val = true ∧ (held2.segCal g).holding = none)
      ∧ (¬∃ g : Fin 96, m.getLsbD g.val = true ∧ (held2.segCal g).holding = none)
      ∧ (∃ g : Fin 96, m.getLsbD g.val = true ∧ ((held2.modPort 0 fun p => { p with state := .reading }).port (linkOf g)).state = .reading)
      ∧ (¬∃ g : Fin 96, m.getLsbD g.val = true ∧ ((held2.port (linkOf g)).state = .reading
          ∨ ∃ t, (held2.tile t).state = .filling ∧ (held2.tile t).segment = g))
      ∧ ((run held2 (.calApplyNow 1 m)).segCal 95).generation = 0 := by decide +kernel

theorem witness_FlatDataIsWrittenInRuns :
    ¬(1 ≤ ([] : List Nat).length) ∧ (1 ≤ flatValues.length ∧ flatValues.length ≤ 2048) ∧ (up.flat 0).state ≠ .loading
      ∧ (loading.flat 0).state = .loading ∧ 0 ≠ (loading.flat 0).count ∧ 4030 = (loading.flat 0).count
      ∧ (loading.flat 0).columns * (loading.flat 0).rows < (loading.flat 0).count + 67
      ∧ (loading.flat 0).count + flatValues.length ≤ (loading.flat 0).columns * (loading.flat 0).rows
      ∧ (let s := run loading (.flatData 1 0 4030 flatValues)
         s.host.requests = [] ∧ s.store.access = some .flatWrite
           ∧ s.host.job.map FlatJob.runs = some [(4030, flatValues.take 2), (4032, flatValues.drop 2)])
      ∧ (let s := runs loading [.flatData 1 0 4030 flatValues, .flatDataWriteDone]
         s.store.access = some .flatWrite ∧ s.host.job.map FlatJob.runs = some [(4032, flatValues.drop 2)]) := by decide +kernel

theorem witness_FlatUploadsAreChecked :
    23 < 24 ∧ (64 ≤ 1024 ∧ 1024 % 16 = 0 ∧ 64 ≤ 2048)
      ∧ result (run loading (.flatBegin 1 1 64 64 0)) = some (.refused .busy)
      ∧ (run loading (.flatEnd 1 0)).flat 0 = .reset
      ∧ (let s := withFlat.setSegCal 0 { SegCal.reset with holding := some { rec0 with flat := some 3 } }
         result (run s (.flatBegin 1 3 64 64 0)) = some (.refused .isProtected)
           ∧ result (run s (.flatDrop 1 3)) = some (.refused .isProtected)) := by decide +kernel

theorem witness_PixelsAreCalibrated :
    1 ≤ 1 ∧ (∀ k, rec0.bias = .overscan k → k < ([] : List Nat).length)
      ∧ (∀ k, Bias.overscan 3 = .overscan k → k < [1, 2, 3, 4].length)
      ∧ rec0.saturation ≤ 60000 ∧ ¬rec0.saturation ≤ 59999 ∧ ¬(16384 = 0 ∨ ∃ d ∈ rec0.defects, d.firstCol ≤ 0)
      ∧ 0 < 3 ∧ (f32OfRatio 1 3).toNat % 2 ^ 31 < 0x7F800000 ∧ f32OfRatio 1 3 = 0x3EAAAAAB :=
  ⟨by decide, nofun, fun k h => by cases h; decide, by decide, by decide, by decide, by decide, by decide +kernel, by decide +kernel⟩

/-- A START of exposure 7 at row 0 waits at the head of link 0's buffer; its segment has a matching record. -/
def starting : State :=
  (planned.setSegCal 0 { SegCal.reset with active := some rec0 }).modPort 0 fun p =>
    { p with buffer := [.start 7 0], ctx := some { exposure := 7, lastRow := 0, latched := none } }

theorem witness_ReadoutStartsIgnoreOrAllocate :
    starting.host.requests = [] ∧ starting.measure 0 = [] ∧ starting.holdsClaim (.intake 0) = false
      ∧ (starting.port 0).buffer = [.start 7 0] ∧ starting.slotOf 7 = some 0 ∧ (starting.slot 0).state = .opened
      ∧ (∀ a : Fin 8, (starting.segCal (segmentOf 0 a)).armed = false)
      ∧ (∀ a : Fin 8, (starting.port 0).cfg.slots.getLsbD a.val = true → a = 0) ∧ (starting.slot 0).entry (segmentOf 0 0) = .notStarted
      ∧ (starting.segCal (segmentOf 0 0)).active = some rec0 ∧ rec0.mismatch (starting.port 0).cfg = none ∧ 8 ≤ starting.freeTiles
      ∧ ((run starting (.readoutStart 0)).tile 0).state = .filling
      ∧ (let s := starting.setSlot 0 .empty
         s.slotOf 7 = none ∧ s.slotOf 0 = none ∧ (s.port 0).buffer = [.start 7 0]
           ∧ (run s (.readoutStart 0)).host.line = some (.notice ⟨.readoutIgnored, [0, 7, 0, 0, 0], 1⟩))
      ∧ ((none : Option HkCycle).map HkCycle.words = none) := by decide +kernel

/-- What the latch turns on: a cycle of exposure 7, of 1 ms, at the high edge of the window. -/
theorem witness_LatchFollowsHousekeeping :
    let c : HkCycle := { words := [0, 7, 1, 0, 18300, 0, 0, 0, 0, 0, 0, 0], zone := .inside }
    let p := ({ (linked .synced).port 0 with hk := some c } : Port)
    p.hk = some c ∧ c.words.getD 1 0 = 7 ∧ 1 ≤ c.words.getD 2 0 + 65536 * c.words.getD 3 0 ∧ c.words.getD 1 0 ≠ 8
      ∧ (p.latch 7 none).warm = false ∧ (p.latch 8 (some 5)).nominal = true := by decide +kernel

/-- A FILLING tile of link 0 with some rows held, and an END marker at the head of the buffer. -/
def ending (rows : Nat) : State :=
  let s := (exposed .opened .running .tracking).setPort 0 { Port.reset with state := .synced, cfg := small, buffer := [.finish] }
  (s.setTile 3 (tile7 .filling (List.range rows))).modSlot 0 fun x => x.setEntry 0 .inStore

theorem witness_ReadoutEndClosesTheTile :
    (∀ n ∈ [48, 47], (ending n).host.requests = [] ∧ (ending n).measure 0 = [] ∧ (ending n).holdsClaim (.intake 0) = false
      ∧ ((ending n).port 0).buffer = [.finish] ∧ (ending n).openTiles 0 = [3] ∧ ((ending n).tile 3).owner = some 0
      ∧ ((ending n).slot 0).state = .opened ∧ ((ending n).slot 0).refsFor ((ending n).tile 3).segment = []
      ∧ linkOf ((ending n).tile 3).segment = 0 ∧ ((ending n).slot 0).entry ((ending n).tile 3).segment = .inStore)
    ∧ ((ending 48).tile 3).rows - ((ending 48).tile 3).received ≤ ((ending 48).tile 3).limit
    ∧ ((ending 47).tile 3).limit < ((ending 47).tile 3).rows - ((ending 47).tile 3).received
    ∧ ((run (ending 48) (.readoutEnd 0)).tile 3).state = .heldPlan
    ∧ ((run (ending 47) (.readoutEnd 0)).slot 0).entry 0 = .resolved .rows := by decide +kernel

/-- One slot row of row 5 is being written. -/
def writing : State :=
  let s := (ending 5).modPort 0 fun p => { p with buffer := [.row ⟨5, [⟨0, List.replicate 64 600, List.replicate 8 100⟩]⟩] }
  { s with store := { s.store with access := some (.intake 0) } }

theorem witness_IntakeWritesTheCalibratedRow :
    writing.host.requests = [] ∧ writing.mem.wf = true ∧ writing.store.access = some (.intake 0) ∧ writing.measure 0 = [] ∧ 5 < 2048
      ∧ (writing.port 0).buffer = [.row { index := 5, slots := [⟨0, List.replicate 64 600, List.replicate 8 100⟩] }]
      ∧ writing.fillingTile (segmentOf 0 0) = some 3 ∧ (writing.tile 3).cal = some rec0 ∧ Claim.intake 0 ∉ writing.store.waiting
      ∧ (run writing .intakeRowWriteDone).mem.tileRow 3 5 = List.replicate 64 (.value 0x43FA0000) := by decide +kernel

theorem witness_ReferencesAreMeasured :
    (∃ p ∈ [CalPixel.flagged true false], ∃ d st, p = .flagged d st)
      ∧ measured.host.requests = [] ∧ measured.store.access = some (.box 0)
      ∧ measured.measure 0 = [{ tile := 3, refs := [0], boxRow := 8 }] ∧ (measured.tile 3).owner = some 0
      ∧ (measured.slot 0).refs[0]?.isSome = true ∧ (measured.slot 0).state = .opened ∧ 0 ∉ ([] : List Nat) ∧ measured.openTiles 0 = []
      ∧ (let s := measured.setMeasure 0 [{ tile := 3, refs := [0], boxRow := 7 }]
         s.measure 0 = [{ tile := 3, refs := [0], boxRow := 7 }] ∧ (run s .referenceBoxReadDone).store.access = some (.box 0))
      ∧ (measured.slot 0).photo.accepted + 1 ≠ (measured.slot 0).photo.quota
      ∧ judgeBox (List.replicate 81 (.value 0xBF800000)) = (.rejected .nonpositive, some 0xC2A20000) :=
  ⟨⟨_, List.mem_singleton.mpr rfl, true, false, rfl⟩, by decide +kernel⟩

theorem witness_Placement :
    (1 ≤ 1 ∧ 255 ≤ 255 ∧ 1 ≤ 16) ∧ 511 < 256 * 2 ∧ (-1 : Int) < 0 ∧ 256 * 2 ≤ 512 ∧ (CanvasPixel.zero).weight ≤ 65535
      ∧ ({ CanvasPixel.zero with weight := 65535, count := 255 } : CanvasPixel).weight ≤ 65535 := by decide +kernel

/-- The placement unit with row 5 of tile 3 in flight. -/
def placing : State := run queued .tileTake

theorem witness_TileTakeFormsThePlacementContext :
    queued.host.requests = [] ∧ queued.place = none ∧ queued.tiles.queue = [3] ∧ (queued.tile 3).owner = some 0
      ∧ (queued.slot 0).placementFor (queued.tile 3).segment = some plan0 ∧ queued.canvas.state ≠ .idle
      ∧ (queued.tile 3).nextHeld 0 = some 5 ∧ placing.place.map PlaceCtx.phase = some .inFlight := by decide +kernel

/-- What each pixel of the row can meet: an ended canvas, a place outside it, an unnamed cell, a closed cell, a PENDING cell. -/
theorem witness_EachPixelIsJudgedOnce :
    (placing.place.map fun c => c.target 0 5) = some (some (0, 1280)) ∧ (placing.place.map fun c => c.target 600 5) = some none
      ∧ (placing.place.map fun c => (c.target 300 5).map Prod.fst) = some (some 1)
      ∧ (placing.place.map fun c => (c.ended, c.plan)) = some (false, plan0) ∧ 0 ∈ plan0.cells ∧ 2 ∉ plan0.cells
      ∧ (placing.cell? 0).map Cell.state = some .pending ∧ placing.mem.wf = true
      ∧ (placing.setCell 0 (cellIn .complete 0)).cell? 0 = some (cellIn .complete 0) := by decide +kernel

theorem witness_RowsCompleteAndTilesLeave :
    (placing.place.map fun c => (c.phase, c.stop, c.tile)) = some (.inFlight, false, 3) ∧ placing.host.requests = []
      ∧ placing.store.access = some .placement ∧ placing.tiles.queue = [] ∧ (placing.tile 3).nextHeld 6 = none
      ∧ (let s := placing.modTile 3 fun x => { x with held := [5, 6] }
         (s.tile 3).nextHeld 6 = some 6 ∧ (run s .placementRowDone).place.map PlaceCtx.row = some 6)
      ∧ (let s := placing.setTile 4 (tile7 .heldPlan [])
         (s.tile 3).owner = some 0 ∧ (s.slot 0).isCommitted = true ∧ (s.slot 0).photo.mode ≠ .settled
           ∧ (s.slot 0).entry (s.tile 3).segment = .inStore ∧ 4 ∈ s.tilesOf 0 ∧ (run s .placementRowDone).place = none
           ∧ ((run s .placementRowDone).slot 0).entry 0 = .resolved .placed)
      ∧ (let s := { placing with place := placing.place.map fun c => { c with stop := true } }
         (s.tile 3).state = .placing ∧ ((run s .placementRowDone).tile 3).state = .free) := by decide +kernel

theorem witness_CanvasOpenBeginsACanvas :
    ¬(33 ≤ 32) ∧ (1 ≤ 32 ∧ 32 ≤ 32 ∧ 1 ≤ 1) ∧ gathering.canvas.state ≠ .idle ∧ up.canvas.state = .idle
      ∧ (¬∃ k, (up.slot k).state ≠ .free) ∧ up.drain.state = .idle
      ∧ result (run up (.canvasOpen 1 32 32 1)) = some (.done [0, 4]) ∧ result (run up (.canvasOpen 1 33 1 1)) = some (.refused .badField)
      ∧ result (run gathering (.canvasOpen 1 1 1 1)) = some (.refused .busy) := by decide +kernel

theorem witness_CanvasCloseSortsTheCells :
    up.canvas.state ≠ .gathering ∧ (∃ k, ((exposed .opened .notStarted .fixed).slot k).state = .opened)
      ∧ (∀ k, (closing.slot k).state ≠ .opened) ∧ closing.canvas.state = .gathering
      ∧ (let u := canvasOf .closed .ordered [cellIn .drained 0, cellIn .exempt 0]
         u.canvas.state = .closed ∧ (∀ x ∈ u.canvas.cells, x.state = .drained ∨ x.state = .exempt))
      ∧ ¬(gathering.canvas.state = .closed) := by decide +kernel

theorem witness_CellReleaseForcesPendingCells :
    gathering.TableShaped ∧ up.TableShaped ∧ 1023 < 1024 ∧ up.canvas.state = .idle ∧ gathering.canvas.width * gathering.canvas.height ≤ 2
      ∧ gathering.cell? 0 = some .fresh ∧ Cell.fresh.state = .untouched
      ∧ (∀ st ∈ [CellState.pending, .complete, .draining, .drained, .exempt],
          (gathering.setCell 1 (cellIn st 0)).cell? 1 = some (cellIn st 0)) :=
  ⟨rfl, rfl, by decide, rfl, by decide +kernel, by decide +kernel, rfl, by decide +kernel⟩

theorem witness_CanvasAbandonEndsTheCanvas :
    up.canvas.state = .idle ∧ gathering.canvas.state ≠ .idle ∧ gathering.place = none
      ∧ (let s := (exposed .placing .stopped .fixed).setTile 39 (tile7 .queued [])
         (s.tile 39).owner = some 0 ∧ (s.slot 0).state ≠ .free ∧ (s.tile 39).state ≠ .placing
           ∧ ((run s (.canvasAbandon 1)).tile 39).state = .free)
      ∧ (∀ st ∈ [DrainState.idle, .reading, .offered, .sending, .stopped],
          let s : State := { gathering with drain := { Drain.reset with state := st } }
          (run s (.canvasAbandon 1)).drain.state = (if st = .sending then .sending else .idle))
      ∧ (run { gathering with drain := { Drain.reset with state := .reading }, store := { up.store with access := some .drainRead } }
          (.canvasAbandon 1)).drain = { Drain.reset with state := .reading, ended := true } := by decide +kernel

theorem witness_HoldAndResumeStopAndStartTheDrain :
    (∀ st ∈ [DrainState.idle, .reading, .offered, .sending, .stopped], ∀ h ∈ [true, false],
      let s : State := { gathering with drain := { Drain.reset with state := st, hold := h } }
      s.drain.state = st ∧ s.drain.hold = h ∧ s.store.access ≠ some .drainRead ∧ (run s (.drainHold 1)).drain.hold = true
        ∧ (run s (.drainResume 1)).drain.hold = false)
    ∧ ({ gathering with store := { up.store with access := some .drainRead } } : State).store.access = some .drainRead := by
  decide +kernel

theorem witness_DrainTakesTheCellItsOrderNames :
    up.canvas.state = .idle
      ∧ (let s := { canvasOf .closed .arrival [cellIn .complete 0, .fresh] with drain := { Drain.reset with queue := [0] } }
         s.drain.state = .idle ∧ s.drain.hold = false ∧ s.canvas.state ≠ .idle ∧ s.store.state = .ready ∧ s.canvas.order = .arrival
           ∧ s.cell? 0 = some (cellIn .complete 0) ∧ (cellIn .complete 0).zeroed = true ∧ Cell.fresh.zeroed = false
           ∧ (run s .drainTake).drain.state = .reading)
      ∧ (let s := canvasOf .closed .ordered [cellIn .drained 0, cellIn .complete 0]
         s.canvas.order = .ordered ∧ s.cell? 0 = some (cellIn .drained 0) ∧ s.cell? 1 = some (cellIn .complete 0)
           ∧ (run s .drainTake).drain.cell = 1)
      ∧ (let s := canvasOf .closed .ordered [{ cellIn .complete 0 with zeroed := false }, cellIn .complete 0]
         s.cell? 0 = some { cellIn .complete 0 with zeroed := false } ∧ (run s .drainTake).drain.state = .idle)
      ∧ (let s := canvasOf .closed .ordered [cellIn .drained 0, cellIn .exempt 0]
         (run s .drainTake).drain.state = .idle) := by decide +kernel

theorem witness_BlockReadsFormBlocks :
    ∀ e ∈ [true, false], ∀ h ∈ [true, false],
      let s : State := { canvasOf .closed .ordered [cellIn .draining 0, .fresh] with
        drain := { Drain.reset with state := .reading, block := 16, ended := e, hold := h }
        store := { up.store with access := some .drainRead } }
      s.host.requests = [] ∧ s.store.access = some .drainRead ∧ s.drain.ended = e ∧ s.drain.hold = h
        ∧ s.cell? s.drain.cell = some (cellIn .draining 0) := by decide +kernel

theorem witness_EmittedBlocksMoveTheDrainOn :
    lastBlock.host.requests = [] ∧ lastBlock.host.line = some (.block block0) ∧ lastBlock.drain.state = .sending
      ∧ lastBlock.drain.ended = false ∧ lastBlock.drain.block = 16 ∧ (lastBlock.cell? lastBlock.drain.cell).isSome = true
      ∧ (∀ h ∈ [true, false], ∀ e ∈ [true, false],
          let s : State := { lastBlock with drain := { lastBlock.drain with block := 15, hold := h, ended := e } }
          s.drain.state = .sending ∧ s.drain.block ≠ 16
            ∧ (run s .pictureBlockEmitted).drain.state = (if e then .idle else if h then .stopped else .reading))
      ∧ (let s : State := { lastBlock with drain := .reset }
         s.drain.state ≠ .sending ∧ (run s .pictureBlockEmitted).host.line = none) := by decide +kernel

/-- The zeroing of cell 1 is in flight, cell 0's job waits, and a row waits on cell 1. -/
def zeroing : State :=
  let s := canvasOf .gathering .ordered [.fresh, { Cell.fresh with state := .pending }]
  { s with
    store := { up.store with zeroQueue := [1, 0], access := some .zeroing }
    place := placing.place.map fun c => { c with phase := .waitingZero, waitSet := [1] } }

theorem witness_ZeroingClearsTheHeadCell :
    zeroing.host.requests = [] ∧ zeroing.store.access = some .zeroing ∧ zeroing.store.zeroQueue = [1, 0] ∧ [0] ≠ ([] : List Nat)
      ∧ zeroing.cell? 1 = some { Cell.fresh with state := .pending } ∧ Cell.fresh.state ≠ .pending ∧ Cell.fresh.state ≠ .complete
      ∧ (zeroing.place.map fun c => (c.phase, c.waitSet)) = some (.waitingZero, [1]) ∧ 65535 < 65536
      ∧ (run zeroing .zeroingDone).store.access = some .zeroing ∧ (run zeroing .zeroingDone).holdsClaim .placement = true := by
  decide +kernel

theorem witness_MemoryIsGrantedInOrder :
    let st := up.store
    st.state = .ready ∧ st.access = none ∧ 6 ≤ ({ st with owed := 6 } : StoreCtl).owed ∧ 5 < 6
      ∧ ([.zeroing, .intake 2, .intake 1] : List Claim) = [.zeroing] ++ Claim.intake 2 :: [.intake 1]
      ∧ (∀ m : Fin 12, Claim.intake m ∉ [Claim.zeroing])
      ∧ st.rotation = [.zeroing] ++ RotKind.placement :: [.drain, .flat, .box]
      ∧ (∀ x ∈ [Claim.drainRead, .placement], ∀ j ∈ [RotKind.zeroing], x.rotKind ≠ some j)
      ∧ ([.drainRead, .placement] : List Claim) = [.drainRead] ++ Claim.placement :: [] ∧ Claim.placement.rotKind = some .placement
      ∧ (∀ x ∈ [Claim.drainRead], x.rotKind ≠ some .placement)
      ∧ (run { up with store := { st with waiting := [.drainRead, .placement] } } .memoryGrant).store.rotation
          = [.zeroing, .drain, .flat, .box, .placement]
      ∧ (run { up with store := { st with waiting := [.zeroing, .intake 2, .intake 1] } } .memoryGrant).store.access = some (.intake 2)
      ∧ st.waiting = [] ∧ st.owed = 0 ∧ parked.store.state ≠ .ready ∧ parked.store.access = none ∧ st.interval = true
      ∧ (run up .refreshIntervalExpiry).store.access = some .refresh := by decide +kernel

theorem witness_StoreBecomesReady :
    State.reset.host.requests = [] ∧ State.reset.store.state = .initialising ∧ waking.store.state = .waking
      ∧ State.reset.host.masked .ready = false ∧ State.reset.host.notices = [] := by decide +kernel

theorem witness_ParkAndUnpark :
    (∃ k, ((exposed .opened .notStarted .fixed).slot k).state ≠ .free)
      ∧ ¬((∃ k, (up.slot k).state ≠ .free) ∨ (∃ n, (up.tile n).state ≠ .free) ∨ (∃ c ∈ up.canvas.cells, c.state = .draining)
        ∨ (∃ i, (up.flat i).state = .loading) ∨ up.drain.state ≠ .idle)
      ∧ parked.host.requests = [] ∧ parked.host.handlerFree = true ∧ parked.store.state = .parked
      ∧ result (run loading (.park 1)) = some (.refused .busy) := by decide +kernel

theorem witness_GeneralClearResetsEveryBlock :
    up.host.requests = [] ∧ up.host.handlerFree = true ∧ up.store.state = .ready ∧ parked.store.state = .parked
      ∧ waking.store.state = .waking ∧ up.host.rx = .hunting ∧ (loading.flat 0).state = .loading ∧ (up.flat 0).state ≠ .loading
      ∧ up.host.masked .clearDone = false
      ∧ ({ up with host := { up.host with mask := 2048 } } : State).host.masked .clearDone = true
      ∧ (run parked (.clear 9)).store.state = .waking := by decide +kernel

/-- States that keep the laws and take a step. -/
theorem witness_StepsKeepTheMemoryLaws :
    ∃ s t : State, (s.mem.wf = true ∧ s.mem.PixelLaw ∧ s.WeightsPositive) ∧ step s = .next t :=
  ⟨up, up, ⟨by decide +kernel, fun _ => Iff.rfl, by decide +kernel, nofun⟩, rfl⟩
theorem witness_StepsKeepTheHostLinkLaws :
    ∃ s t : State, (s.host.Bounded ∧ s.host.PendingLaw ∧ s.host.SourcesLawful ∧ s.OwedBounded) ∧ step s = .next t :=
  ⟨up, up, ⟨by unfold HostLink.Bounded; decide +kernel, fun k _ => by cases k <;> rfl, fun x => by cases x <;> exact Or.inl ⟨rfl, rfl⟩,
    by unfold State.OwedBounded; decide +kernel⟩, rfl⟩
theorem witness_StepsKeepTheRecordLaws :
    ∃ s t : State, ((∀ k, (s.slot k).ScaleLaw) ∧ s.TagsDistinct ∧ s.TableShaped ∧ s.NamedFlatsValid) ∧ step s = .next t :=
  ⟨up, up, ⟨by unfold ExpSlot.ScaleLaw; decide +kernel, by unfold State.TagsDistinct; decide +kernel, rfl,
    by unfold State.NamedFlatsValid; decide +kernel⟩, rfl⟩

/-- The clauses of LINK_CONFIG at the edges of its ranges: replaced, BUSY in READING, and BAD_FIELD above link 11. -/
theorem witness_LinkConfigReplacesTheWholeSet :
    up.Ready ∧ (linked .reading).Ready ∧ (up.port 11).state ≠ .reading ∧ bufferedRows (up.port 11).buffer = 0
      ∧ result (run up (.linkConfig 1 11 255 64 64 0 0 0 1 1)) = some (.done [])
      ∧ result (run (linked .reading) (.linkConfig 1 0 255 64 64 0 0 0 1 1)) = some (.refused .busy)
      ∧ result (run up (.linkConfig 1 12 255 64 64 0 0 0 1 1)) = some (.refused .badField) := by
  unfold State.Ready; decide +kernel

theorem witness_RoundingIsToTheNearest :
    0 < 3 ∧ (f32OfRatio 1 3).toNat % 2 ^ 31 < 0x7F800000 ∧ (f32OfRatio (-1) 3).toNat % 2 ^ 31 < 0x7F800000
      ∧ (0x3F800000 : F32).toNat % 2 ^ 31 < 0x7F800000 := by decide +kernel

/-! ### The clauses added where a rule's other half was missing -/

/-- A body one byte too long, and broken runs of one and three pairs, in a frame and in HUNTING. -/
theorem witness_LongBodiesAndBrokenRuns :
    (List.replicate 4110 (0 : Byte)).length = 4110 ∧ (0x7E : Byte) ≠ 0x7D
      ∧ (∀ n ∈ [1, 3], let pairs := (List.replicate n ([0x7D, 0xC1] : List Byte)).flatten
          let framed := run up (.hostFrameDiscard (0x7E :: ([1, 0x7D] : List Byte).flatMap escapeByte ++ pairs ++ [0x7E]))
          let loose := run up (.hostFrameDiscard (pairs ++ [0x7E]))
          framed.host.rx = { Receiver.hunting with inFrame := true } ∧ framed.host.lineErrors = 1
            ∧ framed.host.line = some (.notice { kind := .lineError, content := [2, 1, 0, 0, 0], folded := 1 })
            ∧ loose = { up with host := { up.host with rx := { Receiver.hunting with inFrame := true } } }) :=
  ⟨List.length_replicate, by decide +kernel⟩

/-- A detection that changes no port: signal there already, a store that is not READY, a port that is not DOWN; and what each state sends. -/
theorem witness_DetectionThatChangesNoState :
    (∀ s ∈ [parked, waking], s.host.requests = [] ∧ s.store.state ≠ .ready
      ∧ ((run (s.setPort 0 { Port.reset with state := .down }) (.signalDetect 0)).port 0).state = .down
      ∧ (let t := s.setPort 0 { Port.reset with state := .waking, wakeLimit := true, signal := true }
         (t.port 0).state = .waking ∧ (t.port 0).wakeLimit = true ∧ ((run t (.wakeLimitExpiry 0)).port 0).state = .down))
    ∧ (∀ st ∈ [PortState.off, .fault], let s := up.setPort 0 { Port.reset with state := st }
        (s.port 0).signal = false ∧ (s.port 0).state ≠ .down ∧ (run s (.signalDetect 0)).port 0 = { s.port 0 with signal := true })
    ∧ (∀ st ∈ [PortState.down, .waking, .aligning, .synced, .reading, .fault], ((linked st).port 0).signal = true
        ∧ ((linked st).port 0).state ≠ .off ∧ run (linked st) (.signalDetect 0) = linked st
        ∧ (run (linked st) (.linkEnable 1 0)).port 0 = (linked st).port 0)
    ∧ ((linked .waking).port 0).wakeLimit = false ∧ result (run up (.linkEnable 1 12)) = some (.refused .badField)
    ∧ (∀ st ∈ [PortState.off, .down, .waking, .aligning, .synced, .reading, .fault],
        let s := (linked st).modPort 0 fun p => { p with lane := some (.ack, 7) }
        s.returnBytes 0 = if st ∈ [.aligning, .synced, .reading] then idle 7 .ack else []) := by decide +kernel

/-- The state of `ending` with its link live and signal on the line; nothing waits in the buffer. -/
def cut (rows : Nat) (st : PortState) : State :=
  (ending rows).modPort 0 fun p => { p with state := st, signal := true, buffer := [] }

theorem witness_LinkEndsTruncateTiles :
    (∀ st ∈ [PortState.waking, .aligning, .synced, .reading], ∀ c ∈ [Instr.signalLoss 0, .linkDisable 1 0, .linkReset 1 0],
      (cut 48 st).openTiles 0 = [3] ∧ (cut 48 st).measure 0 = [] ∧ ((cut 48 st).tile 3).owner = some 0
        ∧ ((cut 48 st).slot 0).state = .opened ∧ ((cut 48 st).slot 0).refsFor ((cut 48 st).tile 3).segment = []
        ∧ (run (cut 48 st) c).tile 3 = { (cut 48 st).tile 3 with state := .heldPlan, missing := some 16, truncated := true }
        ∧ (run (cut 48 st) c).slots = (cut 48 st).slots)
    ∧ (∀ c ∈ [Instr.signalLoss 0, .linkDisable 1 0, .linkReset 1 0],
      ((cut 47 .reading).slot 0).entry 0 = .inStore ∧ ((run (cut 47 .reading) c).tile 3).state = .free
        ∧ ((run (cut 47 .reading) c).slot 0).entry 0 = .resolved .rows ∧ ((run (cut 47 .reading) c).slot 0).totals.truncated = 1)
    ∧ (∀ st ∈ [PortState.off, .down, .fault],
      (run (linked st) (.signalLoss 0)).port 0 = { (linked st).port 0 with signal := false })
    ∧ (let p := (run ((linked .fault).modPort 0 fun p => { p with hkPart := [1], relay := { p.relay with abortOwed := true } })
          (.linkReset 1 0)).port 0
       p.state = .waking ∧ p.wakeLimit = true ∧ p.hkPart = [] ∧ p.relay.abortOwed = false) := by
  unfold cut; decide +kernel

theorem ready_cut : (cut 48 .reading).Ready ∧ (cut 47 .waking).Ready := by unfold State.Ready; decide +kernel

/-- The hunt at the edges of its counts: one good frame short and the second, three bad ones and the fourth. -/
theorem witness_HuntLocksOrFails :
    ∀ n ∈ [0, 1], ∀ m ∈ [2, 3],
      let s := (linked .aligning).modPort 0 fun p => { p with hunting := true, goodRun := n, badRun := m }
      let good := (run s (.cameraFrame 0 true (idle 0 .none))).port 0
      let bad := (run s (.cameraFrame 0 true [])).port 0
      s.host.requests = [] ∧ (s.port 0).cfg.judge (idle 0 .none) = none ∧ (s.port 0).cfg.judge [] = some .crc
        ∧ (good.state, good.goodRun, good.badRun, good.hunting) = (if n = 1 then (.synced, 0, 0, good.hunting) else (.aligning, 1, 0, true))
        ∧ (bad.state, bad.reason, bad.goodRun, bad.badRun) = if m = 3 then (.fault, some .align, 0, 4) else (.aligning, none, 0, 3) := by
  decide +kernel

/-- A cycle with word 0 and one with words 0 to 10 under assembly, and every change of zone that raises an edge. -/
theorem witness_HousekeepingWords :
    (∀ n ∈ [1, 11], let s := (linked .synced).modPort 0 fun p => { p with hkPart := List.range n }
      (s.port 0).hkPart.length = n ∧ ((s.hkWord 0 0 9).port 0).hkPart = [9] ∧ ((s.hkWord 0 (12 - n) 9).port 0).hkPart = []
        ∧ ((s.hkWord 0 n 9).port 0).hkPart.length = if n = 11 then 0 else 2)
    ∧ (∀ z ∈ [Zone.below, .above, .inside],
        let s := (linked .synced).modPort 0 fun p => { p with
          hkPart := [0, 0, 0, 0, 16300, 7, 0, 0, 0, 0, 0], hk := some { words := List.range 12, zone := z } }
        let low := (if z = .below then 4 else 0) + (if z = .above then 8 else 0)
        (s.port 0).hk ≠ none ∧ ((s.hkWord 0 11 0).port 0).hk = some ⟨[0, 0, 0, 0, 16300, 7, 0, 0, 0, 0, 0, 0], .inside⟩
          ∧ (s.hkWord 0 11 0).host.notices.map (fun n => n.content.head?) = [some (BitVec.ofNat 8 (2 + low))]) := by decide +kernel

/-- A relay one frame short of its timeout of 16, or two, under a bad frame and under one whose marker its phase ignores; then a byte
the far end takes, and the last byte of its reply. -/
theorem witness_FramesWithoutProgressAreCounted :
    (∀ n ∈ [14, 15], ∀ bytes ∈ [[], idle 0 .none],
      let s := (linked .synced).modPort 0 fun p => { p with relay := { relayIn .offer with idleFrames := n } }
      let t := run s (.cameraFrame 0 true bytes)
      s.host.requests = [] ∧ (s.port 0).badRun < 3 ∧ (s.port 0).relay.abortOwed = false ∧ (s.port 0).relay.mark .none 0 = .ignored
        ∧ (t.port 0).relay.idleFrames = n + 1 ∧ (t.port 0).relay.phase = (if n = 15 then .idle else .offer)
        ∧ (n = 15 → (t.port 0).lane = some (.none, 0)
            ∧ t.host.line = some (.notice { kind := .relayDone, content := [0, 1, 0, 2, 0, 0, 0], folded := 1 })))
    ∧ (let s := (linked .synced).modPort 0 fun p => { p with relay := { relayIn .offer with idleFrames := 15 } }
       ((run s (.cameraFrame 0 true (idle 0 .ack))).port 0).relay.idleFrames = 0)
    ∧ (∀ m ∈ [Marker.last, .abort],
       let s := (linked .synced).modPort 0 fun p => { p with relay := { relayIn .waitByte with acked := 2, idleFrames := 15 } }
       let u := runs s [.cameraFrame 0 true (idle 5 m), .cameraFrame 0 true (idle 0 .none)]
       (u.port 0).relay.phase = .idle ∧ (u.port 0).relay.idleFrames = if m = .abort then 15 else 0) := by decide +kernel

/-- A resolution of an entry that is resolved, not resolved, and not listed, and the payment of a cell that owes two, one or nothing. -/
theorem witness_ResolutionsPayTheirCells :
    (let s := exposed .reading .running .tracking
     let done := s.modSlot 0 fun x => x.setEntry 0 (.resolved .rows)
     (∃ w, (done.slot 0).entry 0 = .resolved w) ∧ done.recordResolution 0 0 .placed = done ∧ (s.slot 0).entry 0 = .notStarted
       ∧ (s.slot 0).placementFor 0 = some plan0 ∧ (s.slot 0).placementFor 95 = none
       ∧ (s.recordResolution 0 0 .placed).canvas.cells = List.replicate 2 { Cell.fresh with resolved := 1, placed := 1 }
       ∧ (s.recordResolution 0 95 .noReadout).canvas = s.canvas
       ∧ ((exposed .opened .running .tracking).recordResolution 0 0 .rows).canvas = gathering.canvas)
    ∧ (∀ n ∈ [1, 2], ∀ st ∈ [CanvasState.gathering, .closed],
       let s := canvasOf st .ordered [cellIn .pending n, .fresh]
       let t := State.payCell false s 0
       s.cell? 0 = some (cellIn .pending n) ∧ t.drain.queue = (if n = 1 ∧ st = .closed then [0] else [])
         ∧ t.canvas.cells.map Cell.owed = [n - 1, 0] ∧ t.canvas.cells.map Cell.writtenOff = [1, 0]) := by
  refine ⟨⟨⟨.rows, by decide +kernel⟩, ?_⟩, ?_⟩ <;> decide +kernel

/-- An expiry that ends its slot, and one that leaves another segment in the store. -/
theorem witness_ExpiriesFinishAndSettle :
    (let s := ((exposed .reading .running .tracking).setCell 0 (cellIn .pending 2)).setCell 1 (cellIn .pending 1)
     let t := run s (.readoutLimitExpiry 0)
     s.tilesOf 0 = [] ∧ (s.slot 0).photo.mode ≠ .settled ∧ (s.slot 0).placements.Pairwise (fun p q => p.segment < q.segment)
       ∧ (s.slot 0).entry plan0.segment = .notStarted ∧ s.canvas.state = .gathering ∧ plan0.cells.Nodup ∧ 1 ∉ s.drain.queue
       ∧ (t.slot 0).state = .free ∧ t.carry = 4096 ∧ t.canvas.cells.map Cell.owed = [1, 0])
    ∧ (∀ tm ∈ [TimerState.notStarted, .running, .stopped, .expired], ∀ e ∈ [Entry.notStarted, .inStore, .resolved .placed],
       let s := (exposed .placing tm .fixed).modSlot 0 fun x => x.setEntry 0 e
       let t := (s.settleSlot 0).slot 0
       t.state = (if tm = .notStarted then .committed else if tm = .running ∧ e = .notStarted then .reading
           else if e = .resolved .placed then .free else .placing)
         ∧ (t.state = .placing → t.timer = if tm = .running then .stopped else tm)) := by decide +kernel

/-- Slot 0 SETTLED in a state, with tiles 4 and 3 HELD(SCALE) in that order, and the placement unit busy. -/
def holdingTwo (st : SlotState) (frozen : Bool) : State :=
  let s := (placing.setTile 3 (tile7 .heldScale [5])).setTile 4 (tile7 .heldScale [])
  let s := s.setSlot 0 { slot7 st .running .settled with photo := { photo .settled with frozen := frozen } }
  { s with tiles := { s.tiles with holding := [4, 3], holdCounter := 65535 } }

theorem witness_FreezesQueueTheHeldTiles :
    (∀ st ∈ [SlotState.free, .opened, .reading], ∀ f ∈ [true, false],
      let s := holdingTwo st f
      let t := s.freezeSlot State.take 0 .quota none
      s.place ≠ none ∧ s.heldTiles 0 = [4, 3] ∧ t.tiles.queue = (if st = .free ∨ f = true then [] else [4, 3]))
    ∧ (let s := holdingTwo .reading false
       let t := run s (.readoutLimitExpiry 0)
       s.host.requests = [] ∧ (s.slot 0).timer = .running ∧ (∃ p ∈ (s.slot 0).placements, (s.slot 0).entry p.segment = .notStarted)
         ∧ (∃ n ∈ s.heldTiles 0, (s.tile n).state ≠ .free) ∧ (t.slot 0).photo.frozen = true ∧ t.tiles.queue = [4, 3]
         ∧ (t.tile 4).state = .queued ∧ (s.heldTiles 1 = [] ∧ s.heldTiles 2 = [] ∧ s.heldTiles 3 = [])
         ∧ (s.pressFreeze State.take 95).tiles.queue = [4, 3] ∧ up.heldTiles 0 = []
         ∧ (s.exhaustedTest State.take 0).tiles.queue = [4, 3]
         ∧ ((holdingTwo .opened false).exhaustedTest State.take 0).tiles.queue = []
         ∧ ((s.setTile 5 (tile7 .filling [])).holdTile 5).tiles.holdCounter = 0
         ∧ (((s.setTile 5 (tile7 .filling [])).holdTile 5).tile 5).holdOrder = some 65535)
    ∧ (let s := (holdingTwo .opened false).modSlot 0 fun x => { x with
         photo := { x.photo with accepted := 2 }, refs := [⟨0, 4, 4, 0x43220000, .unmeasured, none⟩] }
       (s.slot 0).photo.accepted + 1 = (s.slot 0).photo.quota ∧ (s.slot 0).refs[0]?.isSome = true
         ∧ (s.recordRef 4 0 0 .accepted (some 0x42A20000)).tiles.queue = [4, 3]) := by decide +kernel

/-- A run of two values, the places around it, and an index past the library. -/
theorem witness_RunsReadBack :
    up.mem.wf = true
      ∧ (let w := up.mem.setFlatRun 0 7 [3, 5]
         [3, 5][1]? = some 5 ∧ w.flatValue 0 7 = 3 ∧ w.flatValue 0 8 = 5 ∧ (w.flatValue 0 6, w.flatValue 0 9) = (up.mem.flatValue 0 6, up.mem.flatValue 0 9)
           ∧ flatKey 0 6 < flatKey 0 7 ∧ flatKey 0 7 + 2 ≤ flatKey 0 9 ∧ flatKey 0 7 + 2 ≤ flatKey 23 0)
      ∧ result (run up (.flatData 1 24 0 [0])) = some (.refused .badField) := by decide +kernel

/-- `starting`, with its slot committed and segment 1 listed and waited for. -/
def awaiting (mode : Mode) : State :=
  starting.modSlot 0 fun x => { x with
    state := .reading, timer := .running, photo := photo mode, placements := [plan0, { plan0 with segment := 1 }] }

theorem witness_StartsThatAllocateNothing :
    (∀ s ∈ [starting, awaiting .tracking], ∀ e ∈ [Entry.inStore, .resolved .rows],
      let t := run (s.modSlot 0 fun x => x.setEntry 0 e) (.readoutStart 0)
      (t.slot 0).duplicates = 1 ∧ (t.slot 0).entry 0 = e ∧ t.freeTiles = 40 ∧ (t.port 0).buffer = [])
    ∧ (∀ s ∈ [starting, awaiting .tracking], ∀ r ∈ [none, some { rec0 with rows := 65 }],
      let t := run (s.setSegCal 0 { SegCal.reset with active := r }) (.readoutStart 0)
      (t.slot 0).entry 0 = .resolved .noCalibration ∧ (t.slot 0).tallies = Vector.ofFn fun i => if i = Reason.noCalibration.num then 1 else 0)
    ∧ (∀ b : Fin 8, (starting.port 0).cfg.slots.getLsbD b.val = true ↔ b = 0)
    ∧ (let s := (awaiting .tracking).modSlot 0 fun x => { x with placements := [{ plan0 with segment := 1 }] }
       (s.slot 0).planned 0 = false ∧ ((run s (.readoutStart 0)).slot 0) = s.slot 0)
    ∧ (let s := awaiting .settled
       (s.slot 0).planned 0 = true ∧ (s.slot 0).entry 1 = .notStarted ∧ (s.tile 0).state = .free
         ∧ ((run s (.readoutStart 0)).slot 0).entry 0 = .inStore ∧ ((run s (.readoutStart 0)).tile 0).state = .filling)
    ∧ ((awaiting .tracking).slot 0).photo.mode ≠ .settled := by decide +kernel

/-- `starting` with no tile FREE: two HELD(SCALE) tiles of exposure 9 in slot 1, the unit busy with exposure 7's tile. -/
def full : State :=
  let s : State := { starting with place := placing.place.map fun c => { c with tile := 0 } }
  let s := allTiles.foldl (fun s n => s.setTile n (tile7 .heldPlan [])) s
  let s := [38, 39].foldl (fun s (n : Fin 40) => s.setTile n { tile7 .heldScale [] with owner := some 1 }) s
  let s := s.setSlot 1 { slot7 .opened .notStarted .settled with exposure := 9 }
  { s with tiles := { s.tiles with holding := [39, 38] } }

theorem witness_StoreFullFreezes :
    let t := run full (.readoutStart 0)
    (∀ n, (full.tile n).state ≠ .free) ∧ full.place ≠ none ∧ full.heldTiles 1 = [39, 38] ∧ full.heldTiles 0 = []
      ∧ (t.slot 0).entry 0 = .resolved .storeFull ∧ (t.slot 1).photo.frozen = true ∧ t.tiles.queue = [39, 38] := by decide +kernel

/-- `ending`, of a committed slot that waits for segment 1 too. -/
def closingFor (mode : Mode) (frozen : Bool) : State :=
  (ending 48).modSlot 0 fun x => { x with
    state := .reading, photo := { photo mode with frozen := frozen }, placements := [plan0, { plan0 with segment := 1 }] }

theorem witness_CommittedTilesAreRouted :
    (∀ m ∈ [Mode.fixed, .tracking, .settled], ∀ f ∈ [true, false], ∀ p ∈ [none, placing.place],
      let s := { closingFor m f with place := p }
      let t := run s (.readoutEnd 0)
      let settles := (s.slot 0).photo.mode = .settled ∧ (s.slot 0).photo.frozen = false
      s.openTiles 0 = [3] ∧ (s.slot 0).timer = .running ∧ (s.slot 0).refsFor (s.tile 3).segment = [] ∧ (s.slot 0).entry 1 = .notStarted
        ∧ s.heldTiles 0 = [] ∧ (s.slot 0).planned 0 = true ∧ (s.tile 3).nextHeld 0 = some 0
        ∧ (t.tile 3).state = (if settles then .heldScale else if p = none then .placing else .queued)
        ∧ t.tiles.queue = (if settles ∨ p = none then [] else [3]) ∧ (t.slot 0).state = .reading)
    ∧ (let s := { closingFor .settled false with tiles := { (closingFor .settled false).tiles with holdCounter := 65535 } }
       ((run s (.readoutEnd 0)).tile 3).holdOrder = some 65535 ∧ (run s (.readoutEnd 0)).tiles.holdCounter = 0) := by decide +kernel

/-! ### Markers, late plans and detached tiles -/

/-- ROW frames of link 0: flags, tag, row; and what the port then holds. -/
def afterRow (s : State) (flags tag row : Nat) : Port := (run s (.cameraFrame 0 true (rowOf flags tag row))).port 0

/-- A row of the buffer with nothing in it. -/
def noRow : BufItem := .row ⟨1, []⟩

theorem witness_StartsInReading :
    (∀ n ∈ [1, 4], ∀ flags ∈ [1, 3], ∀ row ∈ [63, 64],
      let s := reading (List.replicate n noRow)
      let q := afterRow s flags 8 row
      s.holdsClaim (.intake 0) = true ∧ (s.port 0).hkPart = [] ∧ (s.port 0).relay.phase = .idle ∧ small.judge (rowOf flags 8 row) = none
        ∧ q.state = (if flags = 3 then .synced else .reading)
        ∧ q.ctx = (if flags = 3 then none else some ⟨8, row, none⟩)
        ∧ (q.stale, q.overflow) = (if row = 64 then 1 else 0, if row = 63 ∧ n = 4 then 1 else 0)
        ∧ q.buffer = List.replicate n noRow ++ [.truncation, .start 8 row]
            ++ (if row = 63 ∧ n = 1 then [.row (small.rowOf (rowOf flags 8 row))] else []) ++ if flags = 3 then [.finish] else [])
    ∧ (∀ rest ∈ [[.truncation], [BufItem.start 7 0]], let s := (reading rest).freeStore
       s.holdsClaim (.intake 0) = false ∧ s.measure 0 = []
         ∧ (afterRow s 1 8 64).buffer = rest ++ [.truncation, .start 8 64])
    ∧ (let q := afterRow (reading []).freeStore 1 8 63
       q.buffer = [.truncation, .start 8 63, .row (small.rowOf (rowOf 1 8 63))])
    ∧ (let t := run (linked .synced) (.cameraFrame 0 true (rowOf 3 7 5))
       t.host.line = some (.notice ⟨.linkState, [0, 4, 0xFF, 5, 0xFF, 6], 1⟩)
         ∧ t.host.notices = [⟨.linkState, [0, 5, 0xFF, 4, 0xFF, 7], 1⟩]
         ∧ (t.port 0).buffer = [.start 7 5, .row (small.rowOf (rowOf 3 7 5)), .finish] ∧ (t.port 0).ctx = none)
    ∧ (let t := run (linked .synced) (.cameraFrame 0 true (rowOf 1 7 64))
       (t.port 0).buffer = [] ∧ (t.port 0).state = .reading ∧ (t.port 0).stale = 1
         ∧ t.host.notices = [⟨.readoutIgnored, [0, 7, 0, 64, 0], 1⟩]) := by decide +kernel

theorem witness_RowsInReading :
    (∀ n ∈ [1, 4], ∀ flags ∈ [0, 2], ∀ row ∈ [2, 3],
      let q := afterRow (reading (List.replicate n noRow)) flags 7 row
      q.state = (if flags = 2 then .synced else .reading) ∧ q.ctx = (if flags = 2 then none else some ⟨7, row, none⟩)
        ∧ (q.stale, q.overflow) = (if row = 2 then 1 else 0, if row = 3 ∧ n = 4 then 1 else 0)
        ∧ q.buffer = List.replicate n noRow
            ++ (if row = 3 ∧ n = 1 then [.row (small.rowOf (rowOf flags 7 row))] else []) ++ if flags = 2 then [.finish] else [])
    ∧ (let q := afterRow (reading [noRow]) 2 8 3
       q.state = .reading ∧ q.ctx = some ⟨7, 2, none⟩ ∧ q.stale = 1 ∧ q.buffer = [noRow])
    ∧ (let q := afterRow (reading []).freeStore 2 7 2
       q.state = .synced ∧ q.ctx = none ∧ q.stale = 1 ∧ q.buffer = [])
    ∧ (let s := ((reading []).freeStore).setTile 3 (tile7 .filling [])
       let t := run s (.cameraFrame 0 true (rowOf 2 7 3))
       s.holdsClaim (.intake 0) = false ∧ s.measure 0 = [] ∧ s.fillingTile 0 = some 3 ∧ t.holdsClaim (.intake 0) = true
         ∧ (t.port 0).buffer = [.row (small.rowOf (rowOf 2 7 3)), .finish])
    ∧ (afterRow (reading []).freeStore 0 7 3).buffer = []
    ∧ (let q := afterRow (linked .synced) 2 7 3
       ((linked .synced).port 0).ctx = none ∧ q.state = .synced ∧ q.stale = 1 ∧ q.buffer = [] ∧ q.badRun = 0) := by decide +kernel

/-- `starting` with the START row behind its marker, and after it an END and the next START. -/
def startingWith (flags : Nat) : State :=
  starting.modPort 0 fun p => { p with
    buffer := [.start 7 0, .row (small.rowOf (rowOf flags 7 0)), .finish, .start 8 1] }

theorem witness_StartRowsAreClaimedOrDropped :
    (let s := startingWith 1
     let t := run s (.readoutStart 0)
     ((small.rowOf (rowOf 1 7 0)).slots.map SlotRow.slot) = [0] ∧ (s.port 0).cfg.slots.getLsbD 0 = true
       ∧ (t.port 0).buffer = (s.port 0).buffer.tail ∧ t.holdsClaim (.intake 0) = true
       ∧ (t.port 0).ctx = some ⟨7, 0, none⟩)
    ∧ (∀ s ∈ [(startingWith 1).setSlot 0 .empty, (startingWith 1).modSlot 0 (ExpSlot.setEntry · 0 .inStore),
              (startingWith 1).setSegCal 0 .reset],
       (∀ a : Fin 8, s.fillingTile (segmentOf 0 a) = none) ∧ ((run s (.readoutStart 0)).port 0).buffer = [.start 8 1]
         ∧ (run s (.readoutStart 0)).holdsClaim (.intake 0) = false)
    ∧ (let s := (awaiting .tracking).modPort 0 fun p => { p with buffer := [.start 7 0, .row (small.rowOf (rowOf 1 7 0))] }
       (run s (.readoutStart 0)).holdsClaim (.intake 0) = true) := by decide +kernel

/-- Exposure 7 OPEN with a plan of segments 0 to 3, of which 0 and 1 are HELD(PLAN), 2 is still to come and 3 is RESOLVED; of the segments
not planned, 5 is HELD(PLAN) and 6 FILLING. The placement unit is busy. -/
def latePlan (mode : Mode) (timer : TimerState) : State :=
  let s := planned.modPort 0 fun p => { p with cfg := { small with slots := 255 } }
  let s := s.setSlot 0 { slot7 .opened timer mode with
    placements := [0, 1, 2, 3].map fun g => { plan0 with segment := g, cells := if g = 3 then [0, 1] else [0] } }
  let s := [(0, Entry.inStore), (1, .inStore), (3, .resolved .rows), (5, .inStore), (6, .inStore)].foldl
    (fun s g => s.modSlot 0 fun x => x.setEntry g.1 g.2) s
  let s := [(3, 0), (9, 1), (8, 5)].foldl (fun s (n : Fin 40 × Fin 96) =>
    s.setTile n.1 { tile7 .heldPlan [4] with segment := n.2, missing := some 63 }) s
  { s.setTile 7 { tile7 .filling [4] with segment := 6 } with
    place := placing.place, tiles := { (s.setTile 7 { tile7 .filling [4] with segment := 6 }).tiles with holdCounter := 65535 } }

theorem witness_LatePlans :
    (latePlan .tracking .running).Ready ∧ (∀ m ∈ [Mode.tracking, .settled], ∀ tm ∈ [TimerState.notStarted, .running],
      let s := latePlan m tm
      let t := run s (.exposureCommit 1 7)
      let x := t.slot 0
      s.slotOf 7 = some 0 ∧ s.place ≠ none ∧ s.tilesOf 0 = [3, 7, 8, 9] ∧ s.heldTiles 0 = []
        ∧ (∀ n ∈ [7, 8], s.measure (linkOf (s.tile n).segment) = [] ∧ (s.port (linkOf (s.tile n).segment)).buffer = [])
        ∧ result t = some (.done [if tm = .notStarted then 2 else 3, 3, 1, 2, 2])
        ∧ x.state = (if tm = .notStarted then .committed else .reading) ∧ x.timer = tm
        ∧ [3, 9].map t.tile = (if m = .settled
            then [{ s.tile 3 with state := .heldScale, holdOrder := some 65535 }, { s.tile 9 with state := .heldScale, holdOrder := some 0 }]
            else [{ s.tile 3 with state := .queued }, { s.tile 9 with state := .queued }])
        ∧ [7, 8].map t.tile = [.empty, .empty] ∧ [5, 6].map x.entry = [.resolved .unlisted, .resolved .unlisted]
        ∧ [0, 1, 2, 3].map x.entry = [.inStore, .inStore, .notStarted, .resolved .rows]
        ∧ t.tiles.queue = (if m = .settled then [] else [3, 9]) ∧ t.tiles.holding = (if m = .settled then [3, 9] else [])
        ∧ t.tiles.holdCounter = (if m = .settled then 1 else 65535) ∧ x.totals.tiles = 2 ∧ x.totals.received = 2
        ∧ (t.host.pendingOf .tileReport).map PendingNotice.folded = some 2
        ∧ t.canvas.cells = [{ cellIn .pending 3 with zeroed := false, resolved := 1, writtenOff := 1 },
                            { cellIn .pending 0 with zeroed := false, resolved := 1, writtenOff := 1 }]
        ∧ t.store.zeroQueue = [0, 1]) := by unfold State.Ready; decide +kernel

/-- The tile of slot 0 in the placement unit, in a phase, and a queue. -/
def detaching (phase : PlacePhase) (queue : List (Fin 40)) : State :=
  let s : State := { placing with place := placing.place.map fun c => { c with phase := phase } }
  let s := s.setSlot 1 { slot7 .placing .stopped .tracking with exposure := 9 }
  let s := s.setTile 4 { tile7 .queued [6] with owner := some 1, exposure := 9 }
  { s with
    tiles := { s.tiles with queue := queue }
    store := { s.store with
      access := if phase = .inFlight then some .placement else none
      waiting := if phase = .claiming then [.placement] else [] } }

theorem witness_AbandonedTilesAreDetached :
    ∀ ph ∈ [PlacePhase.claiming, .waitingZero, .inFlight], ∀ q ∈ [[], [4]],
      let s := detaching ph q
      let t := run s (.exposureAbandon 1 7)
      let u := run s (.canvasAbandon 1)
      s.slotOf 7 = some 0 ∧ s.tilesOf 0 = [3] ∧ s.place.map PlaceCtx.tile = some 3 ∧ (s.tile 3).state = .placing
        ∧ s.measure 0 = [] ∧ (s.port 0).buffer = [] ∧ (s.slot 1).placementFor (s.tile 4).segment = some plan0 ∧ (s.tile 4).nextHeld 0 = some 6
        ∧ (t.slot 0).state = .free ∧ (t.slot 1).state = .placing
        ∧ t.canvas.cells.map Cell.owed = [0, 0] ∧ t.canvas.cells.map Cell.writtenOff = [1, 1]
        ∧ (if ph = .inFlight then t.place = s.place.map (fun c => { c with stop := true }) ∧ t.tile 3 = { s.tile 3 with owner := none }
           else (t.tile 3).state = .free ∧ t.place.map PlaceCtx.tile = q.head?)
        ∧ (∀ l, s.measure l = []) ∧ (∀ m, (s.tile m).state ≠ .free → (s.tile m).owner = some 0 ∨ (s.tile m).owner = some 1)
        ∧ result u = some (.done [2]) ∧ u.carry = s.carry ∧ (u.tile 4).state = .free
        ∧ (if ph = .inFlight then u.place = s.place.map (fun c => { c with stop := true, ended := true })
           else u.place = none ∧ (u.tile 3).state = .free ∧ u.holdsClaim .placement = false) := by decide +kernel

/-- A committed slot whose segment 0 is RESOLVED and whose segment 1 is not: only cells of segment 1 are written off; and what
CANVAS_ABANDON tells of three OPEN slots. -/
theorem witness_AbandonmentsWriteOff :
    (let s := ((exposed .reading .running .tracking).setCell 0 (cellIn .pending 2)).setCell 1 (cellIn .pending 1)
     let s := s.modSlot 0 fun x => (({ x with placements := [plan0, { plan0 with segment := 1, cells := [1] }] } : ExpSlot).setEntry 0
       (.resolved .rows))
     let t := run s (.exposureAbandon 1 7)
     s.slotOf 7 = some 0 ∧ s.tilesOf 0 = [] ∧ s.canvas.state = .gathering ∧ s.drain.queue = [] ∧ t.carry = s.carry
       ∧ t.canvas.cells = [cellIn .pending 2, { cellIn .pending 0 with resolved := 1, writtenOff := 1 }])
    ∧ (let t := run allOpen (.canvasAbandon 1)
       (∀ k, allOpen.tilesOf k = []) ∧ (∀ k, (allOpen.slot k).state ∈ [.free, .opened]) ∧ allOpen.drain.state = .idle
         ∧ (∀ k, (allOpen.slot k).entries = Vector.replicate 96 .notStarted) ∧ result t = some (.done [4])
         ∧ t.host.notices.map Notice.kind = [.exposureDone, .exposureDone, .exposureDone, .exposureDone, .canvasDone]) := by decide +kernel

/-- CANVAS_ABANDON of two slots: the first one's tile is stopped at once, and the second one's, with no row held, is not placed. -/
theorem test_canvas_abandon_ends_every_slot :
    let s := (detaching .claiming [4]).setTile 4 { tile7 .queued [] with owner := some 1, exposure := 9 }
    let s := { s.modSlot 1 fun x => { x with photo := { x.photo with scale := 5000 } } with host := { s.host with mask := 0 } }
    let t := run s (.canvasAbandon 1)
    t.carry = s.carry ∧ result t = some (.done [2]) ∧ (t.slot 1).state = .free
      ∧ t.host.notices.map Notice.kind = [.exposureDone, .tileReport, .tileReport, .exposureDone, .canvasDone] := by decide +kernel

end Sys2Proof.Tests
end

section
/-!
PROOF. EXPOSURE_OPEN (R36): the slot an accepted request takes, what it is filled with, and that its tag finds it afterwards.
-/

namespace Sys2Proof.Machine

/-! ## A request answered DONE -/

/-- A request that its owner answers DONE, in a READY store with the handler free, is answered in its arrival event. -/
theorem State.arrive_of_done {s t : State} {tag : Byte} {r : Request} {payload : List Byte} (hs : s.Ready)
    (hr : s.reply tag r = t.done payload) (ht : t.host.requests = []) :
    s.arrive tag r = t.answered tag r.kind payload := by
  obtain ⟨-, hreq, hfree⟩ := hs
  have served : s.serve tag r = t.queueAnswer tag r.kind (.done payload) := by
    unfold State.serve
    rw [hr]
    rfl
  rw [s.arrive_served tag r hreq hfree (by rw [served]; exact ht), served]
  rfl

/-- In a READY store an EXPOSURE_OPEN reaches the exposure table (R177). -/
theorem State.reply_exposureOpen {s : State} (hs : s.Ready) (tag : Byte) (exposure mode : Nat) (initial : Option Nat)
    (lower upper attack decay quota nominal limit : Nat) :
    s.reply tag (.exposureOpen exposure mode initial lower upper attack decay quota nominal limit)
      = s.exposureOpen exposure mode initial lower upper attack decay quota nominal limit := by
  obtain ⟨hready, -, -⟩ := hs
  simp only [State.reply, hready]
  rfl

theorem exec_exposureOpen (tag : Byte) (exposure mode : Nat) (initial : Option Nat)
    (lower upper attack decay quota nominal limit : Nat) (s : State) :
    exec (.exposureOpen tag exposure mode initial lower upper attack decay quota nominal limit) s
      = .next (s.arrive tag (.exposureOpen exposure mode initial lower upper attack decay quota nominal limit)) := rfl

/-! ## Searching the slots -/

/-- A search of the slots finds the lowest-numbered one that qualifies. -/
theorem find?_allSlots_eq_some {p : Fin 4 → Bool} {k : Fin 4} :
    allSlots.find? p = some k ↔ p k = true ∧ ∀ j, j < k → p j = false := by
  rw [allSlots, ← Fin.find?_eq_find?_finRange, Fin.find?_eq_some_iff]

theorem State.freeSlot_eq_some {s : State} {k : Fin 4} :
    s.freeSlot = some k ↔ (s.slot k).state = .free ∧ ∀ j, j < k → (s.slot j).state ≠ .free := by
  simp [State.freeSlot, find?_allSlots_eq_some]

/-- No slot is found for a tag that no non-FREE slot carries. -/
theorem State.slotOf_eq_none {s : State} {exposure : Nat}
    (h : ∀ j, (s.slot j).state ≠ .free → (s.slot j).exposure ≠ exposure) : s.slotOf exposure = none := by
  unfold State.slotOf
  split
  · rfl
  · simpa [List.find?_eq_none] using fun j _ => h j

/-- The one non-FREE slot that carries a tag is found for it. -/
theorem State.slotOf_eq_some {s : State} {exposure : Nat} {k : Fin 4} (he : exposure ≠ 0) (hk : (s.slot k).state ≠ .free)
    (htag : (s.slot k).exposure = exposure)
    (only : ∀ j, j ≠ k → (s.slot j).state ≠ .free → (s.slot j).exposure ≠ exposure) : s.slotOf exposure = some k := by
  rw [State.slotOf, if_neg he, find?_allSlots_eq_some]
  refine ⟨by simp [hk, htag], fun j hj => ?_⟩
  simpa using only j (ne_of_lt hj)

/-- A tag that no non-FREE slot carried finds the slot that is filled with it. -/
theorem State.slotOf_setSlot {s : State} {exposure : Nat} {k : Fin 4} {x : ExpSlot} (he : exposure ≠ 0) (hx : x.state ≠ .free)
    (htag : x.exposure = exposure) (fresh : ∀ j, (s.slot j).state ≠ .free → (s.slot j).exposure ≠ exposure) :
    (s.setSlot k x).slotOf exposure = some k := by
  refine State.slotOf_eq_some he (by simpa using hx) (by simpa using htag) fun j hj => ?_
  rw [State.slot_setSlot, if_neg (Ne.symm hj)]
  exact fresh j

/-! ## The request's fields and the filled slot -/

theorem modeOf_code (m : Mode) : modeOf m.code = some m := by
  cases m <;> rfl

/-- R96. With the limits in order, clamping is the nearest value within them. -/
theorem clampScale_eq_max_min {lower upper : Nat} (h : lower ≤ upper) (v : Nat) :
    clampScale lower upper v = max lower (min upper v) := by
  unfold clampScale
  split
  · omega
  · split <;> omega

/-- R35, check 1, as ranges of the fields. -/
theorem exposureFieldsOk_iff {exposure : Nat} {initial : Option Nat} {lower upper attack decay quota nominal limit : Nat} :
    exposureFieldsOk exposure initial lower upper attack decay quota nominal limit = true ↔
      (1 ≤ exposure ∧ exposure ≤ 65535) ∧ (∀ v, initial = some v → 256 ≤ v ∧ v ≤ 65536) ∧ (256 ≤ lower ∧ lower ≤ 65536)
        ∧ (256 ≤ upper ∧ upper ≤ 65536) ∧ lower ≤ upper ∧ attack ≤ 256 ∧ decay ≤ 256 ∧ (1 ≤ quota ∧ quota ≤ 32)
        ∧ (1 ≤ nominal ∧ nominal ≤ 3600000) ∧ limit ≤ 600 := by
  cases initial <;> simp [exposureFieldsOk, scaleInRange, and_assoc]

/-- R36. With every check of R35 passed, the exposure table fills the lowest-numbered FREE slot and answers its number and scale. -/
theorem State.exposureOpen_accepted {s : State} {exposure : Nat} {m : Mode} {initial : Option Nat}
    {lower upper attack decay quota nominal limit : Nat} {k : Fin 4}
    (fields : exposureFieldsOk exposure initial lower upper attack decay quota nominal limit = true)
    (canvas : s.canvas.state = .gathering) (fresh : s.slotOf exposure = none) (free : s.freeSlot = some k) :
    let x := openedSlot exposure m (initial.getD s.carry) lower upper attack decay quota nominal limit
    s.exposureOpen exposure m.code initial lower upper attack decay quota nominal limit
      = (s.setSlot k x).done (code8 k.val ++ code32 x.photo.scale) := by
  simp [State.exposureOpen, modeOf_code, fields, canvas, fresh, free]

/-- Settles O20: the checks of R35 pass, the search finds the lowest FREE slot, and its tag is found there alone. -/
theorem exposureOpenFillsTheLowestFreeSlot : Obligations.ExposureOpenFillsTheLowestFreeSlot := by
  intro s tag exposure m initial lower upper attack decay quota nominal limit k hs hcanvas hexp1 hexp2 hlower hle hupper
    hinitial hattack hdecay hquota1 hquota2 hnominal1 hnominal2 hlimit hfresh hfree hlowest scale t
  have fields : exposureFieldsOk exposure initial lower upper attack decay quota nominal limit = true :=
    exposureFieldsOk_iff.2 ⟨⟨hexp1, hexp2⟩, hinitial, ⟨hlower, by omega⟩, ⟨by omega, hupper⟩, hle, hattack, hdecay,
      ⟨hquota1, hquota2⟩, ⟨hnominal1, hnominal2⟩, hlimit⟩
  have hscale : clampScale lower upper (initial.getD s.carry) = scale := by
    rw [clampScale_eq_max_min hle]
    cases initial <;> rfl
  have accepted : s.exposureOpen exposure m.code initial lower upper attack decay quota nominal limit
      = t.done (code8 k.val ++ code32 scale) := by
    rw [State.exposureOpen_accepted fields hcanvas (State.slotOf_eq_none hfresh) (State.freeSlot_eq_some.2 ⟨hfree, hlowest⟩)]
    simp only [openedSlot, hscale]
    rfl
  have hreq : t.host.requests = [] := by
    obtain ⟨-, hreq, -⟩ := hs
    exact hreq
  refine ⟨?_, State.slotOf_setSlot (by omega) (by simp) rfl hfresh⟩
  rw [exec_exposureOpen, State.arrive_of_done hs ((State.reply_exposureOpen hs ..).trans accepted) hreq]
  rfl

end Sys2Proof.Machine
end

section
/-!
PROOF. The mapping of a tile's pixels (R114): rounding a position to its canvas pixel, and the cell and the place of a canvas pixel.
-/

namespace Sys2Proof.Machine

/-! ## The nearest canvas pixel -/

/-- In whole units of 1/65536: a canvas pixel reaches half a pixel below its centre, inclusive, and half a pixel above, exclusive. -/
theorem nearestPixel_bounds (x : Int) :
    nearestPixel x * 65536 - 32768 ≤ x ∧ x < nearestPixel x * 65536 + 32768 := by
  unfold nearestPixel
  omega

/-- R114. The nearest pixel's span holds the position, as an exact number of canvas pixels. -/
theorem nearestPixel_bounds_exact (x : Int) :
    (nearestPixel x : ℚ) - 1 / 2 ≤ (x : ℚ) / 65536 ∧ (x : ℚ) / 65536 < (nearestPixel x : ℚ) + 1 / 2 := by
  obtain ⟨lower, upper⟩ := nearestPixel_bounds x
  have lower' : (nearestPixel x : ℚ) * 65536 - 32768 ≤ x := by exact_mod_cast lower
  have upper' : (x : ℚ) < nearestPixel x * 65536 + 32768 := by exact_mod_cast upper
  constructor
  · rw [le_div_iff₀ (by norm_num)]
    linarith only [lower']
  · rw [div_lt_iff₀ (by norm_num)]
    linarith only [upper']

/-! ## The canvas's span, the cell and the place in it -/

/-- A canvas pixel inside the span lies in the cell its whole quotients by 256 name, at the place its remainders name. -/
theorem canvasTarget_inside {w h X Y : Nat} (hX : X < 256 * w) (hY : Y < 256 * h) :
    canvasTarget w h ((X : Int), (Y : Int)) = some ((Y / 256) * w + X / 256, (Y % 256) * 256 + X % 256) := by
  have inside : 0 ≤ (X : Int) ∧ (X : Int) < 256 * w ∧ 0 ≤ (Y : Int) ∧ (Y : Int) < 256 * h := by omega
  simp only [canvasTarget, if_pos inside, Int.toNat_natCast]

theorem canvasTarget_eq_none_iff {w h : Nat} {X Y : Int} :
    canvasTarget w h (X, Y) = none ↔ X < 0 ∨ 256 * w ≤ X ∨ Y < 0 ∨ 256 * h ≤ Y := by
  simp [canvasTarget, imp_iff_not_or]

/-- Settles O39: both coordinates are rounded alike, and the place's remainders are R114's differences. -/
theorem pixelsMapToTheNearestCanvasPixel : Obligations.PixelsMapToTheNearestCanvasPixel := by
  refine ⟨fun p c r => ?_, fun w h X Y hX hY => ?_, fun w h X Y outside => canvasTarget_eq_none_iff.2 outside, ?_⟩
  · obtain ⟨lowerX, upperX⟩ := nearestPixel_bounds_exact (p.anchorX * 256 + c * p.colX + r * p.rowX)
    obtain ⟨lowerY, upperY⟩ := nearestPixel_bounds_exact (p.anchorY * 256 + c * p.colY + r * p.rowY)
    push_cast at lowerX upperX lowerY upperY
    exact ⟨lowerX, upperX, lowerY, upperY⟩
  · rw [canvasTarget_inside hX hY, Nat.mod_eq_sub_mul_div, Nat.mod_eq_sub_mul_div]
  · decide

end Sys2Proof.Machine
end

section
/-!
PROOF. CANVAS_OPEN (R138, R139): its checks in order, and the canvas of UNTOUCHED cells that an accepted one opens.
-/

namespace Sys2Proof.Machine

/-! ## A request in a READY store -/

/-- In a READY store every request is answered by its owner (R177). -/
theorem State.reply_eq_owner {s : State} (hs : s.Ready) (tag : Byte) (r : Request) : s.reply tag r = s.owner tag r := by
  obtain ⟨hready, -, -⟩ := hs
  unfold State.reply
  rw [hready]
  split <;> rfl

/-- A request that its owner refuses, in a READY store with the handler free, is refused in its arrival event. -/
theorem State.arrive_of_refused {s : State} {tag : Byte} {r : Request} {why : RefuseReason} (hs : s.Ready)
    (hr : s.reply tag r = s.refuse why) : s.arrive tag r = s.turnedAway tag r.kind why := by
  obtain ⟨-, hreq, hfree⟩ := hs
  have served : s.serve tag r = s.queueAnswer tag r.kind (.refused why) := by
    unfold State.serve
    rw [hr]
    rfl
  rw [s.arrive_served tag r hreq hfree (by rw [served]; exact hreq), served]
  rfl

theorem exec_canvasOpen (tag : Byte) (width height order : Nat) (s : State) :
    exec (.canvasOpen tag width height order) s = .next (s.arrive tag (.canvasOpen width height order)) := rfl

/-! ## The request's fields -/

theorem any_allSlots_iff {p : Fin 4 → Bool} : allSlots.any p = true ↔ ∃ k, p k = true := by
  simp [allSlots]

theorem orderOf_of_one_lt {order : Nat} (h : 1 < order) : orderOf order = none := by
  match order, h with
  | _ + 2, _ => rfl

theorem orderOf_of_le_one {order : Nat} (h : order ≤ 1) :
    orderOf order = some (if order = 0 then .ordered else .arrival) := by
  obtain rfl | rfl := Nat.le_one_iff_eq_zero_or_eq_one.1 h <;> rfl

/-- R138, check 1: a grid of 1 to 32 by 1 to 32 cells, and a drain order that has a code. -/
def CanvasFieldsOk (width height order : Nat) : Prop :=
  1 ≤ width ∧ width ≤ 32 ∧ 1 ≤ height ∧ height ≤ 32 ∧ order ≤ 1

/-- The test of check 1 as CANVAS_OPEN makes it. -/
theorem canvasFieldsOk_iff {width height order : Nat} :
    CanvasFieldsOk width height order ↔ ¬(width < 1 ∨ 32 < width ∨ height < 1 ∨ 32 < height) ∧ order ≤ 1 := by
  unfold CanvasFieldsOk
  omega

/-- R138, check 2: a canvas is open, or an exposure or the drain of one goes on. -/
def State.CanvasBusy (s : State) : Prop :=
  s.canvas.state ≠ .idle ∨ (∃ k, (s.slot k).state ≠ .free) ∨ s.drain.state ≠ .idle

/-- The test of check 2 as CANVAS_OPEN makes it. -/
theorem State.canvasBusy_iff {s : State} :
    (s.canvas.state ≠ .idle ∨ allSlots.any (fun k => decide ((s.slot k).state ≠ .free)) = true ∨ s.drain.state ≠ .idle)
      ↔ s.CanvasBusy := by
  simp only [State.CanvasBusy, any_allSlots_iff, decide_eq_true_eq]

/-! ## The three outcomes -/

theorem State.canvasOpen_badField (s : State) {width height order : Nat} (bad : ¬CanvasFieldsOk width height order) :
    s.canvasOpen width height order = s.refuse .badField := by
  by_cases coded : order ≤ 1
  · have outside : width < 1 ∨ 32 < width ∨ height < 1 ∨ 32 < height := by
      by_contra inside
      exact bad (canvasFieldsOk_iff.2 ⟨inside, coded⟩)
    simp only [State.canvasOpen, orderOf_of_le_one coded, if_pos outside]
  · simp only [State.canvasOpen, orderOf_of_one_lt (not_le.1 coded)]

theorem State.canvasOpen_busy {s : State} {width height order : Nat} (ok : CanvasFieldsOk width height order)
    (busy : s.CanvasBusy) : s.canvasOpen width height order = s.refuse .busy := by
  obtain ⟨inside, coded⟩ := canvasFieldsOk_iff.1 ok
  simp only [State.canvasOpen, orderOf_of_le_one coded, if_neg inside, if_pos (State.canvasBusy_iff.2 busy)]

/-- R139. With both checks passed, the canvas opens with every cell UNTOUCHED, and the answer is the number of cells. -/
theorem State.canvasOpen_accepted {s : State} {width height order : Nat} (ok : CanvasFieldsOk width height order)
    (idle : ¬s.CanvasBusy) :
    s.canvasOpen width height order = State.done { s with canvas :=
      { state := .gathering, width := width, height := height, order := if order = 0 then .ordered else .arrival,
        commits := 0, released := 0, cells := List.replicate (width * height) .fresh } } (code16 (width * height)) := by
  obtain ⟨inside, coded⟩ := canvasFieldsOk_iff.1 ok
  simp only [State.canvasOpen, orderOf_of_le_one coded, if_neg inside, if_neg (State.canvasBusy_iff.not.2 idle)]

/-- Settles O44: each outcome of the canvas block, in the order of R138's checks, is answered in the request's own event. -/
theorem canvasOpenBeginsACanvas : Obligations.CanvasOpenBeginsACanvas := by
  intro s tag w h order hs fields busy answer
  have owner : s.reply tag (.canvasOpen w h order) = s.canvasOpen w h order := s.reply_eq_owner hs tag _
  refine ⟨fun bad => ?_, fun ok hbusy => ?_, fun ok hidle => ?_⟩ <;> refine (exec_canvasOpen ..).trans (congrArg _ ?_)
  · exact State.arrive_of_refused hs (owner.trans (s.canvasOpen_badField bad))
  · exact State.arrive_of_refused hs (owner.trans (State.canvasOpen_busy ok hbusy))
  · have ⟨_, hreq, _⟩ := hs
    exact State.arrive_of_done hs (owner.trans (State.canvasOpen_accepted ok hidle)) hreq

end Sys2Proof.Machine
end

section
/-!
PROOF. What a request can do to the state, but for its answer: which requests only set off consequences (`Cascade`), and what each
of the others changes.
-/

namespace Sys2Proof.Machine

/-! ## Requests that name a link, a flat or a cell -/

theorem State.withLink_state {P : State → Prop} {s : State} (link : Nat) {f : Fin 12 → Reply} (stay : P s)
    (owned : ∀ l, P (f l).1) : P (s.withLink link f).1 := by
  unfold State.withLink
  split
  · exact owned _
  · exact stay

theorem State.withFlat_state {P : State → Prop} {s : State} (index : Nat) {f : Fin 24 → Reply} (stay : P s)
    (owned : ∀ i, P (f i).1) : P (s.withFlat index f).1 := by
  unfold State.withFlat
  split
  · exact owned _
  · exact stay

theorem State.withCell_state {P : State → Prop} {s : State} (i : Nat) {f : Cell → Reply} (stay : P s)
    (owned : ∀ c, s.cell? i = some c → P (f c).1) : P (s.withCell i f).1 := by
  unfold State.withCell
  split
  · exact stay
  · split
    · exact stay
    · split
      · exact stay
      · rename_i c hc
        exact owned c hc

@[simp] theorem State.done_state (s : State) (payload : List Byte) : (s.done payload).1 = s := rfl
@[simp] theorem State.refuse_state (s : State) (why : RefuseReason) : (s.refuse why).1 = s := rfl

/-! ## Links -/

theorem Cascade.linkEnable (s : State) (link : Nat) : Cascade s (s.linkEnable link).1 := by
  refine State.withLink_state (P := Cascade s) link (.refl s) fun l => ?_
  simp only [apply_ite Prod.fst, State.done_state]
  split
  · exact ((Cascade.modPort s l _).trans (.setPortState _ l _ _ _)).trans (.detect _ l)
  · exact .refl s

theorem Cascade.linkConfig (s : State) (link slots active rows overscan missing low high warm : Nat) :
    Cascade s (s.linkConfig link slots active rows overscan missing low high warm).1 := by
  refine State.withLink_state (P := Cascade s) link (.refl s) fun l => ?_
  simp only [apply_ite Prod.fst, State.done_state, State.refuse_state]
  split
  · exact .refl s
  · split
    · exact .refl s
    · exact .modPort s l _

theorem Cascade.linkDisable (s : State) (link : Nat) : Cascade s (s.linkDisable link).1 := by
  refine State.withLink_state (P := Cascade s) link (.refl s) fun l => ?_
  simp only [apply_ite Prod.fst, State.done_state]
  split
  · exact .refl s
  · exact (Cascade.loseLink s l _ _ _ _).trans (.settle _)

theorem Cascade.linkReset (s : State) (link : Nat) : Cascade s (s.linkReset link).1 := by
  refine State.withLink_state (P := Cascade s) link (.refl s) fun l => ?_
  simp only [apply_ite Prod.fst, State.done_state, State.refuse_state]
  split
  · exact .refl s
  · split
    · exact .refl s
    · exact ((Cascade.loseLink s l _ _ _ _).trans (.detect _ l)).trans (.settle _)

theorem State.linkQuery_state (s : State) (link : Nat) : (s.linkQuery link).1 = s :=
  State.withLink_state (P := (· = s)) link rfl fun _ => rfl

theorem State.hkRead_state (s : State) (link : Nat) : (s.hkRead link).1 = s :=
  State.withLink_state (P := (· = s)) link rfl fun _ => rfl

theorem Cascade.relayRequest (s : State) (link : Nat) (outgoing : List Byte) (expected timeout : Nat) :
    Cascade s (s.relayRequest link outgoing expected timeout).1 := by
  refine State.withLink_state (P := Cascade s) link (.refl s) fun l => ?_
  simp only [apply_ite Prod.fst, State.done_state, State.refuse_state]
  split
  · exact .refl s
  · split
    · exact .refl s
    · split
      · exact .refl s
      · exact .setPort s l _

/-! ## Exposures -/

/-- A search of the slots by tag finds a non-FREE slot that carries the tag. -/
theorem State.slotOf_spec {s : State} {exposure : Nat} {k : Fin 4} (h : s.slotOf exposure = some k) :
    exposure ≠ 0 ∧ (s.slot k).state ≠ .free ∧ (s.slot k).exposure = exposure := by
  unfold State.slotOf at h
  split at h
  · cases h
  · have hk := List.find?_some h
    simp only [decide_eq_true_eq] at hk
    exact ⟨‹_›, hk⟩

/-- A tag above 0 that the search does not find is carried by no non-FREE slot. -/
theorem State.slotOf_none_spec {s : State} {exposure : Nat} (he : exposure ≠ 0) (h : s.slotOf exposure = none) (k : Fin 4)
    (hk : (s.slot k).state ≠ .free) : (s.slot k).exposure ≠ exposure := by
  rw [State.slotOf, if_neg he] at h
  simpa [hk] using List.find?_eq_none.1 h k (List.mem_finRange k)

/-- R36, R38. What EXPOSURE_OPEN does: nothing, or it fills a FREE slot with a scale within limits that are in order. -/
theorem State.exposureOpen_state (s : State) (exposure mode : Nat) (initial : Option Nat)
    (lower upper attack decay quota nominal limit : Nat) :
    (s.exposureOpen exposure mode initial lower upper attack decay quota nominal limit).1 = s
    ∨ ∃ k m, (s.slot k).state = .free ∧ exposure ≠ 0 ∧ s.slotOf exposure = none ∧ lower ≤ upper
        ∧ (s.exposureOpen exposure mode initial lower upper attack decay quota nominal limit).1
          = s.setSlot k (openedSlot exposure m (initial.getD s.carry) lower upper attack decay quota nominal limit) := by
  unfold State.exposureOpen
  split
  · exact .inl rfl
  · split
    · exact .inl rfl
    · rename_i m _ fields
      split
      · exact .inl rfl
      · split
        · exact .inl rfl
        · rename_i fresh
          split
          · exact .inl rfl
          · rename_i k free
            obtain ⟨⟨hexp, _⟩, _, _, _, hle, _⟩ := exposureFieldsOk_iff.1 (Bool.not_eq_false _ ▸ fields)
            refine .inr ⟨k, m, (State.freeSlot_eq_some.1 free).1, by omega, by simpa using fresh, hle, rfl⟩

theorem mem_insertPlacement {p q : Placement} : ∀ {l : List Placement}, q ∈ insertPlacement p l → q = p ∨ q ∈ l
  | [], h => by simpa [insertPlacement] using h
  | a :: l, h => by
    unfold insertPlacement at h
    split at h
    · simpa using h
    · split at h
      · rcases List.mem_cons.1 h with rfl | h
        · exact .inl rfl
        · exact .inr (List.mem_cons_of_mem _ h)
      · rcases List.mem_cons.1 h with rfl | h
        · exact .inr List.mem_cons_self
        · exact (mem_insertPlacement h).imp id (List.mem_cons_of_mem _)

/-- R38. What PLAN_PLACE does: nothing, or a record of weight 1/16 or more enters a slot's list. -/
theorem State.planPlace_state (s : State) (exposure segment weight anchorX anchorY : Nat) (colX colY rowX rowY : Int)
    (cells : List Nat) :
    (s.planPlace exposure segment weight anchorX anchorY colX colY rowX rowY cells).1 = s
    ∨ ∃ k p, 1 ≤ p.weight ∧ (s.planPlace exposure segment weight anchorX anchorY colX colY rowX rowY cells).1
        = s.setSlot k { s.slot k with placements := insertPlacement p (s.slot k).placements } := by
  unfold State.planPlace
  split
  · exact .inl rfl
  · dsimp only
    split
    · exact .inl rfl
    · split
      · split
        · exact .inl rfl
        · rename_i fields
          refine .inr ⟨_, _, ?_, rfl⟩
          simp only [Canvas.placeFieldsOk, Bool.not_eq_false, Bool.and_eq_true, decide_eq_true_eq] at fields
          exact fields.1.1.1.1.1.1.2.1
      · exact .inl rfl

theorem Cascade.planRef (s : State) (exposure : Nat) (refs : List (Nat × Nat × Nat × F32)) :
    Cascade s (s.planRef exposure refs).1 := by
  unfold State.planRef
  split
  · exact .refl s
  · dsimp only
    split
    · exact .refl s
    · split
      · exact .refl s
      · split
        · exact .refl s
        · exact .setSlot s _ _ (.same rfl rfl rfl rfl)

theorem Cascade.promise (owes : Bool) (s : State) (i : Nat) : Cascade s (s.promise owes i) := by
  unfold State.promise
  split
  · exact .refl s
  · split <;> exact .setCell s i _

theorem Cascade.touch (s : State) (i : Nat) : Cascade s (s.touch i) := by
  unfold State.touch
  split
  · exact .refl s
  · split
    · exact (Cascade.setCell s i _).trans (.queueZeroing _ i)
    · exact .refl s

theorem Cascade.commitCells (s : State) (x : ExpSlot) : Cascade s (s.commitCells x) :=
  ((Cascade.foldl _ (fun s p => .foldl _ (.promise _) (Placement.cells p) s) _ s).trans (.foldl _ .touch _ _)).trans (.setCanvas _ _)

theorem Cascade.commitMoves (s : State) (x : ExpSlot) (moving : List (Fin 40)) : Cascade s (s.commitMoves x moving) := by
  refine .foldl _ (fun s t => ?_) moving s
  split
  · exact .holdTile s t
  · exact .queueTile s t

theorem Cascade.discardUnlisted (k : Fin 4) (s : State) (t : Fin 40) : Cascade s (s.discardUnlisted k t) :=
  (Cascade.discardTile s t _).trans (.recordResolution _ k _ _)

/-- Setting the state of a slot that is in use, to one that is in use. -/
theorem SlotKeeps.restate {x y : ExpSlot} (h : x.state ≠ .free) (st : SlotState) (k : SlotKeeps x y) (hy : y.state ≠ .free) :
    SlotKeeps x { y with state := st } where
  free hx := absurd hx h
  tag _ := k.tag hy
  plan p hp := k.plan p hp
  scale hx _ := k.scale hx hy

end Sys2Proof.Machine
end

section
/-!
PROOF. Two frames below `Cascade`. `CanvasSide`: what promises, payments and completions of cells leave alone. `Inner`: what the
consequences that do not reach a port's buffer leave alone; among it the grid of the canvas.
-/

namespace Sys2Proof.Machine

/-! ## The canvas's side -/

/-- What the operations on cells leave alone: everything but the cells, the drain's queue, the row in hand and the claims. -/
structure CanvasSide (s t : State) : Prop where
  rest : { t with canvas := s.canvas, drain := s.drain, place := s.place, store := s.store } = s
  grid : { t.canvas with cells := s.canvas.cells, commits := s.canvas.commits } = s.canvas
  length : t.canvas.cells.length = s.canvas.cells.length
  drain : { t.drain with queue := s.drain.queue } = s.drain

theorem CanvasSide.refl (s : State) : CanvasSide s s := ⟨rfl, rfl, rfl, rfl⟩

theorem CanvasSide.trans {s t u : State} (a : CanvasSide s t) (b : CanvasSide t u) : CanvasSide s u where
  rest := (congrArg (fun x : State => ({ x with canvas := s.canvas, drain := s.drain, place := s.place, store := s.store } : State))
    b.rest).trans a.rest
  grid := (congrArg (fun c : Canvas => ({ c with cells := s.canvas.cells, commits := s.canvas.commits } : Canvas)) b.grid).trans a.grid
  length := b.length.trans a.length
  drain := (congrArg (fun d : Drain => ({ d with queue := s.drain.queue } : Drain)) b.drain).trans a.drain

theorem CanvasSide.foldl {α : Type} {f : State → α → State} (h : ∀ s a, CanvasSide s (f s a)) :
    ∀ (l : List α) (s : State), CanvasSide s (l.foldl f s)
  | [], s => .refl s
  | a :: rest, s => (h s a).trans (CanvasSide.foldl h rest (f s a))

theorem CanvasSide.slots {s t : State} (h : CanvasSide s t) : t.slots = s.slots := (congrArg State.slots h.rest :)
theorem CanvasSide.ports {s t : State} (h : CanvasSide s t) : t.ports = s.ports := (congrArg State.ports h.rest :)
theorem CanvasSide.tiles {s t : State} (h : CanvasSide s t) : t.tiles = s.tiles := (congrArg State.tiles h.rest :)
theorem CanvasSide.host {s t : State} (h : CanvasSide s t) : t.host = s.host := (congrArg State.host h.rest :)

theorem CanvasSide.slot {s t : State} (h : CanvasSide s t) (k : Fin 4) : t.slot k = s.slot k := by
  rw [State.slot, State.slot, h.slots]

theorem CanvasSide.setCell (s : State) (i : Nat) (c : Cell) : CanvasSide s (s.setCell i c) :=
  ⟨rfl, rfl, List.length_set, rfl⟩

theorem CanvasSide.setPlace (s : State) (p : Option PlaceCtx) : CanvasSide s { s with place := p } := ⟨rfl, rfl, rfl, rfl⟩

theorem CanvasSide.claim (s : State) (c : Claim) : CanvasSide s (s.claim c) := ⟨rfl, rfl, rfl, rfl⟩

theorem CanvasSide.claimRow (s : State) (ctx : PlaceCtx) : CanvasSide s (s.claimRow ctx) :=
  (CanvasSide.setPlace s _).trans (.claim _ _)

theorem CanvasSide.leaveWait (s : State) (i : Nat) : CanvasSide s (s.leaveWait i) := by
  unfold State.leaveWait
  split
  · exact .refl s
  · split
    · dsimp only
      split
      · exact .claimRow s _
      · exact .setPlace s _
    · exact .refl s

theorem CanvasSide.completeCell (s : State) (i : Nat) (c : Cell) : CanvasSide s (s.completeCell i c) := by
  have queued : CanvasSide (s.setCell i { c with state := .complete })
      { s.setCell i { c with state := .complete } with drain := { s.drain with queue := s.drain.queue ++ [i] } } :=
    ⟨rfl, rfl, rfl, rfl⟩
  exact ((CanvasSide.setCell s i _).trans queued).trans (.leaveWait _ i)

theorem CanvasSide.payCell (placed : Bool) (s : State) (i : Nat) : CanvasSide s (s.payCell placed i) := by
  unfold State.payCell
  split
  · exact .refl s
  · dsimp only
    split
    · split
      · exact .completeCell s i _
      · exact .setCell s i _
    · exact .setCell s i _

theorem CanvasSide.payCells (s : State) (placed : Bool) (cells : List Nat) : CanvasSide s (s.payCells placed cells) :=
  .foldl (.payCell placed) cells s

theorem CanvasSide.promise (owes : Bool) (s : State) (i : Nat) : CanvasSide s (s.promise owes i) := by
  unfold State.promise
  split
  · exact .refl s
  · split <;> exact .setCell s i _

theorem CanvasSide.queueZeroing (s : State) (i : Nat) : CanvasSide s (s.queueZeroing i) := by
  unfold State.queueZeroing
  split
  · exact .refl s
  · dsimp only
    split <;> exact ⟨rfl, rfl, rfl, rfl⟩

theorem CanvasSide.touch (s : State) (i : Nat) : CanvasSide s (s.touch i) := by
  unfold State.touch
  split
  · exact .refl s
  · split
    · exact (CanvasSide.setCell s i _).trans (.queueZeroing _ i)
    · exact .refl s

theorem CanvasSide.commitCells (s : State) (x : ExpSlot) : CanvasSide s (s.commitCells x) := by
  have promised := CanvasSide.foldl
    (fun s (p : Placement) => CanvasSide.foldl (.promise !(x.entry p.segment).isResolved) p.cells s) x.placements s
  have touched := promised.trans (.foldl CanvasSide.touch (x.placements.flatMap Placement.cells) _)
  exact touched.trans ⟨rfl, rfl, rfl, rfl⟩

theorem CanvasSide.cellZeroed (s : State) (i : Nat) : CanvasSide s (s.cellZeroed i) := by
  unfold State.cellZeroed
  split
  · exact .refl s
  · split
    · exact .setCell s i _
    · exact .refl s

theorem CanvasSide.closeCell (s : State) (i : Nat) : CanvasSide s (s.closeCell i) := by
  unfold State.closeCell
  split
  · exact .refl s
  · split
    · exact .setCell s i _
    · split
      · exact .completeCell s i _
      · exact .refl s

/-! ## What does not reach a buffer -/

/-- What the consequences below the receive buffers leave alone: the ports, the canvas but for its cells, and the drain unit but for
its queue. -/
structure Inner (s t : State) : Prop where
  ports : t.ports = s.ports
  grid : { t.canvas with cells := s.canvas.cells, commits := s.canvas.commits } = s.canvas
  length : t.canvas.cells.length = s.canvas.cells.length
  drain : { t.drain with queue := s.drain.queue } = s.drain

theorem Inner.refl (s : State) : Inner s s := ⟨rfl, rfl, rfl, rfl⟩

theorem Inner.trans {s t u : State} (a : Inner s t) (b : Inner t u) : Inner s u where
  ports := b.ports.trans a.ports
  grid := (congrArg (fun c : Canvas => ({ c with cells := s.canvas.cells, commits := s.canvas.commits } : Canvas)) b.grid).trans a.grid
  length := b.length.trans a.length
  drain := (congrArg (fun d : Drain => ({ d with queue := s.drain.queue } : Drain)) b.drain).trans a.drain

theorem Inner.foldl {α : Type} {f : State → α → State} (h : ∀ s a, Inner s (f s a)) :
    ∀ (l : List α) (s : State), Inner s (l.foldl f s)
  | [], s => .refl s
  | a :: rest, s => (h s a).trans (Inner.foldl h rest (f s a))

theorem CanvasSide.inner {s t : State} (h : CanvasSide s t) : Inner s t := ⟨h.ports, h.grid, h.length, h.drain⟩

theorem Inner.port {s t : State} (h : Inner s t) (l : Fin 12) : t.port l = s.port l := by
  rw [State.port, State.port, h.ports]

/-- An update of parts of the state that the frame says nothing about. -/
theorem Inner.parts {s t : State} (ports : t.ports = s.ports) (canvas : t.canvas = s.canvas) (drain : t.drain = s.drain) :
    Inner s t := ⟨ports, by rw [canvas], by rw [canvas], by rw [drain]⟩

theorem Inner.setTile (s : State) (t : Fin 40) (x : Tile) : Inner s (s.setTile t x) := .parts rfl rfl rfl
theorem Inner.modTile (s : State) (t : Fin 40) (f : Tile → Tile) : Inner s (s.modTile t f) := .parts rfl rfl rfl
theorem Inner.setSlot (s : State) (k : Fin 4) (x : ExpSlot) : Inner s (s.setSlot k x) := .parts rfl rfl rfl
theorem Inner.modSlot (s : State) (k : Fin 4) (f : ExpSlot → ExpSlot) : Inner s (s.modSlot k f) := .parts rfl rfl rfl
theorem Inner.setMeasure (s : State) (l : Fin 12) (m : List Measuring) : Inner s (s.setMeasure l m) := .parts rfl rfl rfl
theorem Inner.claim (s : State) (c : Claim) : Inner s (s.claim c) := .parts rfl rfl rfl
theorem Inner.withdraw (s : State) (c : Claim) : Inner s (s.withdraw c) := .parts rfl rfl rfl
theorem Inner.raise (s : State) (k : NoticeKind) (c : List Byte) : Inner s (s.raise k c) := .parts rfl rfl rfl

theorem Inner.endSlot (s : State) (k : Fin 4) (o : DoneOutcome) : Inner s (s.endSlot k o) := .parts rfl rfl rfl
theorem Inner.finishSlot (s : State) (k : Fin 4) : Inner s (s.finishSlot k) := .parts rfl rfl rfl

theorem Inner.settleSlot (s : State) (k : Fin 4) : Inner s (s.settleSlot k) := by
  unfold State.settleSlot
  dsimp only
  repeat' split
  all_goals exact .parts rfl rfl rfl

theorem Inner.recordResolution (s : State) (k : Fin 4) (g : Fin 96) (why : Reason) : Inner s (s.recordResolution k g why) := by
  unfold State.recordResolution
  dsimp only
  split
  · exact .refl s
  · split
    · split
      · exact (Inner.setSlot s k _).trans (CanvasSide.payCells _ _ _).inner
      · exact .setSlot s k _
    · exact .setSlot s k _

theorem Inner.withdrawWrite (s : State) (g : Fin 96) : Inner s (s.withdrawWrite g) := by
  unfold State.withdrawWrite
  split <;> exact .parts rfl rfl rfl

theorem Inner.dropMeasuring (s : State) (t : Fin 40) (l : Fin 12) : Inner s (s.dropMeasuring t l) := by
  unfold State.dropMeasuring
  repeat' split
  all_goals exact .parts rfl rfl rfl

theorem Inner.leaveStore (s : State) (t : Fin 40) (o : TileOutcome) : Inner s (s.leaveStore t o) := by
  unfold State.leaveStore
  dsimp only
  split <;> exact .parts rfl rfl rfl

theorem Inner.discardTile (s : State) (t : Fin 40) (o : TileOutcome) : Inner s (s.discardTile t o) := by
  unfold State.discardTile
  dsimp only
  split
  · split
    · exact (Inner.withdrawWrite s _).trans (.leaveStore _ t o)
    · exact (Inner.dropMeasuring s t _).trans (.leaveStore _ t o)
  · exact .leaveStore s t o

theorem Inner.holdTile (s : State) (t : Fin 40) : Inner s (s.holdTile t) := .parts rfl rfl rfl
theorem Inner.queueTile (s : State) (t : Fin 40) : Inner s (s.queueTile t) := .parts rfl rfl rfl

theorem Inner.freezeSlot {take : State → State} (ht : ∀ s, Inner s (take s)) (s : State) (k : Fin 4) (cause : FreezeCause)
    (g : Option (Fin 96)) : Inner s (s.freezeSlot take k cause g) := by
  unfold State.freezeSlot
  dsimp only
  split
  · exact (((Inner.setSlot s k _).trans (.foldl .queueTile _ _)).trans (ht _)).trans (.raise _ _ _)
  · exact .refl s

theorem Inner.exhaustedTest {take : State → State} (ht : ∀ s, Inner s (take s)) (s : State) (k : Fin 4) :
    Inner s (s.exhaustedTest take k) := by
  unfold State.exhaustedTest
  dsimp only
  split
  · exact .freezeSlot ht s k _ _
  · exact .refl s

theorem Inner.resolve {take : State → State} (ht : ∀ s, Inner s (take s)) (s : State) (k : Fin 4) (g : Fin 96)
    (why : Reason) : Inner s (s.resolve take k g why) := by
  unfold State.resolve
  split
  · exact .refl s
  · exact ((Inner.recordResolution s k g why).trans (.settleSlot _ k)).trans (.exhaustedTest ht _ k)

theorem Inner.pressFreeze {take : State → State} (ht : ∀ s, Inner s (take s)) (s : State) (g : Fin 96) :
    Inner s (s.pressFreeze take g) := by
  refine .foldl (fun s k => ?_) allSlots s
  split
  · exact .refl s
  · exact .freezeSlot ht s k _ _

theorem Inner.startRow (s : State) (ctx : PlaceCtx) (row : Nat) : Inner s (s.startRow ctx row) := by
  unfold State.startRow
  dsimp only
  generalize (if ctx.ended = true then _ else _) = w
  split
  · exact (Inner.setTile s _ _).trans (CanvasSide.claimRow _ _).inner
  · exact .parts rfl rfl rfl

theorem Inner.completePlacement (s : State) (t : Fin 40) : Inner s (s.completePlacement t) := by
  unfold State.completePlacement
  dsimp only
  refine Inner.trans ?_ (CanvasSide.setPlace _ none).inner
  split
  · exact ((Inner.modTile s t _).trans (.leaveStore _ t _)).trans (.resolve .refl _ _ _ _)
  · exact (Inner.modTile s t _).trans (.leaveStore _ t _)

theorem Inner.nextRow (s : State) (ctx : PlaceCtx) (row : Nat) : Inner s (s.nextRow ctx row) := by
  unfold State.nextRow
  split
  · exact .startRow s ctx _
  · exact .completePlacement s _

theorem Inner.takeTile (s : State) (t : Fin 40) : Inner s (s.takeTile t) := by
  unfold State.takeTile
  dsimp only
  split
  · exact .refl s
  · split
    · exact .refl s
    · refine Inner.trans ?_ (.nextRow _ _ 0)
      exact .parts rfl rfl rfl

theorem Inner.takeTiles : ∀ (n : Nat) (s : State), Inner s (s.takeTiles n)
  | 0, s => .refl s
  | n + 1, s => by
    unfold State.takeTiles
    split
    · refine Inner.trans (.trans ?_ (.takeTile _ _)) (Inner.takeTiles n _)
      exact .parts rfl rfl rfl
    · exact .refl s
    · exact .refl s

theorem Inner.take (s : State) : Inner s s.take := .takeTiles 41 s

theorem Inner.stopTile (s : State) (t : Fin 40) : Inner s (s.stopTile t) :=
  (Inner.discardTile s t _).trans (CanvasSide.setPlace _ none).inner

theorem Inner.stopDetached (s : State) (t : Fin 40) : Inner s (s.stopDetached t) := by
  unfold State.stopDetached
  split
  · exact .refl s
  · split
    · split
      · exact .parts rfl rfl rfl
      · exact (Inner.withdraw s _).trans (.stopTile _ t)
    · exact .refl s

theorem Inner.recordRef (s : State) (t : Fin 40) (k : Fin 4) (i : Nat) (r : RefResult) (f : Option F32) :
    Inner s (s.recordRef t k i r f) := by
  unfold State.recordRef
  split
  · exact .refl s
  · dsimp only
    split
    · split
      · exact ((Inner.setSlot s k _).trans (.modTile _ t _)).trans (.freezeSlot Inner.take _ k _ _)
      · exact (Inner.setSlot s k _).trans (.modTile _ t _)
    · exact (Inner.setSlot s k _).trans (.modTile _ t _)

theorem Inner.routeTile (s : State) (t : Fin 40) (k : Fin 4) : Inner s (s.routeTile t k) := by
  unfold State.routeTile
  dsimp only
  refine Inner.trans (.trans ?_ (.exhaustedTest Inner.take _ k)) (.settleSlot _ k)
  split
  · exact .modTile s t _
  · split
    · exact .holdTile s t
    · exact (Inner.queueTile s t).trans (.take _)

theorem Inner.measureStep (s : State) (l : Fin 12) : Inner s (s.measureStep l).1 := by
  unfold State.measureStep
  split
  · exact .refl s
  · dsimp only
    split
    · exact .setMeasure s l _
    · split
      · exact (Inner.setMeasure s l _).trans (.routeTile _ _ _)
      · split
        · exact .setMeasure s l _
        · split
          · dsimp only
            refine Inner.trans ?_ (.recordRef _ _ _ _ _ _)
            exact .setMeasure s l _
          · split
            · dsimp only
              refine Inner.trans ?_ (.recordRef _ _ _ _ _ _)
              exact .setMeasure s l _
            · exact .claim s _

theorem Inner.measureLoop (l : Fin 12) : ∀ (n : Nat) (s : State), Inner s (s.measureLoop l n)
  | 0, s => .refl s
  | n + 1, s => by
    unfold State.measureLoop
    dsimp only
    split
    · exact (Inner.measureStep s l).trans (Inner.measureLoop l n _)
    · exact .measureStep s l

theorem Inner.measureRun (s : State) (l : Fin 12) : Inner s (s.measureRun l) := .measureLoop l _ s

theorem Inner.closeTile (l : Fin 12) (truncated : Bool) (s : State) (t : Fin 40) : Inner s (s.closeTile l truncated t) := by
  unfold State.closeTile
  dsimp only
  split
  · have closed := fun x => (Inner.withdrawWrite s (s.tile t).segment).trans (.setTile _ t x)
    split
    · exact (closed _).trans (.discardTile _ t _)
    · split
      · exact ((closed _).trans (.discardTile _ t _)).trans (.resolve Inner.take _ _ _ _)
      · split
        · exact ((closed _).trans (.setMeasure _ l _)).trans (.measureRun _ l)
        · exact (closed _).trans (.setMeasure _ l _)
  · exact .refl s

theorem Inner.closeTiles (s : State) (l : Fin 12) (truncated : Bool) : Inner s (s.closeTiles l truncated) :=
  .foldl (.closeTile l truncated) _ s

theorem Inner.startSegment (s : State) (l : Fin 12) (k : Fin 4) (e : Nat) (lat : Latched) (g : Fin 96) :
    Inner s (s.startSegment l k e lat g) := by
  unfold State.startSegment
  dsimp only
  split
  · exact .resolve Inner.take s k g _
  · split
    · exact .resolve Inner.take s k g _
    · split
      · exact (Inner.resolve Inner.take s k g _).trans (.pressFreeze Inner.take _ g)
      · exact (Inner.setTile s _ _).trans (.modSlot _ k _)

theorem Inner.handleSegment (l : Fin 12) (k : Fin 4) (e : Nat) (lat : Latched) (s : State) (a : Fin 8) :
    Inner s (s.handleSegment l k e lat a) := by
  unfold State.handleSegment
  dsimp only
  split
  · exact .refl s
  · split
    · exact .setSlot s k _
    · split
      · exact .refl s
      · exact .startSegment s l k e lat _

theorem Inner.associate (s : State) (l : Fin 12) (e row : Nat) : Inner s (s.associate l e row) := by
  unfold State.associate
  split
  · exact .raise s _ _
  · exact ((Inner.modSlot s _ _).trans (.foldl (.handleSegment l _ e _) _ _)).trans (.settleSlot _ _)

theorem Inner.abandonSlot (s : State) (k : Fin 4) : Inner s (s.abandonSlot k) := by
  unfold State.abandonSlot
  dsimp only
  refine .trans ?_ (.foldl .stopDetached _ _)
  refine .trans ?_ (.endSlot _ k _)
  refine .trans ?_ (.foldl (fun s g => .recordResolution s k g _) _ _)
  exact (Inner.foldl (fun s t => .discardTile s t _) _ s).trans (.foldl (fun s t => .modTile s t _) _ _)

theorem Inner.takeFreed (s : State) (before : Option PlaceCtx) : Inner s (s.takeFreed before) := by
  unfold State.takeFreed
  split
  · exact .take s
  · exact .refl s

theorem Inner.writeOff_loop (k : Fin 4) (gs : List (Fin 96)) (s : State) :
    Inner s (gs.foldl (fun s g => s.resolve State.take k g .noReadout) s) :=
  .foldl (fun s g => .resolve Inner.take s k g _) gs s

end Sys2Proof.Machine
end

section
/-!
PROOF. The requests of the exposure table, the canvas and the drain as consequences, and what the requests of the calibration
block change.
-/

namespace Sys2Proof.Machine

/-! ## EXPOSURE_COMMIT and EXPOSURE_ABANDON -/

theorem State.commitMoves_slots (s : State) (x : ExpSlot) (moving : List (Fin 40)) : (s.commitMoves x moving).slots = s.slots := by
  unfold State.commitMoves
  induction moving generalizing s with
  | nil => rfl
  | cons t l ih =>
    rw [List.foldl_cons, ih]
    split <;> rfl

/-- R89, step 1. A tile that leaves adds its counts to the totals of its owner, and changes nothing else of any slot. -/
theorem State.leaveStore_slot (s : State) (t : Fin 40) (o : TileOutcome) (k : Fin 4) :
    (s.leaveStore t o).slot k = if (s.tile t).owner = some k then
      { s.slot k with totals := (s.slot k).totals.add (s.tile t) } else s.slot k := by
  unfold State.leaveStore
  dsimp only
  split
  · rename_i j ho
    show (s.modSlot j fun y => { y with totals := y.totals.add (s.tile t) }).slot k = _
    rw [State.slot_modSlot, ho]
    by_cases hjk : j = k
    · simp [hjk]
    · simp [hjk]
  · rename_i ho
    rw [ho]
    rfl

/-- What a discard does before its tile leaves: claims and measurements alone. -/
theorem State.discardTile_leaves (s : State) (t : Fin 40) (o : TileOutcome) :
    ∃ u : State, s.discardTile t o = u.leaveStore t o ∧ u.slots = s.slots ∧ u.tiles = s.tiles := by
  unfold State.discardTile
  dsimp only
  split
  · split
    · refine ⟨_, rfl, ?_⟩
      unfold State.withdrawWrite
      split <;> exact ⟨rfl, rfl⟩
    · refine ⟨_, rfl, ?_⟩
      unfold State.dropMeasuring
      repeat' split
      all_goals exact ⟨rfl, rfl⟩
  · exact ⟨s, rfl, rfl, rfl⟩

/-- A discarded tile adds its counts to the totals of its owner, and changes nothing else of any slot. -/
theorem State.discardTile_slot (s : State) (t : Fin 40) (o : TileOutcome) (k : Fin 4) :
    (s.discardTile t o).slot k = if (s.tile t).owner = some k then
      { s.slot k with totals := (s.slot k).totals.add (s.tile t) } else s.slot k := by
  obtain ⟨u, e, hslots, htiles⟩ := s.discardTile_leaves t o
  have hs : u.slot k = s.slot k := by rw [State.slot, State.slot, hslots]
  have ht : u.tile t = s.tile t := by rw [State.tile, State.tile, htiles]
  rw [e, State.leaveStore_slot, hs, ht]

theorem State.discardTile_slot_state (s : State) (t : Fin 40) (o : TileOutcome) (k : Fin 4) :
    ((s.discardTile t o).slot k).state = (s.slot k).state := by
  rw [State.discardTile_slot]
  split <;> rfl

/-- A resolution recorded leaves a slot in its state. -/
theorem State.recordResolution_state (s : State) (k : Fin 4) (g : Fin 96) (why : Reason) (j : Fin 4) :
    ((s.recordResolution k g why).slot j).state = (s.slot j).state := by
  have set : ∀ x : ExpSlot, x.state = (s.slot k).state → ((s.setSlot k x).slot j).state = (s.slot j).state := by
    intro x hx
    rw [State.slot_setSlot]
    split
    · rename_i hkj
      rw [hx, hkj]
    · rfl
  unfold State.recordResolution
  dsimp only
  split
  · rfl
  · split
    · split
      · rw [(CanvasSide.payCells _ _ _).slot]
        exact set _ rfl
      · exact set _ rfl
    · exact set _ rfl

theorem State.discardUnlisted_state (k : Fin 4) (ts : List (Fin 40)) (s : State) (j : Fin 4) :
    ((ts.foldl (State.discardUnlisted k) s).slot j).state = (s.slot j).state := by
  induction ts generalizing s with
  | nil => rfl
  | cons t l ih =>
    rw [List.foldl_cons, ih, State.discardUnlisted, State.recordResolution_state, State.discardTile_slot_state]

/-- The consequences of a commit; the slot it commits was OPEN. -/
theorem Cascade.commit (s : State) (k : Fin 4) (h : (s.slot k).state = .opened) : Cascade s (s.commit k).1 := by
  unfold State.commit
  dsimp only [State.done]
  generalize List.filter _ (State.tilesOf _ k) = moving
  generalize List.filter _ (State.tilesOf _ k) = dropped
  generalize State.linksOf _ dropped = links
  have moved : Cascade s ((s.commitCells (s.slot k)).commitMoves (s.slot k) moving) :=
    (Cascade.commitCells s _).trans (.commitMoves _ _ _)
  have gone := moved.trans (.foldl _ (.discardUnlisted k) dropped _)
  have opened : ((dropped.foldl (State.discardUnlisted k)
      ((s.commitCells (s.slot k)).commitMoves (s.slot k) moving)).slot k).state = .opened := by
    rw [State.discardUnlisted_state, State.slot, State.commitMoves_slots, (CanvasSide.commitCells s _).slots, ← State.slot, h]
  generalize dropped.foldl (State.discardUnlisted k) ((s.commitCells (s.slot k)).commitMoves (s.slot k) moving) = u at gone opened ⊢
  have live : (u.slot k).state ≠ .free := by rw [opened]; exact nofun
  have settled := (gone.trans (.setSlot u k { u.slot k with state := .committed } (.live live rfl rfl rfl))).trans (.settleSlot _ k)
  have taken := (settled.trans (.exhaustedTest State.take Cascade.take _ k)).trans (.take _)
  exact (taken.trans (.foldl _ .resumeLink links _)).trans (.settle _)

theorem Cascade.exposureCommit (s : State) (exposure : Nat) : Cascade s (s.exposureCommit exposure).1 := by
  unfold State.exposureCommit
  split
  · exact .refl s
  · dsimp only
    split
    · exact .refl s
    · rename_i k _ opened
      split
      · exact .refl s
      · exact .commit s k (not_not.1 opened)

theorem Cascade.abandonSlot (s : State) (k : Fin 4) : Cascade s (s.abandonSlot k) := by
  unfold State.abandonSlot
  dsimp only
  refine .trans ?_ (.foldl _ .stopDetached _ _)
  refine .trans ?_ (.endSlot _ k _)
  refine .trans ?_ (.foldl _ (fun s g => .recordResolution s k g _) _ _)
  exact (Cascade.foldl _ (fun s t => .discardTile s t _) _ s).trans (.foldl _ (fun s t => .modTile s t _) _ _)

theorem Cascade.takeFreed (s : State) (before : Option PlaceCtx) : Cascade s (s.takeFreed before) := by
  unfold State.takeFreed
  split
  · exact .take s
  · exact .refl s

theorem Cascade.exposureAbandon (s : State) (exposure : Nat) : Cascade s (s.exposureAbandon exposure).1 := by
  unfold State.exposureAbandon
  split
  · exact .refl s
  · exact (((Cascade.abandonSlot s _).trans (.takeFreed _ _)).trans (.foldl _ .resumeLink _ _)).trans (.settle _)

theorem State.exposureQuery_state (s : State) (exposure : Nat) :
    ∃ n, (s.exposureQuery exposure).1 = { s with freeIndex := n } := by
  unfold State.exposureQuery
  split
  · exact ⟨_, rfl⟩
  · exact ⟨_, rfl⟩

theorem Cascade.scaleSet (s : State) (exposure value : Nat) : Cascade s (s.scaleSet exposure value).1 := by
  unfold State.scaleSet
  split
  · exact .refl s
  · dsimp only
    split
    · exact .refl s
    · split
      · exact .refl s
      · refine .setSlot s _ _ ⟨id, fun _ => rfl, fun _ h => h, fun law live => ?_⟩
        obtain ⟨hl, hu⟩ := law live
        exact clampScale_mem (hl.trans hu) value

/-! ## The readout limit -/

theorem Cascade.overrun (s : State) (k : Fin 4) : Cascade s (s.overrun k) :=
  (((Cascade.foldl _ (fun s t => .discardTile s t _) _ s).trans (.endSlot _ k _)).trans (.foldl _ .resumeLink _ _)).trans
    (.settle _)

theorem Cascade.writeOff (s : State) (k : Fin 4) : Cascade s (s.writeOff k) := by
  unfold State.writeOff
  dsimp only
  refine .trans (.trans (.trans ?_ (.foldl _ (fun s g => .resolve State.take Cascade.take s k g _) _ _)) (.settleSlot _ k)) (.settle _)
  exact .modSlot s k _ fun _ => .same rfl rfl rfl rfl

theorem Cascade.limitExpiry (s : State) (k : Fin 4) : Cascade s (s.limitExpiry k) := by
  unfold State.limitExpiry
  dsimp only
  split
  · exact .refl s
  · split
    · exact .overrun s k
    · split
      · exact .writeOff s k
      · exact .refl s

/-! ## The canvas -/

theorem Cascade.canvasOpen (s : State) (width height order : Nat) : Cascade s (s.canvasOpen width height order).1 := by
  unfold State.canvasOpen
  split
  · exact .refl s
  · split
    · exact .refl s
    · split
      · exact .refl s
      · exact .setCanvas s _

theorem Cascade.closeCell (s : State) (i : Nat) : Cascade s (s.closeCell i) := by
  unfold State.closeCell
  split
  · exact .refl s
  · split
    · exact .setCell s i _
    · split
      · exact .completeCell s i _
      · exact .refl s

theorem Cascade.canvasClose (s : State) : Cascade s s.canvasClose.1 := by
  unfold State.canvasClose
  split
  · exact .refl s
  · split
    · exact .refl s
    · exact (((Cascade.foldl _ .closeCell _ s).trans (.setCanvas _ _)).trans (.finishTest _)).trans (.settle _)

theorem Cascade.cellRelease (s : State) (i : Nat) : Cascade s (s.cellRelease i).1 := by
  refine State.withCell_state (P := Cascade s) i (.refl s) fun c _ => ?_
  dsimp only
  split
  · exact ((Cascade.completeCell s i _).trans (.setCanvas _ _)).trans (.settle _)
  · split
    · exact (Cascade.setCell s i _).trans (.settle _)
    · exact .refl s

theorem State.cellQuery_state (s : State) (i : Nat) : (s.cellQuery i).1 = s :=
  State.withCell_state (P := (· = s)) i rfl fun _ _ => rfl

theorem Cascade.drainResume (s : State) : Cascade s s.drainResume.1 := by
  unfold State.drainResume
  split
  · exact .refl s
  · dsimp only
    split
    · exact ((Cascade.setDrain s _).trans (.claim _ _)).trans (.settle _)
    · exact (Cascade.setDrain s _).trans (.settle _)
    all_goals exact .setDrain s _

/-- R160. A hold changes the drain unit and its claim, and it may take the blocks out of the other sources' sets. -/
theorem State.drainHold_state (s : State) : Cascade s s.drainHold.1
    ∨ ∃ u, Cascade s u ∧ s.drainHold.1 = u.removeSource .blocks := by
  unfold State.drainHold
  split
  · exact .inl (.refl s)
  · dsimp only
    split
    · split
      · exact .inl (.setDrain s _)
      · exact .inl (((Cascade.setDrain s _).trans (.withdraw _ _)).trans (.settle _))
    · exact .inr ⟨_, .setDrain s _, rfl⟩
    all_goals exact .inl (.setDrain s _)

/-- R162. An abandonment changes the drain unit and its claim, and it may take the blocks out of the other sources' sets. -/
theorem State.drainAbandon_state (s : State) : Cascade s s.drainAbandon
    ∨ ∃ u, Cascade s u ∧ s.drainAbandon = u.removeSource .blocks := by
  unfold State.drainAbandon
  dsimp only
  split
  · exact .inl (.setDrain s _)
  · split
    · exact .inl (.setDrain s _)
    · exact .inl ((Cascade.setDrain s _).trans (.withdraw _ _))
  · exact .inr ⟨_, .setDrain s _, rfl⟩
  all_goals exact .inl (.setDrain s _)

/-- R147. What CANVAS_ABANDON does before and after the drain meets the abandonment. -/
theorem State.canvasAbandon_state (s : State) : s.canvasAbandon.1 = s
    ∨ ∃ u, Cascade s u ∧ Cascade u.drainAbandon s.canvasAbandon.1 := by
  unfold State.canvasAbandon
  split
  · exact .inl rfl
  · dsimp only [State.done]
    refine .inr ⟨_, .foldl _ .abandonSlot (allSlots.filter fun k => decide ((s.slot k).state ≠ .free)) s, ?_⟩
    exact (((Cascade.raise _ _ _).trans (.canvasToIdle _)).trans (.foldl _ .resumeLink _ _)).trans (.settle _)

end Sys2Proof.Machine
end

section
/-!
PROOF. What the requests of the calibration block and of the flat library change, and the arrival of camera frames: consequences,
but for the armed transfers of the readout starts taken on the way (`Arming`).
-/

namespace Sys2Proof.Machine

/-! ## Names of flats -/

/-- The flat is named by a record. -/
def SegCal.namesFlat (c : SegCal) (i : Fin 24) : Bool := c.holdingNames i || c.activeNames i

theorem State.flatNamed_iff {s : State} {i : Fin 24} : s.flatNamed i = true ↔ ∃ g, (s.segCal g).namesFlat i = true := by
  simp [State.flatNamed, SegCal.namesFlat, allSegments]

/-- R61. A transfer names no new flat. -/
theorem SegCal.namesFlat_transfer {c : SegCal} {i : Fin 24} (h : c.transfer.namesFlat i = true) : c.namesFlat i = true := by
  simp only [SegCal.namesFlat, SegCal.holdingNames, SegCal.activeNames, SegCal.transfer, Bool.or_self, Bool.or_eq_true] at h ⊢
  exact .inl h

/-- A segment's calibration is replaced by one that names no new flat. -/
theorem State.flatNamed_setSegCal {s : State} {g : Fin 96} {c : SegCal} {i : Fin 24}
    (hc : c.namesFlat i = true → (s.segCal g).namesFlat i = true) (h : (s.setSegCal g c).flatNamed i = true) :
    s.flatNamed i = true := by
  obtain ⟨j, hj⟩ := State.flatNamed_iff.1 h
  rw [State.segCal_setSegCal] at hj
  refine State.flatNamed_iff.2 ?_
  split at hj
  · exact ⟨g, hc hj⟩
  · exact ⟨j, hj⟩

/-! ## Arming -/

/-- The consequences of an event in which segments may transfer: all that `Cascade` says of the other parts, and no new name of
a flat. -/
structure Arming (s t : State) : Prop where
  rest : Cascade { s with cal := t.cal } t
  named : ∀ i, t.flatNamed i = true → s.flatNamed i = true

/-- What the consequences of an event do does not depend on the calibration that stands. -/
theorem Cascade.recal {s t : State} (h : Cascade s t) (cal : Vector SegCal 96) :
    Cascade { s with cal := cal } { t with cal := cal } :=
  { cal := rfl, flats := h.flats, mem := h.mem, freeIndex := h.freeIndex, pending := h.pending, storeState := h.storeState,
    owed := h.owed, late := h.late, interval := h.interval, rx := h.rx, lineErrors := h.lineErrors, requests := h.requests,
    job := h.job, answers := h.answers, mask := h.mask, line := h.line, sources := h.sources, notices := h.notices,
    folded := h.folded, slots := h.slots, weights := h.weights }

theorem Cascade.arming {s t : State} (h : Cascade s t) : Arming s t where
  rest := h.recal t.cal
  named i hi := by
    rw [State.flatNamed_iff] at hi ⊢
    simpa only [State.segCal, h.cal] using hi

theorem Arming.refl (s : State) : Arming s s := (Cascade.refl s).arming

theorem Arming.trans {s t u : State} (a : Arming s t) (b : Arming t u) : Arming s u where
  rest := (a.rest.recal u.cal).trans b.rest
  named i h := a.named i (b.named i h)

theorem Arming.foldl {α : Type} {f : State → α → State} (h : ∀ s a, Arming s (f s a)) :
    ∀ (l : List α) (s : State), Arming s (l.foldl f s)
  | [], s => .refl s
  | a :: rest, s => (h s a).trans (Arming.foldl h rest (f s a))

theorem Arming.setSegCal (s : State) (g : Fin 96) (c : SegCal)
    (h : ∀ i, c.namesFlat i = true → (s.segCal g).namesFlat i = true) : Arming s (s.setSegCal g c) where
  rest := .refl _
  named i hi := State.flatNamed_setSegCal (h i) hi

theorem Arming.armedTransfer (s : State) (g : Fin 96) : Arming s (s.armedTransfer g) := by
  unfold State.armedTransfer
  dsimp only
  split
  · exact .setSegCal s g _ fun _ => SegCal.namesFlat_transfer
  · exact .refl s

theorem Arming.takeStart (s : State) (l : Fin 12) (e row : Nat) (rest : List BufItem) : Arming s (s.takeStart l e row rest) := by
  unfold State.takeStart
  dsimp only
  refine .trans (.foldl (fun s a => .armedTransfer s (segmentOf l a)) allAmplifiers s) ?_
  exact ((Cascade.latchContext _ l _ rest).trans (.associate _ l e row)).arming

theorem Arming.takeMarkers (l : Fin 12) : ∀ (items : List BufItem) (s : State), Arming s (s.takeMarkers l items)
  | [], s => .refl s
  | .truncation :: rest, s => by
    unfold State.takeMarkers
    have closed := ((Cascade.setBuffer s l rest).trans (.closeTiles _ l true)).arming
    dsimp only
    split
    · exact closed.trans (Arming.takeMarkers l rest _)
    · exact closed
  | .start e r :: rest, s => (Cascade.setBuffer s l rest).arming.trans (.takeStart _ l e r rest)
  | .finish :: _, s => .refl s
  | .row _ :: _, s => .refl s

theorem Arming.readoutStart (s : State) (l : Fin 12) : Arming s (s.readoutStart l) := by
  unfold State.readoutStart
  split
  · exact (Arming.takeMarkers l _ s).trans (Cascade.resumeLink _ l).arming
  · exact .refl s

/-! ## Camera frames -/

theorem Cascade.hkComplete (s : State) (l : Fin 12) (words : List Nat) : Cascade s (s.hkComplete l words) := by
  unfold State.hkComplete
  dsimp only
  split
  · exact (Cascade.setPort s l _).trans (.raise _ _ _)
  · exact .setPort s l _

theorem Cascade.hkWord (s : State) (l : Fin 12) (index value : Nat) : Cascade s (s.hkWord l index value) := by
  unfold State.hkWord
  dsimp only
  split
  · exact .setPort s l _
  · split
    · split
      · exact .hkComplete s l _
      · exact .setPort s l _
    · exact .setPort s l _

theorem Cascade.relayIdle (s : State) (l : Fin 12) : Cascade s (s.relayIdle l) := by
  unfold State.relayIdle
  dsimp only
  split
  · split
    · exact .endRelay s l _ _
    · exact .modPort s l _
  · exact .refl s

theorem Cascade.relayFrame (s : State) (l : Fin 12) (m : Marker) (b : Byte) : Cascade s (s.relayFrame l m b) := by
  unfold State.relayFrame
  dsimp only
  split
  · split
    · exact .relayIdle s l
    · exact .modPort s l _
    · exact .endRelay s l _ _
  · exact .refl s

theorem Cascade.goodFrame (s : State) (l : Fin 12) (bytes : List Byte) : Cascade s (s.goodFrame l bytes) := by
  unfold State.goodFrame
  dsimp only
  have word := (Cascade.modPort s l fun p => { p with good := satAdd Config.sat32 p.good 1 }).trans
    (.hkWord _ l (bytes.getD 6 0).toNat (word16 bytes 7))
  split
  · exact word.trans (.relayFrame _ l _ _)
  · exact word.trans (.relayIdle _ l)

theorem Cascade.portFault (s : State) (l : Fin 12) : Cascade s (s.portFault l) :=
  ((Cascade.modPort s l _).trans (.setPortState _ l _ _ _)).trans (.raise _ _ _)

theorem Cascade.huntFrame (s : State) (l : Fin 12) (bytes : List Byte) : Cascade s (s.huntFrame l bytes) := by
  unfold State.huntFrame
  split
  · dsimp only
    split
    · exact ((Cascade.goodFrame s l bytes).trans (.setPort _ l _)).trans (.setPortState _ l _ _ _)
    · exact (Cascade.goodFrame s l bytes).trans (.setPort _ l _)
  · dsimp only
    split
    · exact ((Cascade.modPort s l _).trans (.setPort _ l _)).trans (.portFault _ l)
    · exact (Cascade.modPort s l _).trans (.setPort _ l _)

theorem Arming.enterRow (s : State) (l : Fin 12) (before : List BufItem) (row : Option BufRow) (after : List BufItem) :
    Arming s (s.enterRow l before row after) := by
  unfold State.enterRow
  dsimp only
  split
  · exact (Cascade.setPort s l _).arming.trans (.readoutStart _ l)
  · exact ((Cascade.setPort s l _).trans (.intakeRun _ l)).arming

theorem Cascade.countStale (s : State) (l : Fin 12) : Cascade s (s.countStale l) := .modPort s l _

theorem Cascade.staleRow (s : State) (l : Fin 12) (stale : Bool) : Cascade s (if stale then s.countStale l else s) := by
  split
  · exact .countStale s l
  · exact .refl s

/-- A port whose readout ends, in a frame with END. -/
theorem Cascade.frameEnds (s : State) (l : Fin 12) (ends : Bool) (f : Port → Port) (st : PortState) (cause : LinkCause) :
    Cascade s (if ends then (s.modPort l f).setPortState l st none cause else s) := by
  split
  · exact (Cascade.modPort s l f).trans (.setPortState _ l st none cause)
  · exact .refl s

theorem Arming.rowStart (s : State) (l : Fin 12) (bytes : List Byte) : Arming s (s.rowStart l bytes) := by
  unfold State.rowStart
  dsimp only
  refine .trans (Cascade.arming ?_) (.enterRow _ l _ _ _)
  refine .trans ?_ (.staleRow _ l _)
  refine .trans (.trans ?_ (.setPortState _ l .reading none .start)) (.frameEnds _ l (frameEnd bytes) _ .synced .finish)
  exact .modPort s l _

theorem Arming.rowInReadout (s : State) (l : Fin 12) (c : ReadoutCtx) (bytes : List Byte) :
    Arming s (s.rowInReadout l c bytes) := by
  unfold State.rowInReadout
  dsimp only
  split
  · exact (Cascade.countStale s l).arming
  · refine .trans (Cascade.arming ?_) (.enterRow _ l _ _ _)
    refine .trans ?_ (.frameEnds _ l (frameEnd bytes) (fun p => { p with ctx := none }) .synced .finish)
    split
    · exact .countStale s l
    · exact .modPort s l _

theorem Arming.rowFrame (s : State) (l : Fin 12) (bytes : List Byte) : Arming s (s.rowFrame l bytes) := by
  unfold State.rowFrame
  split
  · exact .rowStart s l bytes
  · split
    · exact .rowInReadout s l _ bytes
    · exact (Cascade.countStale s l).arming

theorem Arming.lockedFrame (s : State) (l : Fin 12) (bytes : List Byte) : Arming s (s.lockedFrame l bytes) := by
  unfold State.lockedFrame
  split
  · dsimp only
    split
    · refine .trans (Cascade.arming ?_) (.rowFrame _ l bytes)
      split
      · exact .goodFrame s l bytes
      · exact (Cascade.goodFrame s l bytes).trans (.modPort _ l _)
    · exact ((Cascade.goodFrame s l bytes).trans (.modPort _ l _)).arming
  · dsimp only
    split
    · exact ((Cascade.modPort s l _).trans (.loseLink _ l _ _ _ _)).arming
    · exact ((Cascade.modPort s l _).trans (.relayIdle _ l)).arming

theorem Cascade.sendLane (s : State) (l : Fin 12) : Cascade s (s.sendLane l) := by
  unfold State.sendLane
  dsimp only
  split
  · exact .setPort s l _
  · exact .refl s

theorem Cascade.tapStep (s : State) (l : Fin 12) (rising : Bool) : Cascade s (s.tapStep l rising) := by
  unfold State.tapStep
  dsimp only
  split
  · exact .setPort s l _
  · split
    · exact .portFault s l
    · exact .setPort s l _

theorem Cascade.trainFound (s : State) (l : Fin 12) : Cascade s (s.trainFound l) :=
  (Cascade.modPort s l _).trans (.setPortState _ l _ _ _)

theorem Arming.frameArrives (s : State) (l : Fin 12) (rising : Bool) (bytes : List Byte) :
    Arming s (s.frameArrives l rising bytes) := by
  unfold State.frameArrives
  dsimp only
  split
  · exact .refl s
  · exact .refl s
  · exact .refl s
  · split
    · exact ((Cascade.trainFound s l).trans (.sendLane _ l)).arming
    · exact .refl s
  · split
    · exact ((Cascade.huntFrame s l bytes).trans (.sendLane _ l)).arming
    · split
      · exact ((Cascade.tapStep s l rising).trans (.sendLane _ l)).arming
      · exact (Cascade.sendLane s l).arming
  · exact (Arming.lockedFrame s l bytes).trans (Cascade.sendLane _ l).arming
  · exact (Arming.lockedFrame s l bytes).trans (Cascade.sendLane _ l).arming

/-! ## Line events -/

theorem Cascade.signalFound (s : State) (l : Fin 12) : Cascade s (s.signalFound l) := by
  unfold State.signalFound
  split
  · exact .refl s
  · exact (Cascade.modPort s l _).trans (.detect _ l)

theorem Cascade.signalGone (s : State) (l : Fin 12) : Cascade s (s.signalGone l) := by
  unfold State.signalGone
  dsimp only
  split
  · exact (Cascade.modPort s l _).trans (.loseLink _ l _ _ _ _)
  · exact .modPort s l _

theorem Cascade.wakeExpires (s : State) (l : Fin 12) : Cascade s (s.wakeExpires l) := by
  unfold State.wakeExpires
  split
  · exact ((Cascade.modPort s l _).trans (.setPortState _ l _ _ _)).trans (.detect _ l)
  · exact .refl s

theorem Cascade.relayExpires (s : State) (l : Fin 12) : Cascade s (s.relayExpires l) := by
  unfold State.relayExpires
  dsimp only
  split
  · exact .endRelay s l _ _
  · exact .refl s

theorem Cascade.parkPort (s : State) (l : Fin 12) : Cascade s (s.parkPort l) := by
  unfold State.parkPort
  split
  · exact .refl s
  · exact .loseLink s l _ _ _ _

/-! ## Calibration requests -/

/-- R59. What CAL_LOAD does: nothing, or a segment holds a record that names no flat but a VALID one. -/
theorem State.calLoad_state (s : State) (segment mode skip level gain : Nat) (flat : Option Nat) (saturation : Nat)
    (defects : List (Nat × Nat × Nat × Nat)) :
    (s.calLoad segment mode skip level gain flat saturation defects).1 = s
    ∨ ∃ g r, (∀ i, r.flat = some i → (s.flat i).state = .valid)
        ∧ (s.calLoad segment mode skip level gain flat saturation defects).1
          = s.setSegCal g { s.segCal g with holding := some r } := by
  unfold State.calLoad
  split
  · split
    · exact .inl rfl
    · split
      · exact .inl rfl
      · dsimp only
        split
        · exact .inl rfl
        · rename_i accepted
          refine .inr ⟨_, _, fun i hi => ?_, rfl⟩
          dsimp only at hi
          by_contra invalid
          simp [State.calRefusal, hi, invalid] at accepted
  · exact .inl rfl

theorem Arming.calApply (s : State) (segments : BitVec 96) (when_ : Nat) : Arming s (s.calApply segments when_).1 := by
  have arm : ∀ b : Bool, Arming s (s.armAll (Machine.named segments) b) := fun b =>
    .foldl (fun s g => .setSegCal s g { s.segCal g with armed := b } fun _ h => h) _ s
  unfold State.calApply
  dsimp only
  split
  · exact .refl s
  · split
    · split
      · exact .refl s
      · split
        · exact .refl s
        · exact .foldl (fun s g => .setSegCal s g _ fun _ => SegCal.namesFlat_transfer) _ s
    · split
      · exact .refl s
      · exact arm true
    · exact arm false
    · exact .refl s

theorem State.calQuery_state (s : State) (segment : Nat) : (s.calQuery segment).1 = s := by
  unfold State.calQuery
  split <;> rfl

/-! ## The flat library -/

/-- R71, R73, R74. What FLAT_BEGIN, FLAT_END and FLAT_DROP do: nothing, or one entry changes that no record names or that is LOADING. -/
def State.FlatChange (s t : State) : Prop :=
  t = s ∨ ∃ i e, (s.flatNamed i = false ∨ (s.flat i).state = .loading) ∧ t = s.setFlat i e

theorem State.flatBegin_state (s : State) (index columns rows : Nat) (check : BitVec 32) :
    s.FlatChange (s.flatBegin index columns rows check).1 := by
  refine State.withFlat_state (P := s.FlatChange) index (.inl rfl) fun i => ?_
  simp only [apply_ite Prod.fst, State.done_state, State.refuse_state]
  split
  · exact .inl rfl
  · split
    · exact .inl rfl
    · rename_i named
      split
      · exact .inl rfl
      · exact .inr ⟨i, _, .inl (Bool.not_eq_true _ ▸ named), rfl⟩

theorem State.flatEnd_state (s : State) (index : Nat) : s.FlatChange (s.flatEnd index).1 := by
  refine State.withFlat_state (P := s.FlatChange) index (.inl rfl) fun i => ?_
  dsimp only
  split
  · exact .inl rfl
  · rename_i loading
    have loading := not_not.1 loading
    split
    · exact .inr ⟨i, _, .inr loading, rfl⟩
    · exact .inr ⟨i, _, .inr loading, rfl⟩

theorem State.flatDrop_state (s : State) (index : Nat) : s.FlatChange (s.flatDrop index).1 := by
  refine State.withFlat_state (P := s.FlatChange) index (.inl rfl) fun i => ?_
  simp only [apply_ite Prod.fst, State.done_state, State.refuse_state]
  split
  · exact .inl rfl
  · rename_i named
    exact .inr ⟨i, _, .inl (Bool.not_eq_true _ ▸ named), rfl⟩

theorem State.flatQuery_state (s : State) (index : Nat) : (s.flatQuery index).1 = s :=
  State.withFlat_state (P := (· = s)) index rfl fun _ => rfl

/-- R72. What FLAT_DATA does: nothing, or the handler becomes BUSY, with no answer due yet, and the first write is claimed. -/
theorem State.flatData_state (s : State) (tag : Byte) (index offset : Nat) (values : List Nat) :
    (s.flatData tag index offset values).1 = s
    ∨ (s.flatData tag index offset values).2 = none
      ∧ ∃ job, Cascade { s with host := { s.host with job := some job } } (s.flatData tag index offset values).1 := by
  unfold State.flatData State.withFlat
  split
  · dsimp only
    split
    · exact .inl rfl
    · split
      · exact .inl rfl
      · split
        · exact .inl rfl
        · split
          · exact .inl rfl
          · exact .inr ⟨rfl, _, (Cascade.claim _ _).trans (.grant _)⟩
  · exact .inl rfl

end Sys2Proof.Machine
end

section
/-!
PROOF. What a served request can do, once for all requests (`State.owner_change`), and the end of an event at the host link.
-/

namespace Sys2Proof.Machine

/-- What a request can do to the state, but for its answer. -/
inductive OwnerChange (s : State) : State → Option Result → Prop where
  /-- It sets off consequences. -/
  | cascade {t : State} {a : Option Result} (h : Cascade s t) : OwnerChange s t a
  /-- A free value is taken (log 4). -/
  | free {a : Option Result} (n : Nat) : OwnerChange s { s with freeIndex := n } a
  /-- A FREE slot is filled (R36). -/
  | opened {a : Option Result} (k : Fin 4) (m : Mode) (exposure scale lower upper attack decay quota nominal limit : Nat)
      (free : (s.slot k).state = .free) (tag : exposure ≠ 0) (fresh : s.slotOf exposure = none) (limits : lower ≤ upper) :
      OwnerChange s (s.setSlot k (openedSlot exposure m scale lower upper attack decay quota nominal limit)) a
  /-- A placement record enters a plan (R38). -/
  | planned {a : Option Result} (k : Fin 4) (p : Placement) (weight : 1 ≤ p.weight) :
      OwnerChange s (s.setSlot k { s.slot k with placements := insertPlacement p (s.slot k).placements }) a
  /-- A segment's holding record is replaced (R59). -/
  | loaded {a : Option Result} (g : Fin 96) (r : CalRec) (valid : ∀ i, r.flat = some i → (s.flat i).state = .valid) :
      OwnerChange s (s.setSegCal g { s.segCal g with holding := some r }) a
  /-- Segments transfer, or are armed or disarmed (R61, R62). -/
  | armed {t : State} {a : Option Result} (h : Arming s t) : OwnerChange s t a
  /-- A flat entry changes (R71, R73, R74). -/
  | flat {t : State} {a : Option Result} (h : s.FlatChange t) : OwnerChange s t a
  /-- The handler becomes BUSY (R72). -/
  | busy {t : State} (job : FlatJob) (h : Cascade { s with host := { s.host with job := some job } } t) : OwnerChange s t none
  /-- The blocks leave the other sources' sets among the consequences (R160, R162). -/
  | stopped {t u : State} {a : Option Result} (h : Cascade s t) (h' : Cascade (t.removeSource .blocks) u) : OwnerChange s u a
  /-- The store is parked (R171). -/
  | parked {t u : State} {a : Option Result} (h : Cascade s t)
      (h' : Cascade { t with store := { t.store with state := .parked, interval := false } } u) : OwnerChange s u a
  /-- The store begins to wake (R172). -/
  | waking {a : Option Result} : OwnerChange s { s with store := { s.store with state := .waking } } a
  /-- The notice mask is replaced (R180). -/
  | masked {a : Option Result} (mask : BitVec 13) : OwnerChange s { s with host := HostLink.movePending { s.host with mask := mask } } a
  /-- A general clear (R185). -/
  | cleared {a : Option Result} (tag : Option Byte) : OwnerChange s (s.generalClear tag) a

theorem OwnerChange.same {s t : State} {a : Option Result} (h : t = s) : OwnerChange s t a := .cascade (h ▸ .refl s)

/-- A reply reached by cases on what its state is. -/
theorem OwnerChange.of_eq {s t u : State} {a : Option Result} (h : OwnerChange s u a) (e : t = u) : OwnerChange s t a := e ▸ h

theorem OwnerChange.park (s : State) : OwnerChange s s.park.1 s.park.2 := by
  unfold State.park
  split
  · exact .same rfl
  · dsimp only [State.done]
    exact .parked ((Cascade.withdraw s .zeroing).trans (.withdraw _ .refresh)) (.foldl State.parkPort .parkPort allLinks _)

theorem OwnerChange.unpark (s : State) : OwnerChange s s.unpark.1 s.unpark.2 := by
  unfold State.unpark
  split
  · exact .waking
  · exact .same rfl

theorem OwnerChange.noticeMask (s : State) (mask : Nat) : OwnerChange s (s.noticeMask mask).1 (s.noticeMask mask).2 := by
  unfold State.noticeMask
  split
  · exact .same rfl
  · exact .masked _

theorem OwnerChange.drainHold (s : State) : OwnerChange s s.drainHold.1 s.drainHold.2 := by
  rcases s.drainHold_state with h | ⟨u, h, e⟩
  · exact .cascade h
  · exact .stopped h (e ▸ .refl _)

theorem OwnerChange.canvasAbandon (s : State) : OwnerChange s s.canvasAbandon.1 s.canvasAbandon.2 := by
  rcases s.canvasAbandon_state with h | ⟨u, hu, h⟩
  · exact .same h
  · rcases u.drainAbandon_state with hd | ⟨v, hv, e⟩
    · exact .cascade ((hu.trans hd).trans h)
    · exact .stopped (hu.trans hv) (e ▸ h)

/-- R177. What the owner of a request can do, over all requests. -/
theorem State.owner_change (s : State) (tag : Byte) (r : Request) : OwnerChange s (s.owner tag r).1 (s.owner tag r).2 := by
  cases r with
  | unknown k => exact .same rfl
  | badLength k => exact .same rfl
  | linkEnable link => exact .cascade (.linkEnable s link)
  | linkConfig link slots active rows overscan missing low high warm => exact .cascade (.linkConfig s ..)
  | linkDisable link => exact .cascade (.linkDisable s link)
  | linkReset link => exact .cascade (.linkReset s link)
  | linkQuery link => exact .same (s.linkQuery_state link)
  | hkRead link => exact .same (s.hkRead_state link)
  | relay link outgoing expected timeout => exact .cascade (.relayRequest s ..)
  | exposureOpen exposure mode initial lower upper attack decay quota nominal limit =>
    rcases s.exposureOpen_state exposure mode initial lower upper attack decay quota nominal limit with
      h | ⟨k, m, free, tag, fresh, limits, h⟩
    · exact .same h
    · exact .of_eq (.opened k m exposure _ lower upper attack decay quota nominal limit free tag fresh limits) h
  | planPlace exposure segment weight anchorX anchorY colX colY rowX rowY cells =>
    rcases s.planPlace_state exposure segment weight anchorX anchorY colX colY rowX rowY cells with h | ⟨k, p, weight, h⟩
    · exact .same h
    · exact .of_eq (.planned k p weight) h
  | planRef exposure refs => exact .cascade (.planRef s ..)
  | exposureCommit exposure => exact .cascade (.exposureCommit s exposure)
  | exposureAbandon exposure => exact .cascade (.exposureAbandon s exposure)
  | exposureQuery exposure =>
    obtain ⟨n, h⟩ := s.exposureQuery_state exposure
    exact .of_eq (.free n) h
  | calLoad segment mode skip level gain flat saturation defects =>
    rcases s.calLoad_state segment mode skip level gain flat saturation defects with h | ⟨g, r, valid, h⟩
    · exact .same h
    · exact .of_eq (.loaded g r valid) h
  | calApply segments when_ => exact .armed (.calApply s segments when_)
  | calQuery segment => exact .same (s.calQuery_state segment)
  | flatBegin index columns rows check => exact .flat (s.flatBegin_state index columns rows check)
  | flatData index offset values =>
    rcases s.flatData_state tag index offset values with h | ⟨none, job, h⟩
    · exact .same h
    · change OwnerChange s (s.flatData tag index offset values).1 (s.flatData tag index offset values).2
      rw [none]
      exact .busy job h
  | flatEnd index => exact .flat (s.flatEnd_state index)
  | flatDrop index => exact .flat (s.flatDrop_state index)
  | flatQuery index => exact .same (s.flatQuery_state index)
  | storeQuery => exact .same rfl
  | scaleSet exposure value => exact .cascade (.scaleSet s exposure value)
  | canvasOpen width height order => exact .cascade (.canvasOpen s width height order)
  | canvasClose => exact .cascade (.canvasClose s)
  | cellRelease cell => exact .cascade (.cellRelease s cell)
  | cellQuery cell => exact .same (s.cellQuery_state cell)
  | canvasAbandon => exact .canvasAbandon s
  | drainHold => exact .drainHold s
  | drainResume => exact .cascade (.drainResume s)
  | park => exact .park s
  | unpark => exact .unpark s
  | status => exact .same rfl
  | noticeMask mask => exact .noticeMask s mask
  | clear =>
    have e : s.owner tag .clear = (s.generalClear (some tag), none) := by rw [State.owner]
    rw [e]
    dsimp only
    exact .cleared (some tag)

/-- R177. The handler's own checks come first, and change nothing. -/
theorem State.reply_change (s : State) (tag : Byte) (r : Request) : OwnerChange s (s.reply tag r).1 (s.reply tag r).2 := by
  unfold State.reply
  split
  · exact .same rfl
  · split
    · exact .same rfl
    · exact s.owner_change tag r

end Sys2Proof.Machine
end

section
/-!
PROOF. The memory laws (R132, R32, R113): every step keeps them.
-/

namespace Sys2Proof.Machine

/-! ## What keeps the laws -/

/-- The laws of the store's contents, and of the weights on which they rest. -/
def State.MemoryLaws (s : State) : Prop := s.mem.wf = true ∧ s.mem.PixelLaw ∧ s.WeightsPositive

/-- An update that leaves the contents, the plans and the tile being placed as they are. -/
theorem State.MemoryLaws.of_eq {s t : State} (h : s.MemoryLaws) (mem : t.mem = s.mem) (slots : t.slots = s.slots)
    (place : t.place = s.place) : t.MemoryLaws := by
  obtain ⟨wf, pixels, plans, weight⟩ := h
  refine ⟨mem ▸ wf, mem ▸ pixels, fun k p hp => plans k p ?_, place ▸ weight⟩
  simpa only [State.slot, slots] using hp

theorem Cascade.memoryLaws {s t : State} (c : Cascade s t) (h : s.MemoryLaws) : t.MemoryLaws := by
  obtain ⟨wf, pixels, weights⟩ := h
  exact ⟨c.mem ▸ wf, c.mem ▸ pixels, c.weights weights⟩

theorem Arming.memoryLaws {s t : State} (c : Arming s t) (h : s.MemoryLaws) : t.MemoryLaws :=
  c.rest.memoryLaws (h.of_eq rfl rfl rfl)

/-- The contents of the store change to others that keep the laws. -/
theorem State.MemoryLaws.setMem {s : State} (h : s.MemoryLaws) {m : Memory} (wf : m.wf = true) (pixels : m.PixelLaw) :
    State.MemoryLaws { s with mem := m } := by
  obtain ⟨_, _, weights⟩ := h
  exact ⟨wf, pixels, weights⟩

/-- One slot changes to one whose placements weigh 1/16 or more. -/
theorem State.MemoryLaws.setSlot {s : State} (h : s.MemoryLaws) (k : Fin 4) (x : ExpSlot) (hx : ∀ p ∈ x.placements, 1 ≤ p.weight) :
    (s.setSlot k x).MemoryLaws := by
  obtain ⟨wf, pixels, plans, weight⟩ := h
  refine ⟨wf, pixels, fun j p hp => ?_, weight⟩
  rw [State.slot_setSlot] at hp
  split at hp
  · exact hx p hp
  · exact plans j p hp

/-- No slot holds a plan, no tile is placed, and the contents stand. -/
theorem State.MemoryLaws.emptied {s t : State} (h : s.MemoryLaws) (mem : t.mem = s.mem) (slots : t.slots = State.reset.slots)
    (place : t.place = none) : t.MemoryLaws := by
  obtain ⟨wf, pixels, _⟩ := h
  refine ⟨mem ▸ wf, mem ▸ pixels, fun k p hp => ?_, fun ctx hctx => ?_⟩
  · have empty : t.slot k = .empty := by simp [State.slot, slots, State.reset]
    rw [empty] at hp
    exact absurd hp List.not_mem_nil
  · rw [place] at hctx
    cases hctx

theorem State.generalClear_memoryLaws {s : State} (h : s.MemoryLaws) (tag : Option Byte) : (s.generalClear tag).MemoryLaws := by
  have cleared : s.clearBlocks.MemoryLaws := h.emptied rfl rfl rfl
  have detected := Cascade.foldl _ Cascade.detect allLinks
    (s.clearBlocks.raise .clearDone (clearContent tag s.clearBlocks.store.state))
  exact (((Cascade.raise _ _ _).trans detected).trans (.grant _)).memoryLaws cleared

/-! ## Requests and the end of an event -/

theorem OwnerChange.memoryLaws {s t : State} {a : Option Result} (c : OwnerChange s t a) (h : s.MemoryLaws) : t.MemoryLaws := by
  cases c with
  | cascade c => exact c.memoryLaws h
  | free n => exact h.of_eq rfl rfl rfl
  | opened k m exposure scale lower upper attack decay quota nominal limit free tag fresh limits =>
    exact h.setSlot k _ fun p hp => absurd hp List.not_mem_nil
  | planned k p weight =>
    refine h.setSlot k _ fun q hq => ?_
    obtain ⟨_, _, plans, _⟩ := h
    rcases mem_insertPlacement hq with rfl | hq
    · exact weight
    · exact plans k q hq
  | loaded g r valid => exact h.of_eq rfl rfl rfl
  | armed c => exact c.memoryLaws h
  | flat c =>
    rcases c with rfl | ⟨i, e, _, rfl⟩
    · exact h
    · exact h.of_eq rfl rfl rfl
  | busy job c => exact c.memoryLaws (h.of_eq rfl rfl rfl)
  | stopped c c' => exact c'.memoryLaws ((c.memoryLaws h).of_eq rfl rfl rfl)
  | parked c c' => exact c'.memoryLaws ((c.memoryLaws h).of_eq rfl rfl rfl)
  | waking => exact h.of_eq rfl rfl rfl
  | masked mask => exact h.of_eq rfl rfl rfl
  | cleared tag => exact State.generalClear_memoryLaws h tag

/-- A law of states that every request keeps, and that does not speak of the host link, is kept by the request handler. -/
theorem State.handlerRun_of {P : State → Prop} (reply : ∀ s tag r, P s → P (s.reply tag r).1)
    (host : ∀ s h, P s → P { s with host := h }) (s : State) (h : P s) : P s.handlerRun := by
  unfold State.handlerRun
  generalize s.host.requests.length = n
  induction n generalizing s with
  | zero => exact h
  | succ n ih =>
    unfold State.handlerLoop
    split
    · exact h
    · rename_i tag r rest _
      split
      · refine ih _ ?_
        have served := reply _ tag r (host s { s.host with requests := rest } h)
        unfold State.serve
        dsimp only
        split
        · exact host _ _ served
        · exact served
      · exact h

/-- A law of states that every request and every outbound grant keeps, and that does not speak of the host link, is kept by the
end of an event. -/
theorem State.pump_of {P : State → Prop} (reply : ∀ s tag r, P s → P (s.reply tag r).1)
    (host : ∀ s h, P s → P { s with host := h }) (grant : ∀ s, P s → P s.outboundGrant) (s : State) (h : P s) : P s.pump :=
  State.handlerRun_of reply host _ (grant _ (State.handlerRun_of reply host _ h))

theorem Outbound.memoryLaws {s t : State} (c : Outbound s t) (h : s.MemoryLaws) : t.MemoryLaws :=
  h.of_eq (congrArg State.mem c.rest :) (congrArg State.slots c.rest :) (congrArg State.place c.rest :)

theorem State.pump_memoryLaws {s : State} (h : s.MemoryLaws) : s.pump.MemoryLaws :=
  State.pump_of (fun s tag r h => (s.reply_change tag r).memoryLaws h) (fun _ _ h => h.of_eq rfl rfl rfl)
    (fun s h => (Outbound.outboundGrant s).memoryLaws h) s h

/-- The end of an event that may have made claims. -/
theorem State.MemoryLaws.settled {s : State} (h : s.MemoryLaws) : s.settle.pump.MemoryLaws :=
  State.pump_memoryLaws ((Cascade.settle s).memoryLaws h)

theorem State.arrive_memoryLaws {s : State} (h : s.MemoryLaws) (tag : Byte) (r : Request) : (s.arrive tag r).MemoryLaws := by
  unfold State.arrive
  split
  · exact State.pump_memoryLaws (h.of_eq rfl rfl rfl)
  · exact State.pump_memoryLaws (h.of_eq rfl rfl rfl)

/-! ## Rows placed -/

/-- R118. Judging a pixel changes the contents, the tiles and the cells alone. -/
theorem State.judgePixel_rest (ctx : PlaceCtx) (s : State) (col : Nat) :
    { s.judgePixel ctx col with mem := s.mem, tiles := s.tiles, canvas := s.canvas } = s
    ∧ { (s.judgePixel ctx col).canvas with cells := s.canvas.cells } = s.canvas
    ∧ (s.judgePixel ctx col).canvas.cells.length = s.canvas.cells.length := by
  unfold State.judgePixel
  split
  · exact ⟨rfl, rfl, rfl⟩
  · split
    · exact ⟨rfl, rfl, rfl⟩
    · split
      · split
        · exact ⟨rfl, rfl, rfl⟩
        · split
          · exact ⟨rfl, rfl, rfl⟩
          · exact ⟨rfl, rfl, List.length_set⟩
      · exact ⟨rfl, rfl, rfl⟩

theorem State.judgeRow_rest (ctx : PlaceCtx) (s : State) :
    { s.judgeRow ctx with mem := s.mem, tiles := s.tiles, canvas := s.canvas } = s
    ∧ { (s.judgeRow ctx).canvas with cells := s.canvas.cells } = s.canvas
    ∧ (s.judgeRow ctx).canvas.cells.length = s.canvas.cells.length := by
  unfold State.judgeRow
  generalize List.range _ = cols
  induction cols generalizing s with
  | nil => exact ⟨rfl, rfl, rfl⟩
  | cons col cols ih =>
    obtain ⟨rest, grid, length⟩ := ih (s.judgePixel ctx col)
    obtain ⟨rest', grid', length'⟩ := s.judgePixel_rest ctx col
    rw [List.foldl_cons]
    refine ⟨?_, ?_, length.trans length'⟩
    · exact (congrArg (fun x : State => ({ x with mem := s.mem, tiles := s.tiles, canvas := s.canvas } : State)) rest).trans rest'
    · exact (congrArg (fun x : Canvas => ({ x with cells := s.canvas.cells } : Canvas)) grid).trans grid'

/-- R118. What a completed row does, once its pixels are judged. -/
theorem State.rowDone_change (s : State) (ctx : PlaceCtx) (place : s.place = some ctx) : Cascade (s.judgeRow ctx) (s.rowDone ctx) := by
  obtain ⟨rest, _⟩ := s.judgeRow_rest ctx
  have placing : (s.judgeRow ctx).place = some ctx := Eq.trans (congrArg State.place rest :) place
  unfold State.rowDone
  dsimp only
  refine .trans ?_ (.take _)
  split
  · exact (Cascade.modTile _ _ _).trans (.stopTile _ _)
  · refine (Cascade.modTile _ _ _).trans (.nextRow _ ctx _ fun weights => ?_)
    obtain ⟨_, weight⟩ := weights
    exact weight ctx placing

/-! ## Canvas pixels -/

theorem Memory.PixelLaw.setCanvasPixel {m : Memory} (wf : m.wf = true) (h : m.PixelLaw) (cell place : Nat) {p : CanvasPixel}
    (hp : p.Law) : (m.setCanvasPixel cell place p).PixelLaw := by
  intro key
  simp only [Memory.wf, Bool.and_eq_true] at wf
  obtain ⟨⟨_, cells⟩, _⟩ := wf
  rw [Memory.setCanvasPixel, Region.read_write _ _ _ _ _ cells]
  split
  · exact hp
  · exact h key

theorem Memory.PixelLaw.zeroCell {m : Memory} (h : m.PixelLaw) (cell : Nat) : (m.zeroCell cell).PixelLaw := by
  intro key
  rw [Memory.zeroCell, Region.read_clear]
  split
  · exact Iff.rfl
  · exact h key

/-- R119. A value of positive weight raises the weight sum, unless that stands at its ceiling, and it raises the count, unless that
stands at 255: neither is 0 after it. -/
theorem CanvasPixel.add_law (p : CanvasPixel) (v : F32) (scale : Nat) {e : Nat} (he : 1 ≤ e) (warm nominal : Bool) :
    (p.add v scale e warm nominal).Law := by
  have weight : p.weight + min e (Config.weightCeiling - p.weight) ≠ 0 := by
    simp only [Config.weightCeiling]
    omega
  have count : 0 < satAdd Config.sat8 p.count 1 := by
    unfold satAdd
    split
    · exact Nat.succ_pos _
    · decide
  exact iff_of_false weight count.ne'

theorem CanvasPixel.Law.mark {p : CanvasPixel} (h : p.Law) {ctx : PlaceCtx} (weight : 1 ≤ ctx.weight) (px : CalPixel) :
    (ctx.mark px p).Law := by
  cases px with
  | value v => exact p.add_law v ctx.scale weight ctx.warm ctx.nominal
  | flagged d st => exact h

theorem State.judgePixel_memoryLaws (ctx : PlaceCtx) (weight : 1 ≤ ctx.weight) {s : State} (h : s.MemoryLaws) (col : Nat) :
    (s.judgePixel ctx col).MemoryLaws := by
  have late : ∀ u : State, u.MemoryLaws → (u.lateInTile ctx.tile).MemoryLaws := fun u hu => hu.of_eq rfl rfl rfl
  have spill : (s.spillInTile ctx.tile).MemoryLaws := h.of_eq rfl rfl rfl
  unfold State.judgePixel
  split
  · exact late s h
  · split
    · exact spill
    · split
      · split
        · exact late s h
        · split
          · have ⟨wf, pixels, _⟩ := h
            exact h.setMem (Memory.setCanvasPixel_wf _ _ _ _ wf) (pixels.setCanvasPixel wf _ _ (CanvasPixel.Law.mark (pixels _) weight _))
          · exact late _ (h.of_eq rfl rfl rfl)
      · exact spill

theorem State.judgeRow_memoryLaws (ctx : PlaceCtx) (weight : 1 ≤ ctx.weight) {s : State} (h : s.MemoryLaws) :
    (s.judgeRow ctx).MemoryLaws := by
  unfold State.judgeRow
  generalize List.range _ = cols
  induction cols generalizing s with
  | nil => exact h
  | cons col cols ih => exact ih (s.judgePixel_memoryLaws ctx weight h col)

theorem State.rowDone_memoryLaws {s : State} (h : s.MemoryLaws) {ctx : PlaceCtx} (place : s.place = some ctx) :
    (s.rowDone ctx).MemoryLaws := by
  have ⟨_, _, _, weight⟩ := h
  exact (s.rowDone_change ctx place).memoryLaws (State.judgeRow_memoryLaws ctx (weight ctx place) h)

/-! ## Accesses -/

theorem State.writeRow_rest (s : State) (l : Fin 12) :
    { s.writeRow l with ports := s.ports, tiles := s.tiles, mem := s.mem } = s := by
  unfold State.writeRow
  split
  · split
    · dsimp only
      split
      · rfl
      · split <;> rfl
    · rfl
  · rfl

theorem State.writeRow_memoryLaws {s : State} (h : s.MemoryLaws) (l : Fin 12) : (s.writeRow l).MemoryLaws := by
  unfold State.writeRow
  split
  · rename_i b rest _
    split
    · rename_i sr more _
      dsimp only
      generalize hu : s.setBuffer l (.row { b with slots := more } :: rest) = u
      have taken : u.MemoryLaws := by subst hu; exact h.of_eq rfl rfl rfl
      split
      · exact taken
      · split
        · exact taken
        · have ⟨wf, pixels, _⟩ := taken
          exact (taken.setMem (Memory.setTileRow_wf _ _ _ _ wf) pixels).of_eq rfl rfl rfl
    · exact h
  · exact h

theorem State.zeroed_memoryLaws {s : State} (h : s.MemoryLaws) : s.zeroed.MemoryLaws := by
  unfold State.zeroed
  split
  · exact h
  · rename_i i rest _
    have ⟨wf, pixels, _⟩ := h
    have cleared : State.MemoryLaws { s.freeStore with
        mem := s.mem.zeroCell i, store := { s.freeStore.store with zeroQueue := rest } } :=
      (h.setMem (Memory.zeroCell_wf _ i wf) (pixels.zeroCell i)).of_eq rfl rfl rfl
    have waits : ∀ u : State, Cascade u ((u.cellZeroed i).leaveWait i) := fun u => (Cascade.cellZeroed u i).trans (.leaveWait _ i)
    dsimp only
    split
    · exact ((waits _).trans (.settle _)).memoryLaws cleared
    · exact (((waits _).trans (.claim _ _)).trans (.settle _)).memoryLaws cleared

/-- R72. The end of a FLAT_DATA changes its entry and the host link alone. -/
theorem State.flatJobDone_rest (s : State) (j : FlatJob) : { s.flatJobDone j with flats := s.flats, host := s.host } = s := by
  unfold State.flatJobDone State.queueAnswer State.setFlat
  rfl

theorem State.flatRunDone_memoryLaws {s : State} (h : s.MemoryLaws) : s.flatRunDone.MemoryLaws := by
  unfold State.flatRunDone
  split
  · exact h
  · split
    · exact h
    · rename_i j _ _ place vs rest _
      have ⟨wf, pixels, _⟩ := h
      have written : State.MemoryLaws { s with mem := s.mem.setFlatRun j.index place vs } :=
        h.setMem (Memory.setFlatRun_wf _ _ _ _ wf) pixels
      dsimp only
      split
      · have rest := State.flatJobDone_rest { s with mem := s.mem.setFlatRun j.index place vs } j
        exact written.of_eq (congrArg State.mem rest :) (congrArg State.slots rest :) (congrArg State.place rest :)
      · exact (Cascade.claim _ _).memoryLaws (written.of_eq rfl rfl rfl)

theorem Cascade.boxDone (s : State) (l : Fin 12) : Cascade s (s.boxDone l) := by
  unfold State.boxDone
  split
  · exact .refl s
  · split
    · dsimp only
      split
      · exact (((Cascade.freeStore s).trans (.setMeasure _ l _)).trans (.claim _ _)).trans (.grant _)
      · split
        · exact .freeStore s
        · refine .trans (.trans (.trans ?_ (.recordRef _ _ _ _ _ _)) (.resumeLink _ l)) (.settle _)
          exact (Cascade.freeStore s).trans (.setMeasure _ l _)
    · exact .refl s

theorem Cascade.drainReadDone (s : State) : Cascade s s.drainReadDone := by
  unfold State.drainReadDone
  split
  · exact .setDrain s _
  · split <;> exact .setDrain s _

theorem Cascade.cellEmitted (s : State) : Cascade s s.cellEmitted := by
  unfold State.cellEmitted
  dsimp only
  split
  · exact ((Cascade.setCell s _ _).trans (.setDrain _ _)).trans (.finishTest _)
  · exact (Cascade.setDrain s _).trans (.finishTest _)

theorem Cascade.blockEmitted (s : State) : Cascade s s.blockEmitted := by
  unfold State.blockEmitted
  dsimp only
  split
  · exact .setDrain s _
  · split
    · exact .cellEmitted s
    · split
      · exact .setDrain s _
      · exact (Cascade.setDrain s _).trans (.claim _ _)

/-- R165. Entry to READY: the store's state and interval change, and the rest are consequences. -/
theorem State.enterReady_change (s : State) (wake : Bool) :
    Cascade { s with store := { s.store with state := .ready, interval := true } } (s.enterReady wake) := by
  unfold State.enterReady
  dsimp only
  refine .trans (.trans (.trans ?_ (.grant _)) (.foldl _ .detect allLinks _)) (.settle _)
  split
  · exact .raise _ _ _
  · exact (Cascade.raise _ _ _).trans (.claim _ _)

end Sys2Proof.Machine
end

section
/-!
PROOF. What a step can do, once for all commands (`exec_change`); and that every step keeps the memory laws.
-/

namespace Sys2Proof.Machine

/-! ## What a step can do -/

/-- What a command can do to the state. -/
inductive StepChange (s : State) : State → Prop where
  | idle : StepChange s s
  /-- POWER_ON (R166). -/
  | powerOn : StepChange s { State.reset with
      ports := s.ports.map fun p => { Port.reset with signal := p.signal }, freeIndex := s.freeIndex, pending := s.pending }
  /-- A request arrives (R175). -/
  | arrived (tag : Byte) (r : Request) : StepChange s (s.arrive tag r)
  /-- Bytes of the line arrive (R174). -/
  | bytes (bytes : List Byte) : StepChange s (s.rxBytes bytes)
  /-- An event sets off consequences, with a grant of the memory arbiter and no more at its end. -/
  | granted {t : State} (h : Cascade s t) : StepChange s t
  /-- An event sets off consequences, and the host link acts at its end. -/
  | cascade {t : State} (h : Cascade s t) : StepChange s t.pump
  /-- Readout starts are taken among the consequences (R63). -/
  | armed {t : State} (h : Arming s t) : StepChange s t.pump
  /-- A row of a tile is written (R81). -/
  | written {t : State} (l : Fin 12) (h : Cascade (s.freeStore.writeRow l) t) : StepChange s t.pump
  /-- A row of a tile is placed (R118). -/
  | placed {t : State} (ctx : PlaceCtx) (place : s.place = some ctx) (h : Cascade (s.freeStore.rowDone ctx) t) : StepChange s t.pump
  /-- A cell's area is zeroed (R134). -/
  | zeroed : StepChange s s.zeroed.pump
  /-- A run of flat values is written (R72). -/
  | flatRun : StepChange s s.freeStore.flatRunDone.grant.pump
  /-- A refresh is paid (R169). -/
  | refreshed : StepChange s s.refreshed
  /-- The refresh interval expires (R169). -/
  | interval : StepChange s s.refreshExpiry.pump
  /-- The store becomes READY (R165). -/
  | ready {t : State} (h : Cascade { s with store := { s.store with state := .ready, interval := true } } t) : StepChange s t.pump
  /-- The clear sequence has come whole (R176). -/
  | cleared : StepChange s (State.generalClear { s with host := { s.host with rx := .hunting } } none).pump
  /-- The outbound arbiter grants (R182). -/
  | served : StepChange s s.outboundGrant.handlerRun
  /-- A message has left the line (R182). -/
  | sent {t : State} (h : Cascade { s with host := { s.host with line := none } } t) : StepChange s t.pump
  /-- Pending entries move (R181). -/
  | moved : StepChange s s.movePending.pump

/-- A request command is the arrival of the request it brings; an unknown kind that names a request is no command at all. -/
theorem exec_request {c : Instr} {tag : Byte} {r : Request} (h : requestOf c = some (tag, r)) (s : State) :
    exec c s = .next (s.arrive tag r) ∨ ∃ kind, r = .unknown kind ∧ namesRequest kind = true ∧ exec c s = .next s := by
  cases c with
  | unknownKind tag kind =>
    cases h
    by_cases hk : namesRequest kind = true
    · exact .inr ⟨kind, rfl, hk, if_pos hk⟩
    · exact .inl (if_neg hk)
  | _ =>
    cases h
    try exact .inl rfl

theorem execIntakeRowWriteDone_change {s t : State} (h : execIntakeRowWriteDone s = .next t) : StepChange s t := by
  unfold execIntakeRowWriteDone at h
  split at h
  · cases h
    exact .written _ ((Cascade.resumeLink _ _).trans (.settle _))
  · cases h
    exact .idle

theorem execReferenceBoxReadDone_change {s t : State} (h : execReferenceBoxReadDone s = .next t) : StepChange s t := by
  unfold execReferenceBoxReadDone at h
  split at h
  · cases h
    exact .cascade (.boxDone s _)
  · cases h
    exact .idle

theorem execPlacementRowDone_change {s t : State} (h : execPlacementRowDone s = .next t) : StepChange s t := by
  unfold execPlacementRowDone at h
  split at h
  · rename_i ctx place
    split at h
    · cases h
      exact .placed ctx place (.settle _)
    · cases h
      exact .idle
  · cases h
    exact .idle

theorem execPictureBlockEmitted_change {s t : State} (h : execPictureBlockEmitted s = .next t) : StepChange s t := by
  unfold execPictureBlockEmitted at h
  split at h
  · dsimp only at h
    split at h
    · cases h
      exact .sent ((Cascade.blockEmitted _).trans (.settle _))
    · cases h
      exact .sent (.refl _)
  · cases h
    exact .idle

theorem execMessageSent_change {s t : State} (h : execMessageSent s = .next t) : StepChange s t := by
  unfold execMessageSent at h
  split at h
  · cases h
    exact .sent (.refl _)
  · cases h
    exact .sent (.refl _)
  · cases h
    exact .idle

theorem StepChange.of_next {s x t : State} (h : (.next x : Answered) = .next t) (c : StepChange s x) : StepChange s t :=
  Host.Outcome.next.inj h ▸ c

/-- What an event can do; a request command is answered by `exec_request`. -/
theorem exec_event_change {c : Instr} (hc : requestOf c = none) {s t : State} (h : exec c s = .next t) : StepChange s t := by
  cases c with
  | powerOn => exact .of_next h (.powerOn)
  | signalDetect link => exact .of_next h (.cascade (.signalFound s link))
  | signalLoss link => exact .of_next h (.cascade ((Cascade.signalGone s link).trans (.settle _)))
  | wakeLimitExpiry link => exact .of_next h (.cascade (.wakeExpires s link))
  | cameraFrame link rising bytes =>
    exact .of_next h (.armed ((Arming.frameArrives s link rising bytes).trans (Cascade.settle _).arming))
  | relayTimeout link => exact .of_next h (.cascade (.relayExpires s link))
  | readoutStart link => exact .of_next h (.armed ((Arming.readoutStart s link).trans (Cascade.settle _).arming))
  | readoutEnd link =>
    refine .of_next h ?_
    show StepChange s (if (s.port link).endAtHead then (s.intakeRun link).settle.pump else s)
    split
    · exact .cascade ((Cascade.intakeRun s link).trans (.settle _))
    · exact .idle
  | intakeRowWriteDone => exact execIntakeRowWriteDone_change h
  | referenceBoxReadDone => exact execReferenceBoxReadDone_change h
  | tileTake => exact .of_next h (.cascade ((Cascade.take s).trans (.settle _)))
  | placementRowDone => exact execPlacementRowDone_change h
  | readoutLimitExpiry slot => exact .of_next h (.cascade (.limitExpiry s slot))
  | drainTake => exact .of_next h (.cascade (.settle s))
  | drainBlockReadDone =>
    change (if s.store.access = some .drainRead then Host.Outcome.next s.freeStore.drainReadDone.settle.pump else .next s) = .next t at h
    split at h <;> cases h
    · exact .cascade (((Cascade.freeStore s).trans (.drainReadDone _)).trans (.settle _))
    · exact .idle
  | pictureBlockEmitted => exact execPictureBlockEmitted_change h
  | zeroingDone =>
    change (if s.store.access = some .zeroing then Host.Outcome.next s.zeroed.pump else .next s) = .next t at h
    split at h <;> cases h
    · exact .zeroed
    · exact .idle
  | flatDataWriteDone =>
    change (if s.store.access = some .flatWrite then Host.Outcome.next s.freeStore.flatRunDone.grant.pump else .next s) = .next t at h
    split at h <;> cases h
    · exact .flatRun
    · exact .idle
  | refreshDone => exact .of_next h (.refreshed)
  | refreshIntervalExpiry => exact .of_next h (.interval)
  | initComplete =>
    refine .of_next h ?_
    show StepChange s (State.pump (if s.store.state = .initialising then s.enterReady false else s))
    split
    · exact .ready (s.enterReady_change false)
    · exact .cascade (.refl s)
  | wakeComplete =>
    refine .of_next h ?_
    show StepChange s (State.pump (if s.store.state = .waking then s.enterReady true else s))
    split
    · exact .ready (s.enterReady_change true)
    · exact .cascade (.refl s)
  | memoryGrant => exact .of_next h (.granted (.grant s))
  | hostFrame bytes => exact .of_next h (.bytes bytes)
  | clearSequence =>
    exact .of_next (x := (State.generalClear { s with host := { s.host with rx := .hunting } } none).pump) h .cleared
  | outboundGrant => exact .of_next h (.served)
  | messageSent => exact execMessageSent_change h
  | pendingMove => exact .of_next h (.moved)
  | hostFrameDiscard bytes => exact .of_next h (.bytes bytes)
  | _ => cases hc

/-- What a command can do, over all commands. -/
theorem exec_change {c : Instr} {s t : State} (h : exec c s = .next t) : StepChange s t := by
  cases hc : requestOf c with
  | none => exact exec_event_change hc h
  | some e =>
    rcases exec_request hc s with hr | ⟨_, _, _, hr⟩
    · cases hr.symm.trans h
      exact .arrived e.1 e.2
    · cases hr.symm.trans h
      exact .idle

/-- A law is kept by every step, where it does not speak of the queue of commands and every command keeps it. -/
theorem Kept.of_exec {P : State → Prop} (queue : ∀ s rest, P s → P { s with pending := rest })
    (exec : ∀ s t, P s → StepChange s t → P t) : Kept P := by
  intro s t h hs
  unfold step at hs
  split at hs
  · cases hs
    exact h
  · exact exec _ t (queue s _ h) (exec_change hs)

/-! ## The memory laws -/

theorem State.rxEvent_memoryLaws {s : State} (h : s.MemoryLaws) (e : RxEvent) : (s.rxEvent e).MemoryLaws := by
  cases e with
  | body bytes =>
    show (match frameCheck bytes s.host.requests.length with
      | .error cause => s.lineError cause
      | .ok (kind, tag, payload) =>
        { s with host := { s.host with requests := s.host.requests ++ [(tag, readRequest kind payload)] } } : State).MemoryLaws
    split <;> exact h.of_eq rfl rfl rfl
  | discard cause => exact h.of_eq rfl rfl rfl
  | clearSequence => exact State.generalClear_memoryLaws h none

theorem State.rxByte_memoryLaws {s : State} (h : s.MemoryLaws) (b : Byte) : (s.rxByte b).MemoryLaws := by
  have received : ∀ rx, State.MemoryLaws { s with host := { s.host with rx := rx } } := fun _ => h.of_eq rfl rfl rfl
  unfold State.rxByte
  dsimp only
  split
  · exact received _
  · exact State.pump_memoryLaws (State.rxEvent_memoryLaws (received _) _)

theorem State.rxBytes_memoryLaws (bytes : List Byte) {s : State} (h : s.MemoryLaws) : (s.rxBytes bytes).MemoryLaws := by
  unfold State.rxBytes
  induction bytes generalizing s with
  | nil => exact h
  | cons b bytes ih => exact ih (s.rxByte_memoryLaws h b)

/-- R132 and R119 at power-on: nothing is listed, so nothing breaks the law. -/
theorem State.reset_memoryLaws : State.reset.MemoryLaws := by
  refine ⟨rfl, fun _ => Iff.rfl, fun k p hp => ?_, fun ctx hctx => nomatch hctx⟩
  have empty : State.reset.slot k = .empty := by simp [State.slot, State.reset]
  rw [empty] at hp
  exact absurd hp List.not_mem_nil

theorem State.refreshed_memoryLaws {s : State} (h : s.MemoryLaws) : s.refreshed.MemoryLaws := by
  unfold State.refreshed
  split
  · exact (Cascade.grant _).memoryLaws (h.of_eq rfl rfl rfl)
  · exact h

theorem State.refreshExpiry_memoryLaws {s : State} (h : s.MemoryLaws) : s.refreshExpiry.MemoryLaws := by
  unfold State.refreshExpiry
  split
  · split
    · exact (Cascade.grant _).memoryLaws (h.of_eq rfl rfl rfl)
    · exact h.of_eq rfl rfl rfl
  · exact h

theorem StepChange.memoryLaws {s t : State} (c : StepChange s t) (h : s.MemoryLaws) : t.MemoryLaws := by
  have freed : s.freeStore.MemoryLaws := h.of_eq rfl rfl rfl
  have handled : ∀ u : State, u.MemoryLaws → u.handlerRun.MemoryLaws := fun u hu =>
    State.handlerRun_of (fun s tag r h => (s.reply_change tag r).memoryLaws h) (fun _ _ h => h.of_eq rfl rfl rfl) u hu
  cases c with
  | idle => exact h
  | powerOn => exact State.reset_memoryLaws.of_eq rfl rfl rfl
  | arrived tag r => exact State.arrive_memoryLaws h tag r
  | bytes bytes => exact State.rxBytes_memoryLaws bytes h
  | granted c => exact c.memoryLaws h
  | cascade c => exact State.pump_memoryLaws (c.memoryLaws h)
  | armed c => exact State.pump_memoryLaws (c.memoryLaws h)
  | written l c => exact State.pump_memoryLaws (c.memoryLaws (State.writeRow_memoryLaws freed l))
  | placed ctx place c => exact State.pump_memoryLaws (c.memoryLaws (State.rowDone_memoryLaws freed place))
  | zeroed => exact State.pump_memoryLaws (State.zeroed_memoryLaws h)
  | flatRun => exact State.pump_memoryLaws ((Cascade.grant _).memoryLaws (State.flatRunDone_memoryLaws freed))
  | refreshed => exact State.refreshed_memoryLaws h
  | interval => exact State.pump_memoryLaws (State.refreshExpiry_memoryLaws h)
  | ready c => exact State.pump_memoryLaws (c.memoryLaws (h.of_eq rfl rfl rfl))
  | cleared =>
    have hunting : State.MemoryLaws { s with host := { s.host with rx := .hunting } } := h.of_eq rfl rfl rfl
    exact State.pump_memoryLaws (State.generalClear_memoryLaws hunting none)
  | served => exact handled _ ((Outbound.outboundGrant s).memoryLaws h)
  | sent c => exact State.pump_memoryLaws (c.memoryLaws (h.of_eq rfl rfl rfl))
  | moved =>
    refine State.pump_memoryLaws (h.of_eq ?_ ?_ ?_) <;> rw [State.movePending]

/-- Settles O57: a step changes the contents in its accesses alone, each of which keeps the canonical form; and a value is placed
with a positive weight, so that it raises the weight sum and the count together. -/
theorem stepsKeepTheMemoryLaws : Obligations.StepsKeepTheMemoryLaws :=
  Kept.of_exec (P := State.MemoryLaws) (fun _ _ h => h.of_eq rfl rfl rfl) fun _ _ h c => c.memoryLaws h

end Sys2Proof.Machine
end

section
/-!
PROOF. The laws of the host link's queues (R175, R178, R179, R182) and the owed bound (R169): every step keeps them.
-/

namespace Sys2Proof.Machine

/-! ## Moves of pending entries (R181) -/

theorem HostLink.takes_iff {h : HostLink} {k : NoticeKind} :
    h.takes k = true ↔ h.masked k = false ∧ h.notices.length < Config.noticeRoom := by
  simp [HostLink.takes]

/-- R181. One kind's move: nothing, or its entry joins the queue and ceases. -/
theorem HostLink.moveKind_spec (h : HostLink) (k : NoticeKind) :
    (h.moveKind k = h ∧ (h.takes k = true → h.pendingOf k = none))
    ∨ ∃ p, h.pendingOf k = some p ∧ h.takes k = true
        ∧ h.moveKind k = { h.setPending k none with notices := h.notices ++ [⟨k, p.content, p.folded⟩] } := by
  unfold HostLink.moveKind
  split
  · rename_i absent
    exact .inl ⟨rfl, fun _ => absent⟩
  · rename_i p pending
    split
    · exact .inr ⟨p, pending, ‹_›, rfl⟩
    · exact .inl ⟨rfl, fun takes => absurd takes ‹_›⟩

theorem HostLink.moveKind_notices {h : HostLink} (k : NoticeKind) (room : h.notices.length ≤ Config.noticeRoom) :
    (h.moveKind k).notices.length ≤ Config.noticeRoom := by
  rcases h.moveKind_spec k with ⟨e, _⟩ | ⟨p, _, takes, e⟩ <;> rw [e]
  · exact room
  · have := (HostLink.takes_iff.1 takes).2
    simpa using this

/-- A kind that can be queued after a move could be before it: the queue only grows. -/
theorem HostLink.takes_of_moveKind {h : HostLink} {k j : NoticeKind} (takes : (h.moveKind k).takes j = true) : h.takes j = true := by
  rcases h.moveKind_spec k with ⟨e, _⟩ | ⟨p, _, _, e⟩ <;> rw [e] at takes
  · exact takes
  · exact HostLink.takes_of_append (h.setPending k none) _ j takes

theorem HostLink.moveKind_pendingOf {h : HostLink} {k j : NoticeKind} (absent : h.pendingOf j = none) :
    (h.moveKind k).pendingOf j = none := by
  rcases h.moveKind_spec k with ⟨e, _⟩ | ⟨p, _, _, e⟩ <;> rw [e]
  · exact absent
  · refine (h.pendingOf_setPending k j none).trans ?_
    split
    · rfl
    · exact absent

/-- After its own move, a kind that can still be queued has no entry. -/
theorem HostLink.moveKind_law {h : HostLink} {k : NoticeKind} (takes : (h.moveKind k).takes k = true) :
    (h.moveKind k).pendingOf k = none := by
  rcases h.moveKind_spec k with ⟨e, law⟩ | ⟨p, _, _, e⟩ <;> rw [e] at takes ⊢
  · exact law takes
  · exact (h.pendingOf_setPending k k none).trans (if_pos rfl)

/-- After the moves of some kinds, one of these that can still be queued has no entry; and one without an entry has none still. -/
theorem HostLink.moves_law : ∀ (l : List NoticeKind) (h : HostLink) (j : NoticeKind), j ∈ l ∨ h.pendingOf j = none →
    (l.foldl HostLink.moveKind h).takes j = true → (l.foldl HostLink.moveKind h).pendingOf j = none
  | [], _, _, .inr absent, _ => absent
  | k :: l, h, j, hj, takes => by
    have later : ∀ (l : List NoticeKind) (h : HostLink), (l.foldl HostLink.moveKind h).takes j = true → h.takes j = true := by
      intro l
      induction l with
      | nil => exact fun _ h => h
      | cons k l ih => exact fun h t => HostLink.takes_of_moveKind (ih _ t)
    refine HostLink.moves_law l (h.moveKind k) j ?_ takes
    rcases hj with hj | absent
    · rcases List.mem_cons.1 hj with rfl | hj
      · exact .inr (HostLink.moveKind_law (later l _ takes))
      · exact .inl hj
    · exact .inr (HostLink.moveKind_pendingOf absent)

/-- R181. Once the pending entries have moved, no kind has an entry while it could be queued. -/
theorem HostLink.movePending_pendingLaw (h : HostLink) : h.movePending.PendingLaw := by
  intro k takes
  have every : k ∈ noticeKinds := by cases k <;> decide
  exact HostLink.moves_law noticeKinds h k (.inl every) takes

theorem HostLink.movePending_notices {h : HostLink} (room : h.notices.length ≤ Config.noticeRoom) :
    h.movePending.notices.length ≤ Config.noticeRoom := by
  unfold HostLink.movePending
  generalize noticeKinds = l
  induction l generalizing h with
  | nil => exact room
  | cons k l ih => exact ih (HostLink.moveKind_notices k room)

/-! ## Classes (R182) -/

theorem SourceState.Lawful.reset : SourceState.reset.Lawful := .inl ⟨rfl, rfl⟩

theorem SourceState.Lawful.remove {v : SourceState} (h : v.Lawful) (x : Source) : (v.remove x).Lawful := by
  unfold SourceState.remove
  split
  · rename_i mem
    dsimp only
    split
    · exact .inl ⟨rfl, ‹_›⟩
    · rcases h with ⟨_, empty⟩ | ⟨two, _⟩
      · rw [empty] at mem
        exact absurd mem List.not_mem_nil
      · exact .inr ⟨two, ‹_›⟩
  · exact h

theorem SourceState.Lawful.granted (others : List Source) : (SourceState.granted others).Lawful := by
  by_cases h : others = []
  · exact .inl ⟨if_pos h, h⟩
  · exact .inr ⟨if_neg h, h⟩

theorem HostLink.source_setSource (h : HostLink) (x y : Source) (v : SourceState) :
    (h.setSource x v).source y = if x = y then v else h.source y := by
  cases x <;> cases y <;> rfl

theorem HostLink.source_removeSource (h : HostLink) (x y : Source) :
    (h.removeSource x).source y = if y = x then h.source y else (h.source y).remove x := by
  cases x <;> cases y <;> rfl

theorem HostLink.SourcesLawful.removeSource {h : HostLink} (l : h.SourcesLawful) (x : Source) : (h.removeSource x).SourcesLawful := by
  intro y
  rw [HostLink.source_removeSource]
  split
  · exact l y
  · exact (l y).remove x

theorem HostLink.SourcesLawful.setSource {h : HostLink} (l : h.SourcesLawful) (x : Source) {v : SourceState} (hv : v.Lawful) :
    (h.setSource x v).SourcesLawful := by
  intro y
  rw [HostLink.source_setSource]
  split
  · exact hv
  · exact l y

/-! ## What keeps the laws -/

/-- The laws of the host link's queues and of the refresh owed count. -/
def State.HostLaws (s : State) : Prop := s.host.Bounded ∧ s.host.PendingLaw ∧ s.host.SourcesLawful ∧ s.OwedBounded

/-- Two host links that agree in the mask, the notice queue and the pending table keep the pending law alike. -/
theorem HostLink.PendingLaw.of_eq {g h : HostLink} (l : h.PendingLaw) (mask : g.mask = h.mask) (notices : g.notices = h.notices)
    (pending : g.pendingNotices = h.pendingNotices) : g.PendingLaw := by
  intro k takes
  have := l k
  simp only [HostLink.takes, HostLink.masked, HostLink.pendingOf, mask, notices, pending] at takes this ⊢
  exact this takes

theorem HostLink.SourcesLawful.of_eq {g h : HostLink} (l : h.SourcesLawful) (e : ∀ x, g.source x = h.source x) : g.SourcesLawful :=
  fun x => (e x).symm ▸ l x

/-- An update that leaves the laws' parts as they are. -/
theorem State.HostLaws.of_eq {s t : State} (h : s.HostLaws) (host : t.host = s.host) (owed : t.store.owed = s.store.owed) :
    t.HostLaws := by
  obtain ⟨bounded, pending, sources, bound⟩ := h
  exact ⟨host ▸ bounded, host ▸ pending, host ▸ sources, owed.trans_le bound⟩

theorem Cascade.hostLaws {s t : State} (c : Cascade s t) (h : s.HostLaws) : t.HostLaws := by
  obtain ⟨⟨requests, notices, answers⟩, pending, sources, bound⟩ := h
  refine ⟨⟨?_, c.notices notices, ?_⟩, c.folded pending, sources.of_eq c.sources, c.owed.trans_le bound⟩
  · rw [c.requests]
    exact requests
  · rw [c.answers, c.job]
    exact answers

theorem Arming.hostLaws {s t : State} (c : Arming s t) (h : s.HostLaws) : t.HostLaws := c.rest.hostLaws (h.of_eq rfl rfl)

/-- The handler is FREE and the answer queue has room (R177). -/
theorem HostLink.handlerFree_iff {h : HostLink} : h.handlerFree = true ↔ h.job = none ∧ h.answers.length < Config.answerRoom := by
  simp [HostLink.handlerFree]

theorem Cascade.handlerFree {s t : State} (c : Cascade s t) (h : s.host.handlerFree = true) : t.host.handlerFree = true := by
  rw [HostLink.handlerFree_iff] at h ⊢
  rw [c.job, c.answers]
  exact h

theorem State.HostLaws.removeSource {s : State} (h : s.HostLaws) (x : Source) : (s.removeSource x).HostLaws := by
  obtain ⟨⟨requests, notices, answers⟩, pending, sources, bound⟩ := h
  obtain ⟨_, _, hrequests, hjob, hmask, hanswers, hnotices, hpending, _⟩ := HostLink.removeSource_keeps s.host x
  refine ⟨⟨?_, ?_, ?_⟩, pending.of_eq hmask hnotices hpending, sources.removeSource x, bound⟩
  · exact (congrArg List.length hrequests).trans_le requests
  · exact (congrArg List.length hnotices).trans_le notices
  · show (s.host.removeSource x).answers.length + (if (s.host.removeSource x).job = none then 0 else 1) ≤ Config.answerRoom
    rw [hanswers, hjob]
    exact answers

theorem State.removeSource_handlerFree (s : State) (x : Source) : (s.removeSource x).host.handlerFree = s.host.handlerFree := by
  cases x <;> rfl

theorem HostLink.movePending_handlerFree (h : HostLink) : h.movePending.handlerFree = h.handlerFree := by
  obtain ⟨_, _, _, hjob, _, hanswers, _⟩ := HostLink.fields_of_notices h.movePending_keeps
  rw [HostLink.handlerFree, HostLink.handlerFree, hjob, hanswers]

/-- The pending entries have moved: the bounds stand, and the pending law holds, whatever was pending before. -/
theorem State.HostLaws.setMoved {s : State} {h : HostLink} (bounded : h.Bounded) (sources : h.SourcesLawful)
    (bound : s.OwedBounded) : State.HostLaws { s with host := h.movePending } := by
  obtain ⟨requests, notices, answers⟩ := bounded
  obtain ⟨_, _, hrequests, hjob, _, hanswers, _, hsources⟩ := HostLink.fields_of_notices h.movePending_keeps
  have room := HostLink.movePending_notices notices
  have law := h.movePending_pendingLaw
  generalize h.movePending = g at hrequests hjob hanswers hsources room law
  refine ⟨⟨hrequests ▸ requests, room, ?_⟩, law, sources.of_eq hsources, bound⟩
  rw [hanswers, hjob]
  exact answers

/-! ## The general clear -/

/-- R185. The cleared queues are empty, so that every law holds of them. -/
theorem State.clearBlocks_hostLaws {s : State} (h : s.HostLaws) : s.clearBlocks.HostLaws := by
  obtain ⟨⟨requests, _, _⟩, _, _, bound⟩ := h
  refine ⟨⟨requests, Nat.zero_le _, Nat.zero_le _⟩, fun k _ => ?_, fun x => ?_, bound⟩
  · simp [HostLink.pendingOf, State.clearBlocks, HostLink.clear]
  · cases x <;> exact .reset

theorem Cascade.generalClear (s : State) (tag : Option Byte) : Cascade s.clearBlocks (s.generalClear tag) := by
  have raised := Cascade.raise s.clearBlocks .clearDone (clearContent tag s.clearBlocks.store.state)
  exact (raised.trans (.foldl State.detect .detect allLinks _)).trans (.grant _)

theorem State.generalClear_hostLaws {s : State} (h : s.HostLaws) (tag : Option Byte) : (s.generalClear tag).HostLaws :=
  (Cascade.generalClear s tag).hostLaws (State.clearBlocks_hostLaws h)

/-! ## Requests -/

/-- A request that the free handler takes keeps the laws; and if its answer is due at once, there is still room for it. -/
theorem OwnerChange.hostLaws {s t : State} {a : Option Result} (c : OwnerChange s t a) (h : s.HostLaws)
    (free : s.host.handlerFree = true) : t.HostLaws ∧ (a ≠ none → t.host.handlerFree = true) := by
  cases c with
  | cascade c => exact ⟨c.hostLaws h, fun _ => c.handlerFree free⟩
  | free n => exact ⟨h.of_eq rfl rfl, fun _ => free⟩
  | opened => exact ⟨h.of_eq rfl rfl, fun _ => free⟩
  | planned => exact ⟨h.of_eq rfl rfl, fun _ => free⟩
  | loaded => exact ⟨h.of_eq rfl rfl, fun _ => free⟩
  | armed c => exact ⟨c.hostLaws h, fun _ => c.rest.handlerFree free⟩
  | flat c =>
    rcases c with rfl | ⟨i, e, _, rfl⟩
    · exact ⟨h, fun _ => free⟩
    · exact ⟨h.of_eq rfl rfl, fun _ => free⟩
  | busy job c =>
    refine ⟨c.hostLaws ?_, fun due => absurd rfl due⟩
    obtain ⟨⟨requests, notices, _⟩, pending, sources, bound⟩ := h
    have room := (HostLink.handlerFree_iff.1 free).2
    exact ⟨⟨requests, notices, room⟩, pending.of_eq rfl rfl rfl, sources.of_eq fun x => by cases x <;> rfl, bound⟩
  | stopped c c' =>
    refine ⟨c'.hostLaws ((c.hostLaws h).removeSource _), fun _ => c'.handlerFree ?_⟩
    rw [State.removeSource_handlerFree]
    exact c.handlerFree free
  | parked c c' => exact ⟨c'.hostLaws ((c.hostLaws h).of_eq rfl rfl), fun _ => c'.handlerFree (c.handlerFree free)⟩
  | waking => exact ⟨h.of_eq rfl rfl, fun _ => free⟩
  | masked mask =>
    have ⟨bounded, _, sources, bound⟩ := h
    refine ⟨.setMoved bounded (sources.of_eq fun x => by cases x <;> rfl) bound, fun _ => ?_⟩
    dsimp only
    rw [HostLink.movePending_handlerFree]
    exact free
  | cleared tag =>
    refine ⟨State.generalClear_hostLaws h tag, fun _ => (Cascade.generalClear s tag).handlerFree ?_⟩
    exact HostLink.handlerFree_iff.2 ⟨rfl, Nat.zero_lt_succ _⟩

/-- R178. An answer joins the queue where there is room for it. -/
theorem State.HostLaws.queueAnswer {s : State} (h : s.HostLaws) (free : s.host.handlerFree = true) (tag kind : Byte) (r : Result) :
    (s.queueAnswer tag kind r).HostLaws := by
  obtain ⟨⟨requests, notices, _⟩, pending, sources, bound⟩ := h
  obtain ⟨job, room⟩ := HostLink.handlerFree_iff.1 free
  refine ⟨⟨requests, notices, ?_⟩, pending.of_eq rfl rfl rfl, sources.of_eq fun x => by cases x <;> rfl, bound⟩
  show (s.host.answers ++ [_]).length + (if s.host.job = none then 0 else 1) ≤ Config.answerRoom
  rw [if_pos job, List.length_append]
  exact room

/-- The request buffer changes within its bound. -/
theorem State.HostLaws.setRequests {s : State} (h : s.HostLaws) (rs : List (Byte × Request)) (room : rs.length ≤ Config.requestRoom) :
    State.HostLaws { s with host := { s.host with requests := rs } } := by
  obtain ⟨⟨_, notices, answers⟩, pending, sources, bound⟩ := h
  exact ⟨⟨room, notices, answers⟩, pending.of_eq rfl rfl rfl, sources.of_eq fun x => by cases x <;> rfl, bound⟩

theorem State.serve_hostLaws {s : State} (h : s.HostLaws) (free : s.host.handlerFree = true) (tag : Byte) (r : Request) :
    (s.serve tag r).HostLaws := by
  obtain ⟨laws, room⟩ := (s.reply_change tag r).hostLaws h free
  unfold State.serve
  dsimp only
  split
  · rename_i result due
    exact laws.queueAnswer (room (by rw [due]; exact nofun)) tag r.kind result
  · exact laws

theorem State.handlerRun_hostLaws {s : State} (h : s.HostLaws) : s.handlerRun.HostLaws := by
  unfold State.handlerRun
  generalize s.host.requests.length = n
  induction n generalizing s with
  | zero => exact h
  | succ n ih =>
    unfold State.handlerLoop
    split
    · exact h
    · rename_i tag r rest waiting
      split
      · rename_i free
        refine ih (State.serve_hostLaws (h.setRequests rest ?_) free tag r)
        have ⟨⟨requests, _⟩, _⟩ := h
        rw [waiting, List.length_cons] at requests
        omega
      · exact h

/-! ## The outbound grant -/

/-- R182, step 1. The message leaves its queue; the pending law is left to the move that follows. -/
theorem State.takeMessage_bounded {s t : State} {x : Source} {m : Message} (e : s.takeMessage x = some (m, t)) (h : s.HostLaws) :
    t.host.Bounded ∧ (x ≠ .notices → t.host.PendingLaw) ∧ t.host.SourcesLawful ∧ t.OwedBounded := by
  obtain ⟨⟨requests, notices, answers⟩, pending, sources, bound⟩ := h
  cases x with
  | answers =>
    simp only [State.takeMessage] at e
    split at e
    · cases e
    · rename_i a rest queue
      cases e
      refine ⟨⟨requests, notices, ?_⟩, fun _ => pending.of_eq rfl rfl rfl, sources.of_eq fun x => by cases x <;> rfl, bound⟩
      rw [queue, List.length_cons] at answers
      show rest.length + (if s.host.job = none then 0 else 1) ≤ Config.answerRoom
      omega
  | notices =>
    simp only [State.takeMessage] at e
    split at e
    · cases e
    · rename_i n rest queue
      cases e
      refine ⟨⟨requests, ?_, answers⟩, fun no => absurd rfl no, sources.of_eq fun x => by cases x <;> rfl, bound⟩
      rw [queue, List.length_cons] at notices
      exact Nat.le_of_succ_le notices
  | blocks =>
    simp only [State.takeMessage] at e
    split at e
    · cases e
    · cases e
      exact ⟨⟨requests, notices, answers⟩, fun _ => pending, sources, bound⟩

theorem State.grantSource_hostLaws {s : State} (h : s.HostLaws) (x : Source) : (s.grantSource x).HostLaws := by
  unfold State.grantSource
  split
  · exact h
  · rename_i m t e
    obtain ⟨bounded, pending, sources, bound⟩ := State.takeMessage_bounded e h
    dsimp only
    generalize hv : SourceState.granted _ = v
    have lawful : v.Lawful := hv ▸ .granted _
    obtain ⟨_, _, hr, hj, hm, ha, hn, hp, _⟩ := HostLink.removeSource_keeps t.host x
    obtain ⟨_, _, hr', hj', hm', ha', hn', hp', _⟩ := HostLink.setSource_keeps (t.host.removeSource x) x v
    have set : HostLink.SourcesLawful { (t.host.removeSource x).setSource x v with line := some m } :=
      ((sources.removeSource x).setSource x lawful).of_eq fun y => by cases y <;> rfl
    have within : HostLink.Bounded { (t.host.removeSource x).setSource x v with line := some m } := by
      unfold HostLink.Bounded
      dsimp only
      rw [hr', hr, hj', hj, ha', ha, hn', hn]
      exact bounded
    split
    · exact .setMoved within set bound
    · rename_i other
      exact ⟨within, (pending other).of_eq (hm'.trans hm) (hn'.trans hn) (hp'.trans hp), set, bound⟩

theorem State.outboundGrant_hostLaws {s : State} (h : s.HostLaws) : s.outboundGrant.HostLaws := by
  unfold State.outboundGrant
  split
  · exact h
  · split
    · exact h
    · exact State.grantSource_hostLaws h _

theorem State.pump_hostLaws {s : State} (h : s.HostLaws) : s.pump.HostLaws :=
  State.handlerRun_hostLaws (State.outboundGrant_hostLaws (State.handlerRun_hostLaws h))

/-! ## The line -/

/-- R174. A discard raises a count and a notice. -/
theorem State.lineError_hostLaws {s : State} (h : s.HostLaws) (cause : LineCause) : (s.lineError cause).HostLaws := by
  obtain ⟨bounded, pending, sources, bound⟩ := h
  refine (Cascade.raise _ _ _).hostLaws ?_
  exact ⟨bounded, pending.of_eq rfl rfl rfl, sources.of_eq fun x => by cases x <;> rfl, bound⟩

theorem State.arrive_hostLaws {s : State} (h : s.HostLaws) (tag : Byte) (r : Request) : (s.arrive tag r).HostLaws := by
  unfold State.arrive
  refine State.pump_hostLaws ?_
  split
  · exact State.lineError_hostLaws h _
  · refine h.setRequests _ ?_
    rw [List.length_append, List.length_singleton]
    omega

/-- R175. A body passes the frame check only where the request buffer has room. -/
theorem frameCheck_room {body : List Byte} {waiting : Nat} {r : Byte × Byte × List Byte} (h : frameCheck body waiting = .ok r) :
    waiting < Config.requestRoom := by
  unfold frameCheck at h
  split at h
  · dsimp only at h
    split at h
    · cases h
    · split at h
      · cases h
      · split at h
        · cases h
        · omega
  · cases h

theorem State.rxEvent_hostLaws {s : State} (h : s.HostLaws) (e : RxEvent) : (s.rxEvent e).HostLaws := by
  cases e with
  | body bytes =>
    show (match frameCheck bytes s.host.requests.length with
      | .error cause => s.lineError cause
      | .ok (kind, tag, payload) =>
        { s with host := { s.host with requests := s.host.requests ++ [(tag, readRequest kind payload)] } } : State).HostLaws
    split
    · exact State.lineError_hostLaws h _
    · rename_i passed
      refine h.setRequests _ ?_
      rw [List.length_append, List.length_singleton]
      exact frameCheck_room passed
  | discard cause => exact State.lineError_hostLaws h cause
  | clearSequence => exact State.generalClear_hostLaws h none

theorem State.HostLaws.setRx {s : State} (h : s.HostLaws) (rx : Receiver) :
    State.HostLaws { s with host := { s.host with rx := rx } } := by
  obtain ⟨bounded, pending, sources, bound⟩ := h
  exact ⟨bounded, pending.of_eq rfl rfl rfl, sources.of_eq fun x => by cases x <;> rfl, bound⟩

theorem State.HostLaws.setLine {s : State} (h : s.HostLaws) (line : Option Message) :
    State.HostLaws { s with host := { s.host with line := line } } := by
  obtain ⟨bounded, pending, sources, bound⟩ := h
  exact ⟨bounded, pending.of_eq rfl rfl rfl, sources.of_eq fun x => by cases x <;> rfl, bound⟩

theorem State.rxByte_hostLaws {s : State} (h : s.HostLaws) (b : Byte) : (s.rxByte b).HostLaws := by
  unfold State.rxByte
  dsimp only
  split
  · exact h.setRx _
  · exact State.pump_hostLaws (State.rxEvent_hostLaws (h.setRx _) _)

theorem State.rxBytes_hostLaws (bytes : List Byte) {s : State} (h : s.HostLaws) : (s.rxBytes bytes).HostLaws := by
  unfold State.rxBytes
  induction bytes generalizing s with
  | nil => exact h
  | cons b bytes ih => exact ih (State.rxByte_hostLaws h b)

end Sys2Proof.Machine
end

section
/-!
PROOF. Every step keeps the laws of the host link's queues, and the refresh owed count at 6 or less.
-/

namespace Sys2Proof.Machine

theorem State.writeRow_hostLaws {s : State} (h : s.HostLaws) (l : Fin 12) : (s.writeRow l).HostLaws :=
  have rest := s.writeRow_rest l
  h.of_eq (congrArg State.host rest :) (congrArg (fun x : State => x.store.owed) rest :)

theorem State.judgeRow_hostLaws {s : State} (h : s.HostLaws) (ctx : PlaceCtx) : (s.judgeRow ctx).HostLaws :=
  have ⟨rest, _⟩ := s.judgeRow_rest ctx
  h.of_eq (congrArg State.host rest :) (congrArg (fun x : State => x.store.owed) rest :)

/-- R170. What a completed zeroing does once the head job's area is cleared and the job has left the queue. -/
theorem State.zeroed_change (s : State) : s.zeroed = s ∨ ∃ i rest, s.store.zeroQueue = i :: rest
    ∧ Cascade { s with mem := s.mem.zeroCell i, store := { s.store with access := none, zeroQueue := rest } } s.zeroed := by
  unfold State.zeroed
  split
  · exact .inl rfl
  · rename_i i rest queue
    refine .inr ⟨i, rest, queue, ?_⟩
    dsimp only
    refine .trans ?_ (.settle _)
    split
    · exact (Cascade.cellZeroed _ i).trans (.leaveWait _ i)
    · exact ((Cascade.cellZeroed _ i).trans (.leaveWait _ i)).trans (.claim _ _)

theorem State.zeroed_hostLaws {s : State} (h : s.HostLaws) : s.zeroed.HostLaws := by
  rcases s.zeroed_change with e | ⟨i, rest, _, c⟩
  · rw [e]
    exact h
  · exact c.hostLaws (h.of_eq rfl rfl)

/-- R72. The answer of a FLAT_DATA comes as its BUSY handler is FREE again: there is room, since a BUSY handler has kept it. -/
theorem State.flatJobDone_hostLaws {s : State} (h : s.HostLaws) (busy : s.host.job ≠ none) (j : FlatJob) :
    (s.flatJobDone j).HostLaws := by
  obtain ⟨⟨requests, notices, answers⟩, pending, sources, bound⟩ := h
  rw [if_neg busy] at answers
  unfold State.flatJobDone
  dsimp only
  have free : HostLink.handlerFree { s.host with job := none } = true := HostLink.handlerFree_iff.2 ⟨rfl, answers⟩
  refine State.HostLaws.queueAnswer ?_ free _ _ _
  exact ⟨⟨requests, notices, Nat.le_of_succ_le answers⟩, pending.of_eq rfl rfl rfl, sources.of_eq fun x => by cases x <;> rfl, bound⟩

theorem State.flatRunDone_hostLaws {s : State} (h : s.HostLaws) : s.flatRunDone.HostLaws := by
  unfold State.flatRunDone
  split
  · exact h
  · rename_i j busy
    split
    · exact h
    · rename_i place vs rest _
      dsimp only
      split
      · exact State.flatJobDone_hostLaws (h.of_eq rfl rfl) (by rw [busy]; exact nofun) j
      · refine (Cascade.claim _ _).hostLaws ?_
        obtain ⟨⟨requests, notices, answers⟩, pending, sources, bound⟩ := h
        rw [busy] at answers
        exact ⟨⟨requests, notices, answers⟩, pending.of_eq rfl rfl rfl, sources.of_eq fun x => by cases x <;> rfl, bound⟩

/-- R169. A refresh that completes pays one that is owed. -/
theorem State.refreshed_hostLaws {s : State} (h : s.HostLaws) : s.refreshed.HostLaws := by
  unfold State.refreshed
  split
  · refine (Cascade.grant _).hostLaws ?_
    obtain ⟨bounded, pending, sources, bound⟩ := h
    exact ⟨bounded, pending, sources, (Nat.sub_le _ 1).trans bound⟩
  · exact h

/-- R169. At 6 owed the interval's expiry counts a late refresh instead. -/
theorem State.refreshExpiry_hostLaws {s : State} (h : s.HostLaws) : s.refreshExpiry.HostLaws := by
  unfold State.refreshExpiry
  split
  · split
    · rename_i below
      refine (Cascade.grant _).hostLaws ?_
      obtain ⟨bounded, pending, sources, _⟩ := h
      exact ⟨bounded, pending, sources, below⟩
    · exact (Cascade.raise _ _ _).hostLaws (h.of_eq rfl rfl)
  · exact h

theorem State.reset_hostLaws : State.reset.HostLaws := by
  refine ⟨⟨Nat.zero_le _, Nat.zero_le _, Nat.zero_le _⟩, fun k _ => ?_, fun x => ?_, Nat.zero_le _⟩
  · simp [HostLink.pendingOf, State.reset, HostLink.reset]
  · cases x <;> exact .reset

theorem StepChange.hostLaws {s t : State} (c : StepChange s t) (h : s.HostLaws) : t.HostLaws := by
  have freed : s.freeStore.HostLaws := h.of_eq rfl rfl
  cases c with
  | idle => exact h
  | powerOn => exact State.reset_hostLaws.of_eq rfl rfl
  | arrived tag r => exact State.arrive_hostLaws h tag r
  | bytes bytes => exact State.rxBytes_hostLaws bytes h
  | granted c => exact c.hostLaws h
  | cascade c => exact State.pump_hostLaws (c.hostLaws h)
  | armed c => exact State.pump_hostLaws (c.hostLaws h)
  | written l c => exact State.pump_hostLaws (c.hostLaws (State.writeRow_hostLaws freed l))
  | placed ctx place c => exact State.pump_hostLaws (c.hostLaws ((s.freeStore.rowDone_change ctx place).hostLaws (State.judgeRow_hostLaws freed ctx)))
  | zeroed => exact State.pump_hostLaws (State.zeroed_hostLaws h)
  | flatRun => exact State.pump_hostLaws ((Cascade.grant _).hostLaws (State.flatRunDone_hostLaws freed))
  | refreshed => exact State.refreshed_hostLaws h
  | interval => exact State.pump_hostLaws (State.refreshExpiry_hostLaws h)
  | ready c => exact State.pump_hostLaws (c.hostLaws (h.of_eq rfl rfl))
  | cleared => exact State.pump_hostLaws (State.generalClear_hostLaws (h.setRx .hunting) none)
  | served => exact State.handlerRun_hostLaws (State.outboundGrant_hostLaws h)
  | sent c => exact State.pump_hostLaws (c.hostLaws (h.setLine none))
  | moved =>
    have ⟨bounded, _, sources, bound⟩ := h
    exact State.pump_hostLaws (.setMoved bounded sources bound)

/-- Settles O58: every request is taken with room for its answer, a message leaves before another comes, and the move that follows
the grant of a notice restores the pending law. -/
theorem stepsKeepTheHostLinkLaws : Obligations.StepsKeepTheHostLinkLaws :=
  Kept.of_exec (P := State.HostLaws) (fun _ _ h => h.of_eq rfl rfl) fun _ _ h c => c.hostLaws h

end Sys2Proof.Machine
end

section
/-!
PROOF. What the arrival of frames and the requests of the link ports leave alone (`PortSide`), and that every command keeps the cell
table the size of the grid (R128).
-/

namespace Sys2Proof.Machine

/-! ## Ports and notices alone -/

/-- At most the ports and the host link differ. -/
structure PortSide (s t : State) : Prop where
  rest : { t with ports := s.ports, host := s.host } = s

theorem PortSide.refl (s : State) : PortSide s s := ⟨rfl⟩

theorem PortSide.trans {s t u : State} (a : PortSide s t) (b : PortSide t u) : PortSide s u where
  rest := (congrArg (fun x : State => ({ x with ports := s.ports, host := s.host } : State)) b.rest).trans a.rest

theorem PortSide.foldl {α : Type} {f : State → α → State} (h : ∀ s a, PortSide s (f s a)) :
    ∀ (l : List α) (s : State), PortSide s (l.foldl f s)
  | [], s => .refl s
  | a :: rest, s => (h s a).trans (PortSide.foldl h rest (f s a))

theorem PortSide.canvas {s t : State} (h : PortSide s t) : t.canvas = s.canvas := (congrArg State.canvas h.rest :)
theorem PortSide.store {s t : State} (h : PortSide s t) : t.store = s.store := (congrArg State.store h.rest :)

theorem PortSide.setPort (s : State) (l : Fin 12) (p : Port) : PortSide s (s.setPort l p) := ⟨rfl⟩
theorem PortSide.modPort (s : State) (l : Fin 12) (f : Port → Port) : PortSide s (s.modPort l f) := ⟨rfl⟩
theorem PortSide.raise (s : State) (k : NoticeKind) (c : List Byte) : PortSide s (s.raise k c) := ⟨rfl⟩

theorem PortSide.setPortState (s : State) (l : Fin 12) (st : PortState) (reason : Option FaultReason) (cause : LinkCause) :
    PortSide s (s.setPortState l st reason cause) := by
  unfold State.setPortState
  dsimp only
  split <;> exact ⟨rfl⟩

theorem PortSide.detect (s : State) (l : Fin 12) : PortSide s (s.detect l) := by
  unfold State.detect
  dsimp only
  split
  · exact (PortSide.modPort s l _).trans (.setPortState _ l _ _ _)
  · exact .refl s

theorem PortSide.endRelay (s : State) (l : Fin 12) (r : Relay) (o : RelayOutcome) : PortSide s (s.endRelay l r o) := ⟨rfl⟩

theorem PortSide.cutRelay (s : State) (l : Fin 12) (o : RelayOutcome) : PortSide s (s.cutRelay l o) := by
  unfold State.cutRelay
  dsimp only
  split
  · exact .endRelay s l _ o
  · exact .refl s

theorem PortSide.hkWord (s : State) (l : Fin 12) (index value : Nat) : PortSide s (s.hkWord l index value) := by
  unfold State.hkWord State.hkComplete
  dsimp only
  repeat' split
  all_goals exact ⟨rfl⟩

theorem PortSide.relayIdle (s : State) (l : Fin 12) : PortSide s (s.relayIdle l) := by
  unfold State.relayIdle
  dsimp only
  repeat' split
  all_goals exact ⟨rfl⟩

theorem PortSide.relayFrame (s : State) (l : Fin 12) (m : Marker) (b : Byte) : PortSide s (s.relayFrame l m b) := by
  unfold State.relayFrame
  dsimp only
  split
  · split
    · exact .relayIdle s l
    · exact .modPort s l _
    · exact .endRelay s l _ _
  · exact .refl s

theorem PortSide.goodFrame (s : State) (l : Fin 12) (bytes : List Byte) : PortSide s (s.goodFrame l bytes) := by
  unfold State.goodFrame
  dsimp only
  have word := (PortSide.modPort s l fun p => { p with good := satAdd Config.sat32 p.good 1 }).trans
    (.hkWord _ l (bytes.getD 6 0).toNat (word16 bytes 7))
  split
  · exact word.trans (.relayFrame _ l _ _)
  · exact word.trans (.relayIdle _ l)

theorem PortSide.portFault (s : State) (l : Fin 12) : PortSide s (s.portFault l) :=
  ((PortSide.modPort s l _).trans (.setPortState _ l _ _ _)).trans (.raise _ _ _)

theorem PortSide.huntFrame (s : State) (l : Fin 12) (bytes : List Byte) : PortSide s (s.huntFrame l bytes) := by
  unfold State.huntFrame
  split
  · dsimp only
    split
    · exact ((PortSide.goodFrame s l bytes).trans (.setPort _ l _)).trans (.setPortState _ l _ _ _)
    · exact (PortSide.goodFrame s l bytes).trans (.setPort _ l _)
  · dsimp only
    split
    · exact ((PortSide.modPort s l _).trans (.setPort _ l _)).trans (.portFault _ l)
    · exact (PortSide.modPort s l _).trans (.setPort _ l _)

theorem PortSide.sendLane (s : State) (l : Fin 12) : PortSide s (s.sendLane l) := by
  unfold State.sendLane
  dsimp only
  split <;> exact ⟨rfl⟩

theorem PortSide.tapStep (s : State) (l : Fin 12) (rising : Bool) : PortSide s (s.tapStep l rising) := by
  unfold State.tapStep
  dsimp only
  split
  · exact .setPort s l _
  · split
    · exact .portFault s l
    · exact .setPort s l _

theorem PortSide.trainFound (s : State) (l : Fin 12) : PortSide s (s.trainFound l) :=
  (PortSide.modPort s l _).trans (.setPortState _ l _ _ _)

theorem PortSide.countStale (s : State) (l : Fin 12) : PortSide s (s.countStale l) := .modPort s l _

theorem PortSide.staleRow (s : State) (l : Fin 12) (stale : Bool) : PortSide s (if stale then s.countStale l else s) := by
  split
  · exact .countStale s l
  · exact .refl s

theorem PortSide.frameEnds (s : State) (l : Fin 12) (ends : Bool) (f : Port → Port) (st : PortState) (cause : LinkCause) :
    PortSide s (if ends then (s.modPort l f).setPortState l st none cause else s) := by
  split
  · exact (PortSide.modPort s l f).trans (.setPortState _ l st none cause)
  · exact .refl s

/-! ## The size of the cell table -/

/-- R128. The step from `s` to `t` keeps the cell table the size of the grid. -/
def Shapes (s t : State) : Prop := s.TableShaped → t.TableShaped

theorem Shapes.refl (s : State) : Shapes s s := id
theorem Shapes.trans {s t u : State} (a : Shapes s t) (b : Shapes t u) : Shapes s u := b ∘ a

theorem Shapes.foldl {α : Type} {f : State → α → State} (h : ∀ s a, Shapes s (f s a)) :
    ∀ (l : List α) (s : State), Shapes s (l.foldl f s)
  | [], s => .refl s
  | a :: rest, s => (h s a).trans (Shapes.foldl h rest (f s a))

theorem Shapes.of_eq {s t : State} (canvas : t.canvas = s.canvas) : Shapes s t := fun h => by
  rw [State.TableShaped, canvas]
  exact h

/-- The grid stands, and the number of records. -/
theorem Shapes.of_grid {s t : State} (width : t.canvas.width = s.canvas.width) (height : t.canvas.height = s.canvas.height)
    (length : t.canvas.cells.length = s.canvas.cells.length) : Shapes s t := fun h => by
  rw [State.TableShaped, width, height, length]
  exact h

theorem Shapes.of_idle {s t : State} (idle : t.canvas = .idle) : Shapes s t := fun _ => by
  rw [State.TableShaped, idle]
  rfl

theorem Inner.shapes {s t : State} (h : Inner s t) : Shapes s t :=
  .of_grid (congrArg Canvas.width h.grid :) (congrArg Canvas.height h.grid :) h.length

theorem PortSide.shapes {s t : State} (h : PortSide s t) : Shapes s t := .of_eq h.canvas

theorem State.grant_canvas (s : State) : s.grant.canvas = s.canvas := by
  unfold State.grant State.markPlacement
  split
  · split <;> rfl
  · rfl

theorem Shapes.grant (s : State) : Shapes s s.grant := .of_eq s.grant_canvas

theorem Shapes.drainTake (s : State) : Shapes s s.drainTake := by
  unfold State.drainTake
  split
  · split
    · unfold State.drainCell
      split
      · exact .of_grid rfl rfl List.length_set
      · exact .of_eq rfl
    · exact .refl s
  · exact .refl s

theorem Shapes.settle (s : State) : Shapes s s.settle := (Shapes.drainTake s).trans (.grant _)

theorem Shapes.canvasToIdle (s : State) : Shapes s s.canvasToIdle := by
  refine .of_idle ?_
  unfold State.canvasToIdle State.endPlacementCanvas
  dsimp only
  split
  · rfl
  · split <;> rfl

theorem Shapes.finishTest (s : State) : Shapes s s.finishTest := by
  unfold State.finishTest
  split
  · exact (Inner.raise s _ _).shapes.trans (.canvasToIdle _)
  · exact .refl s

theorem Shapes.intakeItems (l : Fin 12) : ∀ (items : List BufItem) (s : State), Shapes s (s.intakeItems l items)
  | [], s => .of_eq rfl
  | .truncation :: _, s => .of_eq rfl
  | .start _ _ :: _, s => .of_eq rfl
  | .finish :: rest, s => by
    unfold State.intakeItems
    have closed := (PortSide.modPort s l fun p => { p with buffer := rest }).shapes.trans (Inner.closeTiles _ l false).shapes
    dsimp only
    split
    · exact closed.trans (Shapes.intakeItems l rest _)
    · exact closed
  | .row b :: rest, s => by
    unfold State.intakeItems
    split
    · exact Shapes.intakeItems l rest s
    · exact .of_eq rfl

theorem Shapes.intakeRun (s : State) (l : Fin 12) : Shapes s (s.intakeRun l) := by
  unfold State.intakeRun
  split
  · exact .intakeItems l _ s
  · exact .refl s

theorem Shapes.resumeLink (s : State) (l : Fin 12) : Shapes s (s.resumeLink l) :=
  (Inner.measureRun s l).shapes.trans (.intakeRun _ l)

theorem Shapes.takeStart (s : State) (l : Fin 12) (e row : Nat) (rest : List BufItem) : Shapes s (s.takeStart l e row rest) := by
  have transfer : ∀ (s : State) (a : Fin 8), Shapes s (s.armedTransfer (segmentOf l a)) := fun s a => by
    unfold State.armedTransfer
    dsimp only
    split <;> exact .of_eq rfl
  unfold State.takeStart
  dsimp only
  refine .trans (.trans (.foldl transfer allAmplifiers s) ?_) (Inner.associate _ l e row).shapes
  exact (PortSide.modPort _ l _).shapes

theorem Shapes.takeMarkers (l : Fin 12) : ∀ (items : List BufItem) (s : State), Shapes s (s.takeMarkers l items)
  | [], s => .refl s
  | .truncation :: rest, s => by
    unfold State.takeMarkers
    have closed := (PortSide.modPort s l fun p => { p with buffer := rest }).shapes.trans (Inner.closeTiles _ l true).shapes
    dsimp only
    split
    · exact closed.trans (Shapes.takeMarkers l rest _)
    · exact closed
  | .start e r :: rest, s =>
    (PortSide.modPort s l fun p => { p with buffer := rest }).shapes.trans (.takeStart _ l e r rest)
  | .finish :: _, s => .refl s
  | .row _ :: _, s => .refl s

theorem Shapes.readoutStart (s : State) (l : Fin 12) : Shapes s (s.readoutStart l) := by
  unfold State.readoutStart
  split
  · exact (Shapes.takeMarkers l _ s).trans (.resumeLink _ l)
  · exact .refl s

theorem Shapes.closeLink (s : State) (l : Fin 12) (o : RelayOutcome) : Shapes s (s.closeLink l o) := by
  unfold State.closeLink
  dsimp only
  refine .trans (.trans ?_ (Inner.closeTiles _ l true).shapes) (PortSide.cutRelay _ l o).shapes
  exact .of_eq rfl

theorem Shapes.loseLink (s : State) (l : Fin 12) (st : PortState) (cause : LinkCause) (o : RelayOutcome) (f : Port → Port) :
    Shapes s (s.loseLink l st cause o f) :=
  ((PortSide.setPortState s l st none cause).shapes.trans (.closeLink _ l o)).trans (PortSide.modPort _ l f).shapes

theorem Shapes.enterRow (s : State) (l : Fin 12) (before : List BufItem) (row : Option BufRow) (after : List BufItem) :
    Shapes s (s.enterRow l before row after) := by
  unfold State.enterRow
  dsimp only
  split
  · exact (PortSide.setPort s l _).shapes.trans (.readoutStart _ l)
  · exact (PortSide.setPort s l _).shapes.trans (.intakeRun _ l)

theorem Shapes.rowFrame (s : State) (l : Fin 12) (bytes : List Byte) : Shapes s (s.rowFrame l bytes) := by
  unfold State.rowFrame
  split
  · unfold State.rowStart
    dsimp only
    refine .trans (PortSide.shapes ?_) (.enterRow _ l _ _ _)
    refine .trans ?_ (.staleRow _ l _)
    refine .trans (.trans ?_ (.setPortState _ l .reading none .start)) (.frameEnds _ l (frameEnd bytes) _ .synced .finish)
    exact .modPort s l _
  · split
    · unfold State.rowInReadout
      dsimp only
      split
      · exact (PortSide.countStale s l).shapes
      · refine .trans (PortSide.shapes ?_) (.enterRow _ l _ _ _)
        refine .trans ?_ (.frameEnds _ l (frameEnd bytes) (fun p => { p with ctx := none }) .synced .finish)
        split
        · exact .countStale s l
        · exact .modPort s l _
    · exact (PortSide.countStale s l).shapes

theorem Shapes.lockedFrame (s : State) (l : Fin 12) (bytes : List Byte) : Shapes s (s.lockedFrame l bytes) := by
  unfold State.lockedFrame
  split
  · dsimp only
    split
    · refine .trans (PortSide.shapes ?_) (.rowFrame _ l bytes)
      split
      · exact .goodFrame s l bytes
      · exact (PortSide.goodFrame s l bytes).trans (.modPort _ l _)
    · exact ((PortSide.goodFrame s l bytes).trans (.modPort _ l _)).shapes
  · dsimp only
    split
    · exact (PortSide.modPort s l _).shapes.trans (.loseLink _ l _ _ _ _)
    · exact ((PortSide.modPort s l _).trans (.relayIdle _ l)).shapes

theorem Shapes.frameArrives (s : State) (l : Fin 12) (rising : Bool) (bytes : List Byte) :
    Shapes s (s.frameArrives l rising bytes) := by
  unfold State.frameArrives
  dsimp only
  split
  · exact .refl s
  · exact .refl s
  · exact .refl s
  · split
    · exact ((PortSide.trainFound s l).trans (.sendLane _ l)).shapes
    · exact .refl s
  · split
    · exact ((PortSide.huntFrame s l bytes).trans (.sendLane _ l)).shapes
    · split
      · exact ((PortSide.tapStep s l rising).trans (.sendLane _ l)).shapes
      · exact (PortSide.sendLane s l).shapes
  · exact (Shapes.lockedFrame s l bytes).trans (PortSide.sendLane _ l).shapes
  · exact (Shapes.lockedFrame s l bytes).trans (PortSide.sendLane _ l).shapes

/-! ## Events -/

theorem Shapes.limitExpiry (s : State) (k : Fin 4) : Shapes s (s.limitExpiry k) := by
  unfold State.limitExpiry
  dsimp only
  split
  · exact .refl s
  · split
    · have gone := (Inner.foldl (fun s t => Inner.discardTile s t .overrun) (s.tilesOf k) s).trans (.endSlot _ k .overrun)
      exact (gone.shapes.trans (.foldl Shapes.resumeLink (s.linksOf (s.tilesOf k)) _)).trans (.settle _)
    · split
      · unfold State.writeOff
        dsimp only
        refine .trans (Inner.shapes (.trans (.trans ?_ (.writeOff_loop k _ _)) (.settleSlot _ k))) (.settle _)
        exact .modSlot s k _
      · exact .refl s

theorem Shapes.writeRow (s : State) (l : Fin 12) : Shapes s (s.writeRow l) := .of_eq (congrArg State.canvas (s.writeRow_rest l) :)

theorem Shapes.boxDone (s : State) (l : Fin 12) : Shapes s (s.boxDone l) := by
  unfold State.boxDone
  split
  · exact .refl s
  · split
    · dsimp only
      split
      · refine .trans ?_ (.grant _)
        exact .of_eq rfl
      · split
        · exact .of_eq rfl
        · refine .trans (.trans (.trans ?_ (Inner.recordRef _ _ _ _ _ _).shapes) (.resumeLink _ l)) (.settle _)
          exact .of_eq rfl
    · exact .refl s

theorem Shapes.rowDone (s : State) (ctx : PlaceCtx) : Shapes s (s.rowDone ctx) := by
  obtain ⟨_, grid, length⟩ := s.judgeRow_rest ctx
  have judged : Shapes s (s.judgeRow ctx) := .of_grid (congrArg Canvas.width grid :) (congrArg Canvas.height grid :) length
  unfold State.rowDone
  dsimp only
  refine judged.trans (Inner.shapes (.trans ?_ (.take _)))
  split
  · exact (Inner.modTile _ _ _).trans (.stopTile _ _)
  · exact (Inner.modTile _ _ _).trans (.nextRow _ ctx _)

theorem Shapes.blockEmitted (s : State) : Shapes s s.blockEmitted := by
  unfold State.blockEmitted State.cellEmitted
  dsimp only
  split
  · exact .of_eq rfl
  · split
    · refine .trans ?_ (.finishTest _)
      split
      · exact .of_grid rfl rfl List.length_set
      · exact .of_eq rfl
    · split <;> exact .of_eq rfl

theorem Shapes.zeroed (s : State) : Shapes s s.zeroed := by
  unfold State.zeroed
  split
  · exact .refl s
  · rename_i i rest _
    dsimp only
    refine .trans ?_ (.settle _)
    have waits : ∀ u : State, Shapes u ((u.cellZeroed i).leaveWait i) := fun u =>
      ((CanvasSide.cellZeroed u i).trans (.leaveWait _ i)).inner.shapes
    split
    · refine .trans ?_ (waits _)
      exact .of_eq rfl
    · refine .trans (.trans ?_ (waits _)) (Inner.claim _ _).shapes
      exact .of_eq rfl

theorem Shapes.enterReady (s : State) (wake : Bool) : Shapes s (s.enterReady wake) := by
  unfold State.enterReady
  dsimp only
  refine .trans (.trans (.trans ?_ (.grant _)) (PortSide.foldl .detect allLinks _).shapes) (.settle _)
  split <;> exact .of_eq rfl

theorem Shapes.generalClear (s : State) (tag : Option Byte) : Shapes s (s.generalClear tag) := by
  have cleared : Shapes s s.clearBlocks := .of_idle rfl
  have raised := (PortSide.raise s.clearBlocks .clearDone (clearContent tag s.clearBlocks.store.state)).trans
    (.foldl .detect allLinks _)
  exact (cleared.trans raised.shapes).trans (.grant _)

end Sys2Proof.Machine
end

section
/-!
PROOF. Every step keeps scales within their limits (R96), tags distinct (R35), the cell table shaped (R128) and named flats VALID (R75).
-/

namespace Sys2Proof.Machine

/-! ## Requests and the cell table -/

theorem State.FlatChange.shapes {s t : State} (h : s.FlatChange t) : Shapes s t := by
  rcases h with rfl | ⟨i, e, _, rfl⟩
  · exact .refl t
  · exact .of_eq rfl

theorem Shapes.linkRequest {s : State} {link : Nat} {f : Fin 12 → Reply} (owned : ∀ l, Shapes s (f l).1) :
    Shapes s (s.withLink link f).1 := State.withLink_state (P := Shapes s) link (.refl s) owned

theorem Shapes.linkEnable (s : State) (link : Nat) : Shapes s (s.linkEnable link).1 := by
  refine .linkRequest fun l => ?_
  simp only [apply_ite Prod.fst, State.done_state]
  split
  · exact (((PortSide.modPort s l _).trans (.setPortState _ l _ _ _)).trans (.detect _ l)).shapes
  · exact .refl s

theorem Shapes.linkConfig (s : State) (link slots active rows overscan missing low high warm : Nat) :
    Shapes s (s.linkConfig link slots active rows overscan missing low high warm).1 := by
  refine .linkRequest fun l => ?_
  simp only [apply_ite Prod.fst, State.done_state, State.refuse_state]
  split
  · exact .refl s
  · split
    · exact .refl s
    · exact .of_eq rfl

theorem Shapes.linkDisable (s : State) (link : Nat) : Shapes s (s.linkDisable link).1 := by
  refine .linkRequest fun l => ?_
  simp only [apply_ite Prod.fst, State.done_state]
  split
  · exact .refl s
  · exact (Shapes.loseLink s l _ _ _ _).trans (.settle _)

theorem Shapes.linkReset (s : State) (link : Nat) : Shapes s (s.linkReset link).1 := by
  refine .linkRequest fun l => ?_
  simp only [apply_ite Prod.fst, State.done_state, State.refuse_state]
  split
  · exact .refl s
  · split
    · exact .refl s
    · exact ((Shapes.loseLink s l _ _ _ _).trans (PortSide.detect _ l).shapes).trans (.settle _)

theorem Shapes.relayRequest (s : State) (link : Nat) (outgoing : List Byte) (expected timeout : Nat) :
    Shapes s (s.relayRequest link outgoing expected timeout).1 := by
  refine .linkRequest fun l => ?_
  simp only [apply_ite Prod.fst, State.done_state, State.refuse_state]
  repeat' split
  all_goals exact .of_eq rfl

theorem Shapes.exposureCommit (s : State) (exposure : Nat) : Shapes s (s.exposureCommit exposure).1 := by
  unfold State.exposureCommit
  split
  · exact .refl s
  · dsimp only
    split
    · exact .refl s
    · rename_i k _ _
      split
      · exact .refl s
      · unfold State.commit
        dsimp only [State.done]
        generalize List.filter _ (State.tilesOf _ k) = moving
        generalize List.filter _ (State.tilesOf _ k) = dropped
        generalize State.linksOf _ dropped = links
        refine .trans (.trans (Inner.shapes ?_) (.foldl .resumeLink links _)) (.settle _)
        refine .trans (.trans (.trans (.trans ?_ (.modSlot _ k _)) (.settleSlot _ k)) (.exhaustedTest Inner.take _ k)) (.take _)
        refine .trans (.trans (CanvasSide.commitCells s _).inner (.foldl (fun s t => ?_) moving _))
          (.foldl (fun s t => (Inner.discardTile s t .unlisted).trans (.recordResolution _ k _ .unlisted)) dropped _)
        split
        · exact .holdTile s t
        · exact .queueTile s t

theorem Shapes.exposureAbandon (s : State) (exposure : Nat) : Shapes s (s.exposureAbandon exposure).1 := by
  unfold State.exposureAbandon
  split
  · exact .refl s
  · rename_i k _
    dsimp only [State.done]
    have gone := (Inner.abandonSlot s k).trans (.takeFreed _ s.place)
    exact (gone.shapes.trans (.foldl .resumeLink (s.linksOf (s.tilesOf k)) _)).trans (.settle _)

/-- R139. A canvas opens with one record for each cell of its grid. -/
theorem Shapes.canvasOpen (s : State) (width height order : Nat) : Shapes s (s.canvasOpen width height order).1 := by
  unfold State.canvasOpen
  split
  · exact .refl s
  · split
    · exact .refl s
    · split
      · exact .refl s
      · exact fun _ => List.length_replicate

theorem Shapes.canvasClose (s : State) : Shapes s s.canvasClose.1 := by
  unfold State.canvasClose
  split
  · exact .refl s
  · split
    · exact .refl s
    · dsimp only [State.done]
      have closed := (CanvasSide.foldl .closeCell (List.range s.canvas.cells.length) s).inner.shapes
      refine .trans (.trans (closed.trans ?_) (.finishTest _)) (.settle _)
      exact .of_grid rfl rfl rfl

theorem Shapes.cellRelease (s : State) (i : Nat) : Shapes s (s.cellRelease i).1 := by
  refine State.withCell_state (P := Shapes s) i (.refl s) fun c _ => ?_
  simp only [apply_ite Prod.fst, State.done_state]
  split
  · have completed := (CanvasSide.completeCell s i { c with owed := 0, forced := true }).inner.shapes
    refine .trans (completed.trans ?_) (.settle _)
    exact .of_grid rfl rfl rfl
  · split
    · exact (CanvasSide.setCell s i _).inner.shapes.trans (.settle _)
    · exact .refl s

theorem State.drainAbandon_canvas (s : State) : s.drainAbandon.canvas = s.canvas := by
  unfold State.drainAbandon
  dsimp only
  repeat' split
  all_goals rfl

theorem Shapes.canvasAbandon (s : State) : Shapes s s.canvasAbandon.1 := by
  unfold State.canvasAbandon
  split
  · exact .refl s
  · dsimp only [State.done]
    generalize s.linksOf _ = links
    refine .trans (.trans ?_ (.foldl .resumeLink links _)) (.settle _)
    refine .trans (.trans ?_ (Inner.raise _ _ _).shapes) (.canvasToIdle _)
    exact (Inner.foldl .abandonSlot _ s).shapes.trans (.of_eq (State.drainAbandon_canvas _))

theorem Shapes.drainHold (s : State) : Shapes s s.drainHold.1 := by
  unfold State.drainHold
  split
  · exact .refl s
  · dsimp only
    split
    · split
      · exact .of_eq rfl
      · refine .trans ?_ (.settle _)
        exact .of_eq rfl
    all_goals exact .of_eq rfl

theorem Shapes.drainResume (s : State) : Shapes s s.drainResume.1 := by
  unfold State.drainResume
  split
  · exact .refl s
  · dsimp only
    split
    · refine .trans ?_ (.settle _)
      exact .of_eq rfl
    · refine .trans ?_ (.settle _)
      exact .of_eq rfl
    all_goals exact .of_eq rfl

theorem Shapes.park (s : State) : Shapes s s.park.1 := by
  have down : ∀ (s : State) (l : Fin 12), Shapes s (s.parkPort l) := fun s l => by
    unfold State.parkPort
    split
    · exact .refl s
    · exact .loseLink s l _ _ _ _
  unfold State.park
  split
  · exact .refl s
  · dsimp only [State.done]
    refine .trans ?_ (.foldl down allLinks _)
    exact .of_eq rfl

/-- What `OwnerChange` says without a word on consequences leaves the canvas alone. -/
theorem Shapes.owner (s : State) (tag : Byte) (r : Request) : Shapes s (s.owner tag r).1 := by
  cases r with
  | linkEnable link => exact .linkEnable s link
  | linkConfig link slots active rows overscan missing low high warm => exact .linkConfig s link slots active rows overscan missing low high warm
  | linkDisable link => exact .linkDisable s link
  | linkReset link => exact .linkReset s link
  | linkQuery link => exact .of_eq (congrArg State.canvas (s.linkQuery_state link) :)
  | hkRead link => exact .of_eq (congrArg State.canvas (s.hkRead_state link) :)
  | relay link outgoing expected timeout => exact .relayRequest s link outgoing expected timeout
  | exposureOpen exposure mode initial lower upper attack decay quota nominal limit =>
    rcases s.exposureOpen_state exposure mode initial lower upper attack decay quota nominal limit with h | ⟨_, _, _, _, _, _, h⟩
    all_goals exact .of_eq (congrArg State.canvas h :)
  | planPlace exposure segment weight anchorX anchorY colX colY rowX rowY cells =>
    rcases s.planPlace_state exposure segment weight anchorX anchorY colX colY rowX rowY cells with h | ⟨_, _, _, h⟩
    all_goals exact .of_eq (congrArg State.canvas h :)
  | planRef exposure refs =>
    refine .of_eq ?_
    show (s.planRef exposure refs).1.canvas = s.canvas
    unfold State.planRef
    split
    · rfl
    · dsimp only
      repeat' split
      all_goals rfl
  | exposureCommit exposure => exact .exposureCommit s exposure
  | exposureAbandon exposure => exact .exposureAbandon s exposure
  | exposureQuery exposure =>
    obtain ⟨n, h⟩ := s.exposureQuery_state exposure
    exact .of_eq (congrArg State.canvas h :)
  | calLoad segment mode skip level gain flat saturation defects =>
    rcases s.calLoad_state segment mode skip level gain flat saturation defects with h | ⟨_, _, _, h⟩
    all_goals exact .of_eq (congrArg State.canvas h :)
  | calApply segments when_ =>
    have fold : ∀ (f : State → Fin 96 → SegCal) (s : State) (gs : List (Fin 96)),
        Shapes s (gs.foldl (fun s g => s.setSegCal g (f s g)) s) := fun f s gs =>
      .foldl (f := fun s g => s.setSegCal g (f s g)) (fun s g => .of_eq rfl) gs s
    show Shapes s (s.calApply segments when_).1
    unfold State.calApply
    dsimp only
    split
    · exact .refl s
    · split
      · split
        · exact .refl s
        · split
          · exact .refl s
          · exact fold _ s _
      · split
        · exact .refl s
        · exact fold _ s _
      · exact fold _ s _
      · exact .refl s
  | calQuery segment => exact .of_eq (congrArg State.canvas (s.calQuery_state segment) :)
  | flatBegin index columns rows check => exact (s.flatBegin_state index columns rows check).shapes
  | flatData index offset values =>
    show Shapes s (s.flatData tag index offset values).1
    refine State.withFlat_state (P := Shapes s) index (.refl s) fun i => ?_
    simp only [apply_ite Prod.fst, State.refuse_state]
    repeat' split
    · exact .refl s
    · exact .refl s
    · exact .refl s
    · exact .refl s
    · refine .trans ?_ (.grant _)
      exact .of_eq rfl
  | flatEnd index => exact (s.flatEnd_state index).shapes
  | flatDrop index => exact (s.flatDrop_state index).shapes
  | flatQuery index => exact .of_eq (congrArg State.canvas (s.flatQuery_state index) :)
  | scaleSet exposure value =>
    refine .of_eq ?_
    show (s.scaleSet exposure value).1.canvas = s.canvas
    unfold State.scaleSet
    split
    · rfl
    · dsimp only
      repeat' split
      all_goals rfl
  | canvasOpen width height order => exact .canvasOpen s width height order
  | canvasClose => exact .canvasClose s
  | cellRelease cell => exact .cellRelease s cell
  | cellQuery cell => exact .of_eq (congrArg State.canvas (s.cellQuery_state cell) :)
  | canvasAbandon => exact .canvasAbandon s
  | drainHold => exact .drainHold s
  | drainResume => exact .drainResume s
  | park => exact .park s
  | unpark =>
    refine .of_eq ?_
    show s.unpark.1.canvas = s.canvas
    unfold State.unpark
    split <;> rfl
  | noticeMask mask =>
    refine .of_eq ?_
    show (s.noticeMask mask).1.canvas = s.canvas
    unfold State.noticeMask
    split
    · rfl
    · rw [State.done_state, State.movePending]
  | clear =>
    have e : s.owner tag .clear = (s.generalClear (some tag), none) := by rw [State.owner]
    rw [e]
    dsimp only
    exact .generalClear s (some tag)
  | unknown _ => exact .refl s
  | badLength _ => exact .refl s
  | storeQuery => exact .refl s
  | status => exact .refl s

end Sys2Proof.Machine
end

section
/-!
PROOF. Every step keeps scales within their limits (R96), tags distinct (R35), the cell table shaped (R128) and named flats VALID (R75).
-/

namespace Sys2Proof.Machine

/-! ## The cell table -/

theorem Shapes.reply (s : State) (tag : Byte) (r : Request) : Shapes s (s.reply tag r).1 := by
  unfold State.reply
  split
  · exact .refl s
  · split
    · exact .refl s
    · exact .owner s tag r

theorem Shapes.handlerRun (s : State) : Shapes s s.handlerRun :=
  State.handlerRun_of (P := Shapes s) (fun _ tag r h => h.trans (.reply _ tag r)) (fun _ _ h => h) s (.refl s)

theorem Shapes.outboundGrant (s : State) : Shapes s s.outboundGrant :=
  .of_eq (congrArg State.canvas (Outbound.outboundGrant s).rest :)

theorem Shapes.pump (s : State) : Shapes s s.pump := ((Shapes.handlerRun s).trans (.outboundGrant _)).trans (.handlerRun _)

theorem Shapes.arrive (s : State) (tag : Byte) (r : Request) : Shapes s (s.arrive tag r) := by
  unfold State.arrive
  refine .trans ?_ (.pump _)
  split <;> exact .of_eq rfl

theorem Shapes.rxEvent (s : State) (e : RxEvent) : Shapes s (s.rxEvent e) := by
  cases e with
  | body bytes =>
    show Shapes s (match frameCheck bytes s.host.requests.length with
      | .error cause => s.lineError cause
      | .ok (kind, tag, payload) =>
        { s with host := { s.host with requests := s.host.requests ++ [(tag, readRequest kind payload)] } } : State)
    split <;> exact .of_eq rfl
  | discard cause => exact .of_eq rfl
  | clearSequence => exact .generalClear s none

theorem Shapes.rxBytes (bytes : List Byte) (s : State) : Shapes s (s.rxBytes bytes) := by
  refine .foldl (fun s b => ?_) bytes s
  have received : Shapes s { s with host := { s.host with rx := (s.host.rx.byte b).1 } } := .of_eq rfl
  unfold State.rxByte
  dsimp only
  split
  · exact received
  · exact (received.trans (.rxEvent _ _)).trans (.pump _)

theorem Shapes.signalGone (s : State) (l : Fin 12) : Shapes s (s.signalGone l) := by
  unfold State.signalGone
  dsimp only
  split
  · exact (PortSide.modPort s l _).shapes.trans (.loseLink _ l _ _ _ _)
  · exact (PortSide.modPort s l _).shapes

theorem PortSide.signalFound (s : State) (l : Fin 12) : PortSide s (s.signalFound l) := by
  unfold State.signalFound
  split
  · exact .refl s
  · exact (PortSide.modPort s l _).trans (.detect _ l)

theorem PortSide.wakeExpires (s : State) (l : Fin 12) : PortSide s (s.wakeExpires l) := by
  unfold State.wakeExpires
  split
  · exact ((PortSide.modPort s l _).trans (.setPortState _ l _ _ _)).trans (.detect _ l)
  · exact .refl s

theorem PortSide.relayExpires (s : State) (l : Fin 12) : PortSide s (s.relayExpires l) := by
  unfold State.relayExpires
  dsimp only
  split
  · exact .endRelay s l _ _
  · exact .refl s

theorem State.flatRunDone_canvas (s : State) : s.flatRunDone.canvas = s.canvas := by
  unfold State.flatRunDone
  split
  · rfl
  · split
    · rfl
    · rename_i j _ _ place vs rest _
      dsimp only
      split
      · exact (congrArg State.canvas (State.flatJobDone_rest { s with mem := s.mem.setFlatRun j.index place vs } j) :)
      · rfl

/-- A step in which something has ended on the line, and the host link goes on. -/
theorem Shapes.sent {s t : State} (h : Shapes { s with host := { s.host with line := none } } t) : Shapes s t.pump :=
  .trans (fun shaped => h shaped) (.pump t)

/-- The next state of a command that may find nothing to do. -/
theorem Shapes.of_ite {c : Prop} [Decidable c] {s t u : State} (h : (if c then (.next u : Answered) else .next s) = .next t)
    (hu : Shapes s u) : Shapes s t := by
  split at h
  · cases Host.Outcome.next.inj h
    exact hu
  · cases Host.Outcome.next.inj h
    exact .refl s

theorem Shapes.of_next {s x t : State} (h : (.next x : Answered) = .next t) (c : Shapes s x) : Shapes s t :=
  Host.Outcome.next.inj h ▸ c

/-- Every command keeps the cell table the size of the grid. -/
theorem exec_shapes {c : Instr} {s t : State} (h : exec c s = .next t) : Shapes s t := by
  cases hc : requestOf c with
  | some e =>
    rcases exec_request hc s with hr | ⟨_, _, _, hr⟩
    · exact .of_next (hr.symm.trans h) (.arrive s e.1 e.2)
    · exact .of_next (hr.symm.trans h) (.refl s)
  | none =>
    cases c with
    | powerOn => exact .of_next h (.of_idle rfl)
    | signalDetect link => exact .of_next h ((PortSide.signalFound s link).shapes.trans (.pump _))
    | signalLoss link => exact .of_next h (((Shapes.signalGone s link).trans (.settle _)).trans (.pump _))
    | wakeLimitExpiry link => exact .of_next h ((PortSide.wakeExpires s link).shapes.trans (.pump _))
    | cameraFrame link rising bytes => exact .of_next h (((Shapes.frameArrives s link rising bytes).trans (.settle _)).trans (.pump _))
    | relayTimeout link => exact .of_next h ((PortSide.relayExpires s link).shapes.trans (.pump _))
    | readoutStart link => exact .of_next h (((Shapes.readoutStart s link).trans (.settle _)).trans (.pump _))
    | readoutEnd link =>
      refine .of_next h ?_
      show Shapes s (if (s.port link).endAtHead then (s.intakeRun link).settle.pump else s)
      split
      · exact ((Shapes.intakeRun s link).trans (.settle _)).trans (.pump _)
      · exact .refl s
    | intakeRowWriteDone =>
      change execIntakeRowWriteDone s = _ at h
      unfold execIntakeRowWriteDone at h
      split at h
      · refine .of_next h ?_
        have freed : Shapes s s.freeStore := .of_eq rfl
        exact (((freed.trans (.writeRow _ _)).trans (.resumeLink _ _)).trans (.settle _)).trans (.pump _)
      · exact .of_next h (.refl s)
    | referenceBoxReadDone =>
      change execReferenceBoxReadDone s = _ at h
      unfold execReferenceBoxReadDone at h
      split at h
      · exact .of_next h ((Shapes.boxDone s _).trans (.pump _))
      · exact .of_next h (.refl s)
    | tileTake => exact .of_next h (((Inner.take s).shapes.trans (.settle _)).trans (.pump _))
    | placementRowDone =>
      change execPlacementRowDone s = _ at h
      unfold execPlacementRowDone at h
      split at h
      · rename_i ctx _
        have freed : Shapes s s.freeStore := .of_eq rfl
        exact .of_ite h (((freed.trans (.rowDone _ ctx)).trans (.settle _)).trans (.pump _))
      · exact .of_next h (.refl s)
    | readoutLimitExpiry slot => exact .of_next h ((Shapes.limitExpiry s slot).trans (.pump _))
    | drainTake => exact .of_next h ((Shapes.settle s).trans (.pump _))
    | drainBlockReadDone =>
      refine .of_ite h (.trans (.trans (.of_eq ?_) (.settle _)) (.pump _))
      unfold State.drainReadDone
      repeat' split
      all_goals rfl
    | pictureBlockEmitted =>
      change execPictureBlockEmitted s = _ at h
      unfold execPictureBlockEmitted at h
      split at h
      · refine .of_next h ?_
        dsimp only
        split
        · exact .sent ((Shapes.blockEmitted _).trans (.settle _))
        · exact .sent (.refl _)
      · exact .of_next h (.refl s)
    | zeroingDone => exact .of_ite h ((Shapes.zeroed s).trans (.pump _))
    | flatDataWriteDone => exact .of_ite h (((Shapes.of_eq s.freeStore.flatRunDone_canvas).trans (.grant _)).trans (.pump _))
    | refreshDone =>
      refine .of_next h ?_
      unfold State.refreshed
      split
      · refine .trans ?_ (.grant _)
        exact .of_eq rfl
      · exact .refl s
    | refreshIntervalExpiry =>
      refine .of_next h (.trans ?_ (.pump _))
      unfold State.refreshExpiry
      split
      · split
        · refine .trans ?_ (.grant _)
          exact .of_eq rfl
        · exact .of_eq rfl
      · exact .refl s
    | initComplete =>
      refine .of_next h (.trans ?_ (.pump _))
      unfold State.initDone
      split
      · exact .enterReady s false
      · exact .refl s
    | wakeComplete =>
      refine .of_next h (.trans ?_ (.pump _))
      unfold State.wakeDone
      split
      · exact .enterReady s true
      · exact .refl s
    | memoryGrant => exact .of_next h (.grant s)
    | hostFrame bytes => exact .of_next h (.rxBytes bytes s)
    | clearSequence =>
      have hunting : Shapes s { s with host := { s.host with rx := .hunting } } := .of_eq rfl
      exact .of_next (x := (State.generalClear { s with host := { s.host with rx := .hunting } } none).pump) h
        ((hunting.trans (.generalClear _ none)).trans (.pump _))
    | outboundGrant => exact .of_next h ((Shapes.outboundGrant s).trans (.handlerRun _))
    | messageSent =>
      change execMessageSent s = _ at h
      unfold execMessageSent at h
      split at h
      · exact .of_next h (.sent (.refl _))
      · exact .of_next h (.sent (.refl _))
      · exact .of_next h (.refl s)
    | pendingMove =>
      have moved : Shapes s s.movePending := .of_eq (by rw [State.movePending])
      exact .of_next h (moved.trans (.pump _))
    | hostFrameDiscard bytes => exact .of_next h (.rxBytes bytes s)
    | _ => cases hc

/-! ## Scales, tags and flats -/

/-- The laws of the exposure table and of the flat library. -/
def State.SlotLaws (s : State) : Prop := (∀ k, (s.slot k).ScaleLaw) ∧ s.TagsDistinct ∧ s.NamedFlatsValid

theorem State.SlotLaws.of_eq {s t : State} (h : s.SlotLaws) (slots : t.slots = s.slots) (cal : t.cal = s.cal)
    (flats : t.flats = s.flats) : t.SlotLaws := by
  have slot : ∀ k, t.slot k = s.slot k := fun k => by rw [State.slot, State.slot, slots]
  obtain ⟨scales, tags, valid⟩ := h
  refine ⟨fun k => slot k ▸ scales k, fun j k => ?_, fun i => ?_⟩
  · rw [slot, slot]
    exact tags j k
  · have := valid i
    simp only [State.flatNamed, State.segCal, State.flat, cal, flats] at this ⊢
    exact this

theorem Cascade.tagsDistinct {s t : State} (c : Cascade s t) (h : s.TagsDistinct) : t.TagsDistinct := by
  intro j k hj hk same
  refine h j k (fun free => hj ((c.slots j).free free)) (fun free => hk ((c.slots k).free free)) ?_
  rw [← (c.slots j).tag hj, ← (c.slots k).tag hk]
  exact same

theorem Arming.slotLaws {s t : State} (c : Arming s t) (h : s.SlotLaws) : t.SlotLaws := by
  obtain ⟨scales, tags, valid⟩ := h
  refine ⟨fun k => (c.rest.slots k).scale (scales k), c.rest.tagsDistinct tags, fun i named => ?_⟩
  have := valid i (c.named i named)
  rwa [State.flat, c.rest.flats]

theorem Cascade.slotLaws {s t : State} (c : Cascade s t) (h : s.SlotLaws) : t.SlotLaws := c.arming.slotLaws h

/-- R36. A FREE slot is filled with a tag that no slot carries, and a scale that is clamped. -/
theorem State.SlotLaws.setOpened {s : State} (h : s.SlotLaws) {k : Fin 4} {x : ExpSlot} (tag : x.exposure ≠ 0)
    (fresh : s.slotOf x.exposure = none) (law : x.ScaleLaw) : (s.setSlot k x).SlotLaws := by
  obtain ⟨scales, tags, valid⟩ := h
  have others : ∀ j, (s.slot j).state ≠ .free → (s.slot j).exposure ≠ x.exposure := fun j => State.slotOf_none_spec tag fresh j
  refine ⟨fun j => ?_, fun i j hi hj same => ?_, valid⟩
  · rw [State.slot_setSlot]
    split
    · exact law
    · exact scales j
  · rw [State.slot_setSlot] at hi hj same
    rw [State.slot_setSlot] at same
    split at hi <;> split at hj
    · exact ‹k = i›.symm.trans ‹k = j›
    · rw [if_pos ‹k = i›, if_neg ‹¬k = j›] at same
      exact absurd same.symm (others j hj)
    · rw [if_neg ‹¬k = i›, if_pos ‹k = j›] at same
      exact absurd same (others i hi)
    · rw [if_neg ‹¬k = i›, if_neg ‹¬k = j›] at same
      exact tags i j hi hj same

/-- A slot is replaced by one of the same state, tag and photometry fields. -/
theorem Cascade.setSlot_same {s : State} {k : Fin 4} {x : ExpSlot} (state : x.state = (s.slot k).state)
    (tag : x.exposure = (s.slot k).exposure) (photo : x.photo = (s.slot k).photo) (h : s.SlotLaws) : (s.setSlot k x).SlotLaws := by
  have kept : (s.setSlot k { x with placements := (s.slot k).placements }).SlotLaws :=
    (Cascade.setSlot s k { x with placements := (s.slot k).placements } (.same state tag rfl photo)).slotLaws h
  obtain ⟨scales, tags, valid⟩ := kept
  have slot : ∀ j, ((s.setSlot k x).slot j).state = ((s.setSlot k { x with placements := (s.slot k).placements }).slot j).state
      ∧ ((s.setSlot k x).slot j).exposure = ((s.setSlot k { x with placements := (s.slot k).placements }).slot j).exposure
      ∧ ((s.setSlot k x).slot j).photo = ((s.setSlot k { x with placements := (s.slot k).placements }).slot j).photo := fun j => by
    simp only [State.slot_setSlot]
    split <;> exact ⟨rfl, rfl, rfl⟩
  refine ⟨fun j live => ?_, fun i j hi hj same => ?_, valid⟩
  · rw [(slot j).2.2]
    exact scales j ((slot j).1 ▸ live)
  · rw [(slot i).2.1, (slot j).2.1] at same
    exact tags i j ((slot i).1 ▸ hi) ((slot j).1 ▸ hj) same

/-- R59, R75. A segment holds a record that names a VALID flat at most. -/
theorem State.SlotLaws.setHolding {s : State} (h : s.SlotLaws) (g : Fin 96) {r : CalRec}
    (valid : ∀ i, r.flat = some i → (s.flat i).state = .valid) :
    (s.setSegCal g { s.segCal g with holding := some r }).SlotLaws := by
  obtain ⟨scales, tags, named⟩ := h
  refine ⟨scales, tags, fun i hi => ?_⟩
  by_cases new : r.flat = some i
  · exact valid i new
  · refine named i (State.flatNamed_setSegCal (fun hn => ?_) hi)
    simp only [SegCal.namesFlat, SegCal.holdingNames, CalRec.names, Option.map_some, new, decide_false, Option.getD_some,
      Bool.false_or] at hn
    simp only [SegCal.namesFlat, Bool.or_eq_true]
    exact .inr hn

/-- R71 to R75. An entry changes that no record names: it is unprotected, or LOADING, and then not VALID. -/
theorem State.FlatChange.slotLaws {s t : State} (c : s.FlatChange t) (h : s.SlotLaws) : t.SlotLaws := by
  rcases c with rfl | ⟨i, e, free, rfl⟩
  · exact h
  · obtain ⟨scales, tags, valid⟩ := h
    refine ⟨scales, tags, fun j named => ?_⟩
    have named : s.flatNamed j = true := named
    rw [State.flat_setFlat]
    split
    · rename_i hij
      subst hij
      rcases free with unnamed | loading
      · rw [unnamed] at named
        cases named
      · rw [valid i named] at loading
        cases loading
    · exact valid j named

/-- R55, R77. After a general clear every slot is FREE, the active records are empty, and VALID flats stay. -/
theorem State.clearBlocks_slotLaws {s : State} (h : s.SlotLaws) : s.clearBlocks.SlotLaws := by
  have free : ∀ k, (s.clearBlocks.slot k).state = .free := fun k => by
    simp [State.slot, State.clearBlocks, State.reset, ExpSlot.empty]
  obtain ⟨_, _, valid⟩ := h
  refine ⟨fun k live => absurd (free k) live, fun j _ live => absurd (free j) live, fun i named => ?_⟩
  obtain ⟨g, hg⟩ := State.flatNamed_iff.1 named
  have held : (s.segCal g).namesFlat i = true := by
    simp only [State.segCal, State.clearBlocks, Fin.getElem_fin, Vector.getElem_map, SegCal.namesFlat, SegCal.holdingNames,
      SegCal.activeNames, SegCal.clear, Option.map_none, Option.getD_none, Bool.or_false] at hg
    simp only [SegCal.namesFlat, Bool.or_eq_true]
    exact .inl hg
  have old := valid i (State.flatNamed_iff.2 ⟨g, held⟩)
  have loaded : ¬(s.flat i).state = .loading := by rw [old]; exact nofun
  have entry : s.clearBlocks.flat i = (s.flat i).clear := by simp [State.flat, State.clearBlocks]
  rw [entry, FlatEntry.clear, if_neg loaded]
  exact old

theorem State.generalClear_slotLaws {s : State} (h : s.SlotLaws) (tag : Option Byte) : (s.generalClear tag).SlotLaws :=
  (Cascade.generalClear s tag).slotLaws (State.clearBlocks_slotLaws h)

theorem OwnerChange.slotLaws {s t : State} {a : Option Result} (c : OwnerChange s t a) (h : s.SlotLaws) : t.SlotLaws := by
  cases c with
  | cascade c => exact c.slotLaws h
  | free n => exact h.of_eq rfl rfl rfl
  | opened k m exposure scale lower upper attack decay quota nominal limit free tag fresh limits =>
    exact h.setOpened tag fresh fun _ => clampScale_mem limits scale
  | planned k p weight => exact Cascade.setSlot_same rfl rfl rfl h
  | loaded g r valid => exact h.setHolding g valid
  | armed c => exact c.slotLaws h
  | flat c => exact c.slotLaws h
  | busy job c => exact c.slotLaws (h.of_eq rfl rfl rfl)
  | stopped c c' => exact c'.slotLaws ((c.slotLaws h).of_eq rfl rfl rfl)
  | parked c c' => exact c'.slotLaws ((c.slotLaws h).of_eq rfl rfl rfl)
  | waking => exact h.of_eq rfl rfl rfl
  | masked mask => exact h.of_eq rfl rfl rfl
  | cleared tag => exact State.generalClear_slotLaws h tag

theorem Outbound.slotLaws {s t : State} (c : Outbound s t) (h : s.SlotLaws) : t.SlotLaws :=
  h.of_eq (congrArg State.slots c.rest :) (congrArg State.cal c.rest :) (congrArg State.flats c.rest :)

theorem State.handlerRun_slotLaws {s : State} (h : s.SlotLaws) : s.handlerRun.SlotLaws :=
  State.handlerRun_of (fun s tag r h => (s.reply_change tag r).slotLaws h) (fun _ _ h => h.of_eq rfl rfl rfl) s h

theorem State.pump_slotLaws {s : State} (h : s.SlotLaws) : s.pump.SlotLaws :=
  State.handlerRun_slotLaws ((Outbound.outboundGrant _).slotLaws (State.handlerRun_slotLaws h))

theorem State.arrive_slotLaws {s : State} (h : s.SlotLaws) (tag : Byte) (r : Request) : (s.arrive tag r).SlotLaws := by
  unfold State.arrive
  split
  · exact State.pump_slotLaws (h.of_eq rfl rfl rfl)
  · exact State.pump_slotLaws (h.of_eq rfl rfl rfl)

theorem State.rxEvent_slotLaws {s : State} (h : s.SlotLaws) (e : RxEvent) : (s.rxEvent e).SlotLaws := by
  cases e with
  | body bytes =>
    show (match frameCheck bytes s.host.requests.length with
      | .error cause => s.lineError cause
      | .ok (kind, tag, payload) =>
        { s with host := { s.host with requests := s.host.requests ++ [(tag, readRequest kind payload)] } } : State).SlotLaws
    split <;> exact h.of_eq rfl rfl rfl
  | discard cause => exact h.of_eq rfl rfl rfl
  | clearSequence => exact State.generalClear_slotLaws h none

theorem State.rxBytes_slotLaws (bytes : List Byte) {s : State} (h : s.SlotLaws) : (s.rxBytes bytes).SlotLaws := by
  unfold State.rxBytes
  induction bytes generalizing s with
  | nil => exact h
  | cons b bytes ih =>
    refine ih ?_
    have received : ∀ rx, State.SlotLaws { s with host := { s.host with rx := rx } } := fun _ => h.of_eq rfl rfl rfl
    unfold State.rxByte
    dsimp only
    split
    · exact received _
    · exact State.pump_slotLaws (State.rxEvent_slotLaws (received _) _)

/-- A flat entry that keeps its state. -/
theorem State.SlotLaws.setFlat {s : State} (h : s.SlotLaws) (i : Fin 24) {e : FlatEntry} (state : e.state = (s.flat i).state) :
    (s.setFlat i e).SlotLaws := by
  obtain ⟨scales, tags, valid⟩ := h
  refine ⟨scales, tags, fun j named => ?_⟩
  have old := valid j named
  rw [State.flat_setFlat]
  split
  · rename_i hij
    rw [state, hij]
    exact old
  · exact old

theorem State.flatRunDone_slotLaws {s : State} (h : s.SlotLaws) : s.flatRunDone.SlotLaws := by
  unfold State.flatRunDone
  split
  · exact h
  · split
    · exact h
    · rename_i j _ _ place vs rest _
      have written : State.SlotLaws { s with mem := s.mem.setFlatRun j.index place vs } := h.of_eq rfl rfl rfl
      dsimp only
      split
      · unfold State.flatJobDone State.queueAnswer
        dsimp only
        generalize ({ s with mem := s.mem.setFlatRun j.index place vs } : State) = u at written
        exact (written.setFlat j.index (e := { u.flat j.index with
          count := (u.flat j.index).count + j.values.length
          running := crc32More (u.flat j.index).running (flatBytes j.values) }) rfl).of_eq rfl rfl rfl
      · exact (Cascade.claim _ _).slotLaws (written.of_eq rfl rfl rfl)

theorem State.writeRow_slotLaws {s : State} (h : s.SlotLaws) (l : Fin 12) : (s.writeRow l).SlotLaws :=
  have rest := s.writeRow_rest l
  h.of_eq (congrArg State.slots rest :) (congrArg State.cal rest :) (congrArg State.flats rest :)

theorem State.judgeRow_slotLaws {s : State} (h : s.SlotLaws) (ctx : PlaceCtx) : (s.judgeRow ctx).SlotLaws :=
  have ⟨rest, _⟩ := s.judgeRow_rest ctx
  h.of_eq (congrArg State.slots rest :) (congrArg State.cal rest :) (congrArg State.flats rest :)

theorem State.zeroed_slotLaws {s : State} (h : s.SlotLaws) : s.zeroed.SlotLaws := by
  rcases s.zeroed_change with e | ⟨i, rest, _, c⟩
  · rw [e]
    exact h
  · exact c.slotLaws (h.of_eq rfl rfl rfl)

theorem State.refreshed_slotLaws {s : State} (h : s.SlotLaws) : s.refreshed.SlotLaws := by
  unfold State.refreshed
  split
  · exact (Cascade.grant _).slotLaws (h.of_eq rfl rfl rfl)
  · exact h

theorem State.refreshExpiry_slotLaws {s : State} (h : s.SlotLaws) : s.refreshExpiry.SlotLaws := by
  unfold State.refreshExpiry
  split
  · split
    · exact (Cascade.grant _).slotLaws (h.of_eq rfl rfl rfl)
    · exact h.of_eq rfl rfl rfl
  · exact h

/-- R32, R77 at power-on: every slot is FREE, and no record stands. -/
theorem State.reset_slotLaws : State.reset.SlotLaws := by
  have free : ∀ k, (State.reset.slot k).state = .free := fun k => by simp [State.slot, State.reset, ExpSlot.empty]
  refine ⟨fun k live => absurd (free k) live, fun j _ live => absurd (free j) live, fun i named => ?_⟩
  obtain ⟨g, hg⟩ := State.flatNamed_iff.1 named
  simp [State.segCal, State.reset, SegCal.reset, SegCal.namesFlat, SegCal.holdingNames, SegCal.activeNames] at hg

theorem StepChange.slotLaws {s t : State} (c : StepChange s t) (h : s.SlotLaws) : t.SlotLaws := by
  have freed : s.freeStore.SlotLaws := h.of_eq rfl rfl rfl
  cases c with
  | idle => exact h
  | powerOn => exact State.reset_slotLaws.of_eq rfl rfl rfl
  | arrived tag r => exact State.arrive_slotLaws h tag r
  | bytes bytes => exact State.rxBytes_slotLaws bytes h
  | granted c => exact c.slotLaws h
  | cascade c => exact State.pump_slotLaws (c.slotLaws h)
  | armed c => exact State.pump_slotLaws (c.slotLaws h)
  | written l c => exact State.pump_slotLaws (c.slotLaws (State.writeRow_slotLaws freed l))
  | placed ctx place c =>
    exact State.pump_slotLaws (c.slotLaws ((s.freeStore.rowDone_change ctx place).slotLaws (State.judgeRow_slotLaws freed ctx)))
  | zeroed => exact State.pump_slotLaws (State.zeroed_slotLaws h)
  | flatRun => exact State.pump_slotLaws ((Cascade.grant _).slotLaws (State.flatRunDone_slotLaws freed))
  | refreshed => exact State.refreshed_slotLaws h
  | interval => exact State.pump_slotLaws (State.refreshExpiry_slotLaws h)
  | ready c => exact State.pump_slotLaws (c.slotLaws (h.of_eq rfl rfl rfl))
  | cleared =>
    have hunting : State.SlotLaws { s with host := { s.host with rx := .hunting } } := h.of_eq rfl rfl rfl
    exact State.pump_slotLaws (State.generalClear_slotLaws hunting none)
  | served => exact State.handlerRun_slotLaws ((Outbound.outboundGrant s).slotLaws h)
  | sent c => exact State.pump_slotLaws (c.slotLaws (h.of_eq rfl rfl rfl))
  | moved => refine State.pump_slotLaws (h.of_eq ?_ ?_ ?_) <;> rw [State.movePending]

/-- Settles O59: scales are clamped wherever they are set, a tag is taken only where no slot carries it, cells are replaced in their
places, and a flat that a record names is changed by no request. -/
theorem stepsKeepTheRecordLaws : Obligations.StepsKeepTheRecordLaws := by
  rintro s t ⟨scales, tags, shaped, valid⟩ hs
  have slots : Kept State.SlotLaws := Kept.of_exec (fun _ _ h => h.of_eq rfl rfl rfl) fun _ _ h c => c.slotLaws h
  obtain ⟨scales', tags', valid'⟩ := slots s t ⟨scales, tags, valid⟩ hs
  refine ⟨scales', tags', ?_, valid'⟩
  unfold step at hs
  split at hs
  · exact Shapes.of_next hs (.refl s) shaped
  · exact exec_shapes hs shaped

/-- Settles O60: the reset state lists nothing, holds nothing queued, and has every slot FREE. -/
theorem resetKeepsTheLaws : Obligations.ResetKeepsTheLaws := by
  obtain ⟨scales, tags, valid⟩ := State.reset_slotLaws
  exact ⟨State.reset_memoryLaws, State.reset_hostLaws, scales, tags, rfl, valid⟩

end Sys2Proof.Machine
end

section
/-!
PROOF. The answer of a request command in a READY store, from its owner's reply; and the machine's own statements.
-/

namespace Sys2Proof.Machine

/-! ## Request commands -/

/-- A command of a named kind brings its request to the handler. -/
theorem exec_arrive {c : Instr} {tag : Byte} {r : Request} (command : requestOf c = some (tag, r)) (named : ∀ k, r ≠ .unknown k)
    (s : State) : exec c s = .next (s.arrive tag r) := by
  rcases exec_request command s with arrives | ⟨kind, unknown, _⟩
  · exact arrives
  · exact absurd unknown (named kind)

/-- A request its owner answers at once: the answer joins the queue, and the free line is granted. -/
theorem exec_of_reply {c : Instr} {tag : Byte} (r : Request) {s t : State} {result : Result} (hs : s.Ready)
    (owner : s.owner tag r = (t, some result)) (requests : t.host.requests = [])
    (command : requestOf c = some (tag, r) := by rfl) (named : ∀ k, r ≠ .unknown k := by nofun) :
    exec c s = .next (t.queueAnswer tag r.kind result).outboundGrant := by
  have served : s.serve tag r = t.queueAnswer tag r.kind result := by
    rw [State.serve, State.reply_eq_owner hs, owner]
  obtain ⟨-, idle, free⟩ := hs
  rw [exec_arrive command named s, s.arrive_served tag r idle free (by rw [served]; exact requests), served]

/-- A request its owner answers DONE. -/
theorem exec_of_done {c : Instr} {tag : Byte} (r : Request) {s t : State} {payload : List Byte} (hs : s.Ready)
    (owner : s.owner tag r = t.done payload) (requests : t.host.requests = [])
    (command : requestOf c = some (tag, r) := by rfl) (named : ∀ k, r ≠ .unknown k := by nofun) :
    exec c s = .next (t.answered tag r.kind payload) :=
  exec_of_reply r hs owner requests command named

/-- A request its owner answers DONE and leaves the state as it is. -/
theorem exec_of_read {c : Instr} {tag : Byte} (r : Request) {s : State} {payload : List Byte} (hs : s.Ready)
    (owner : s.owner tag r = s.done payload)
    (command : requestOf c = some (tag, r) := by rfl) (named : ∀ k, r ≠ .unknown k := by nofun) :
    exec c s = .next (s.answered tag r.kind payload) :=
  have ⟨_, requests, _⟩ := hs
  exec_of_reply r hs owner requests command named

/-- A request its owner refuses. -/
theorem exec_of_refused {c : Instr} {tag : Byte} (r : Request) {s : State} {why : RefuseReason} (hs : s.Ready)
    (owner : s.owner tag r = s.refuse why)
    (command : requestOf c = some (tag, r) := by rfl) (named : ∀ k, r ≠ .unknown k := by nofun) :
    exec c s = .next (s.turnedAway tag r.kind why) :=
  have ⟨_, requests, _⟩ := hs
  exec_of_reply r hs owner requests command named

/-- Every event has a next state. -/
theorem exec_event_next {c : Instr} (event : requestOf c = none) (s : State) : ∃ t, exec c s = .next t := by
  cases c with
  | intakeRowWriteDone =>
    show ∃ t, execIntakeRowWriteDone s = _
    unfold execIntakeRowWriteDone
    split <;> exact ⟨_, rfl⟩
  | referenceBoxReadDone =>
    show ∃ t, execReferenceBoxReadDone s = _
    unfold execReferenceBoxReadDone
    split <;> exact ⟨_, rfl⟩
  | placementRowDone =>
    show ∃ t, execPlacementRowDone s = _
    unfold execPlacementRowDone
    split
    · split <;> exact ⟨_, rfl⟩
    · exact ⟨_, rfl⟩
  | drainBlockReadDone =>
    show ∃ t, execDrainBlockReadDone s = _
    unfold execDrainBlockReadDone
    split <;> exact ⟨_, rfl⟩
  | zeroingDone =>
    show ∃ t, execZeroingDone s = _
    unfold execZeroingDone
    split <;> exact ⟨_, rfl⟩
  | flatDataWriteDone =>
    show ∃ t, execFlatDataWriteDone s = _
    unfold execFlatDataWriteDone
    split <;> exact ⟨_, rfl⟩
  | pictureBlockEmitted =>
    show ∃ t, execPictureBlockEmitted s = _
    unfold execPictureBlockEmitted
    split <;> exact ⟨_, rfl⟩
  | messageSent =>
    show ∃ t, execMessageSent s = _
    unfold execMessageSent
    split <;> exact ⟨_, rfl⟩
  | powerOn | signalDetect _ | signalLoss _ | wakeLimitExpiry _ | cameraFrame _ _ _ | relayTimeout _
  | readoutStart _ | readoutEnd _ | tileTake | readoutLimitExpiry _ | drainTake | refreshDone | refreshIntervalExpiry | initComplete
  | wakeComplete | memoryGrant | hostFrame _ | clearSequence | outboundGrant | pendingMove | hostFrameDiscard _ => exact ⟨_, rfl⟩
  | _ => cases event

/-! ## The machine -/

/-- Settles O1: a step is the front command's execution. -/
theorem stepRunsTheFrontCommand : Obligations.StepRunsTheFrontCommand := by
  intro c s rest queued
  rw [step, queued]

/-- Settles O2: an event has a next state, and so has the arrival of a request. -/
theorem everyCommandHasANextState : Obligations.EveryCommandHasANextState := by
  intro c s
  cases request : requestOf c with
  | none => exact exec_event_next request s
  | some e =>
    rcases exec_request (tag := e.1) (r := e.2) request s with arrives | ⟨_, _, _, idle⟩
    · exact ⟨_, arrives⟩
    · exact ⟨s, idle⟩

/-- Settles O3: the values are those of the reset state. -/
theorem powerOnResetsEveryBlock : Obligations.PowerOnResetsEveryBlock := by
  refine ⟨fun _ => rfl, ?_, ?_, ?_, ?_, rfl, ?_, rfl, rfl, rfl, rfl, rfl, rfl, rfl, rfl, rfl, rfl, rfl, rfl, rfl, rfl, rfl, rfl, rfl, rfl,
    rfl, rfl, rfl, rfl, ?_, rfl, ?_⟩
  · intro l
    have port : State.reset.port l = .reset := by simp [State.port, State.reset]
    rw [port]
    exact ⟨rfl, rfl, rfl, rfl, rfl, rfl, rfl, rfl, rfl, rfl, rfl, rfl, rfl, rfl, rfl, rfl, rfl, rfl, rfl, rfl, rfl⟩
  · intro g
    simp [State.segCal, State.reset, SegCal.reset]
  · intro i
    simp [State.flat, State.reset, FlatEntry.reset]
  · intro k
    simp [State.slot, State.reset, ExpSlot.empty]
  · intro t
    simp [State.tile, State.reset, Tile.empty]
  · intro k
    simp [HostLink.pendingOf, State.reset, HostLink.reset]
  · intro x
    cases x <;> rfl

end Sys2Proof.Machine
end

section
/-!
PROOF. The requests that read the part's records, and those that check their fields and replace one record.
-/

namespace Sys2Proof.Machine

theorem State.withLink_of_lt {s : State} {link : Nat} (h : link < 12) (f : Fin 12 → Reply) : s.withLink link f = f ⟨link, h⟩ :=
  dif_pos h

theorem State.withLink_of_not_lt {s : State} {link : Nat} (h : ¬link < 12) (f : Fin 12 → Reply) :
    s.withLink link f = s.refuse .badField :=
  dif_neg h

theorem State.withFlat_of_lt {s : State} {i : Nat} (h : i < 24) (f : Fin 24 → Reply) : s.withFlat i f = f ⟨i, h⟩ := dif_pos h

theorem State.withFlat_of_not_lt {s : State} {i : Nat} (h : ¬i < 24) (f : Fin 24 → Reply) : s.withFlat i f = s.refuse .badField :=
  dif_neg h

/-! ## Records read -/

theorem exec_hkRead {s : State} (tag : Byte) (link : Nat) (hs : s.Ready) :
    exec (.hkRead tag link) s = .next
      (if h : link < 12 then
        s.answered tag 0x06 (match (s.port ⟨link, h⟩).hk with
          | none => [0]
          | some c => [1] ++ c.words.flatMap code16 ++ [match c.zone with | .below => 0 | .above => 1 | .inside => 2])
      else s.turnedAway tag 0x06 .badField) := by
  split
  · next h =>
    refine (exec_of_read (.hkRead link) hs (dif_pos h)).trans ?_
    cases (s.port ⟨link, h⟩).hk with
    | none => rfl
    | some c =>
      obtain ⟨words, zone⟩ := c
      cases zone <;> rfl
  · next h => exact exec_of_refused (.hkRead link) hs (dif_neg h)

theorem exec_linkQuery {s : State} (tag : Byte) (link : Nat) (hs : s.Ready) :
    exec (.linkQuery tag link) s = .next
      (if h : link < 12 then s.answered tag 0x05 (s.port ⟨link, h⟩).content else s.turnedAway tag 0x05 .badField) := by
  split
  · next h => exact exec_of_read (.linkQuery link) hs (dif_pos h)
  · next h => exact exec_of_refused (.linkQuery link) hs (dif_neg h)

theorem exec_calQuery {s : State} (tag : Byte) (n : Nat) (hs : s.Ready) :
    exec (.calQuery tag n) s = .next
      (if h : n < 96 then
        let c := s.segCal ⟨n, h⟩
        let cfg := (s.port (linkOf ⟨n, h⟩)).cfg
        s.answered tag 0x10 (codePart (c.holding.map CalRec.code) ++ codePart (c.active.map CalRec.code) ++ codeFlag c.armed
          ++ code16 c.generation ++ matchCode c.active cfg ++ matchCode c.holding cfg)
      else s.turnedAway tag 0x10 .badField) := by
  split
  · next h => exact exec_of_read (.calQuery n) hs (dif_pos h)
  · next h => exact exec_of_refused (.calQuery n) hs (dif_neg h)

theorem exec_flatQuery {s : State} (tag : Byte) (n : Nat) (hs : s.Ready) :
    exec (.flatQuery tag n) s = .next
      (if h : n < 24 then
        let i : Fin 24 := ⟨n, h⟩
        let f := s.flat i
        s.answered tag 0x15 (code8 f.state.code
          ++ codePart (if f.state = .empty then none
              else some (code16 f.columns ++ code16 f.rows ++ code32 f.expected.toNat))
          ++ codePart (if f.state = .loading then some (code32 f.count ++ code32 f.running.toNat) else none)
          ++ segmentSet (fun g => (s.segCal g).holdingNames i) ++ segmentSet (fun g => (s.segCal g).activeNames i))
      else s.turnedAway tag 0x15 .badField) := by
  split
  · next h => exact exec_of_read (.flatQuery n) hs (dif_pos h)
  · next h => exact exec_of_refused (.flatQuery n) hs (dif_neg h)

theorem exec_exposureQuery {s : State} (tag : Byte) {exposure : Nat} {k : Fin 4} (hs : s.Ready) (slot : s.slotOf exposure = some k) :
    exec (.exposureQuery tag exposure) s = .next (State.answered
      { s with freeIndex := s.freeIndex + if (s.slot k).timer = .running then 1 else 0 } tag 0x0D (s.exposureContent k (s.slot k))) := by
  have ⟨_, requests, _⟩ := hs
  refine exec_of_done (.exposureQuery exposure) hs ?_ requests
  show s.exposureQuery exposure = _
  rw [State.exposureQuery, slot]

/-- The time remaining that stands in EXPOSURE_QUERY lies within the limit (R54). -/
theorem State.remaining_le (s : State) (x : ExpSlot) : s.remaining x ≤ x.limit * 1000 :=
  Nat.lt_succ_iff.1 (Nat.mod_lt _ (Nat.succ_pos _))

/-- Settles O13: each query finds its record and codes it. -/
theorem recordQueriesReadTheRecords : Obligations.RecordQueriesReadTheRecords := by
  refine ⟨fun s tag link hs => exec_hkRead tag link hs, fun s tag link hs => exec_linkQuery tag link hs,
    fun s tag n hs => ⟨exec_calQuery tag n hs, exec_flatQuery tag n hs⟩, fun s tag exposure k hs slot => ?_⟩
  refine ⟨s.remaining (s.slot k), _, s.remaining_le _, fun stopped => ?_, exec_exposureQuery tag hs slot⟩
  rw [if_neg stopped, Nat.add_zero]

theorem State.withCell_of {s : State} {i : Nat} {c : Cell} (inTable : i ≤ 1023) (open_ : s.canvas.state ≠ .idle)
    (cell : s.cell? i = some c) (f : Cell → Reply) : s.withCell i f = f c := by
  rw [State.withCell, if_neg (by omega), if_neg open_, cell]

theorem State.withCell_of_above {s : State} {i : Nat} (h : 1023 < i) (f : Cell → Reply) : s.withCell i f = s.refuse .badField :=
  if_pos h

theorem State.withCell_of_idle {s : State} {i : Nat} (h : i ≤ 1023) (idle : s.canvas.state = .idle) (f : Cell → Reply) :
    s.withCell i f = s.refuse .wrongState := by
  rw [State.withCell, if_neg (by omega), if_pos idle]

theorem State.withCell_of_outside {s : State} {i : Nat} (h : i ≤ 1023) (open_ : s.canvas.state ≠ .idle) (shaped : s.TableShaped)
    (outside : s.canvas.width * s.canvas.height ≤ i) (f : Cell → Reply) : s.withCell i f = s.refuse .badField := by
  have none : s.cell? i = none := List.getElem?_eq_none (shaped.symm ▸ outside)
  rw [State.withCell, if_neg (by omega), if_neg open_, none]

/-- STATUS is answered in every store state. -/
theorem State.reply_status (s : State) (tag : Byte) : s.reply tag .status = s.status := by
  have passed : s.store.state.refusal Request.status.kind = none := by cases s.store.state <;> rfl
  rw [State.reply, passed]
  · rfl
  · nofun

/-- Settles O7: STORE_QUERY and CELL_QUERY read a READY store, and STATUS is passed on in every store state. -/
theorem partQueriesReadTheState : Obligations.PartQueriesReadTheState := by
  intro s tag
  refine ⟨fun hs => exec_of_read .storeQuery hs rfl, fun hs shaped i => ⟨fun above => ?_, fun inTable idle => ?_,
    fun inTable open_ outside => ?_, fun c inTable open_ cell => ?_⟩, fun requests free => ?_⟩
  · exact exec_of_refused (.cellQuery i) hs (State.withCell_of_above above _)
  · exact exec_of_refused (.cellQuery i) hs (State.withCell_of_idle inTable idle _)
  · exact exec_of_refused (.cellQuery i) hs (State.withCell_of_outside inTable open_ shaped outside _)
  · exact exec_of_read (.cellQuery i) hs (State.withCell_of inTable open_ cell _)
  · rw [exec_arrive (r := .status) rfl nofun s]
    have served : (s.serve tag .status).host.requests = [] := by
      rw [State.serve, State.reply_status]
      exact requests
    rw [s.arrive_served tag .status requests free served, State.serve, State.reply_status]
    rfl

/-! ## Records replaced -/

theorem linkConfigOk_iff {slots active rows overscan missing low high warm : Nat} :
    linkConfigOk slots active rows overscan missing low high warm = true ↔
      slots ≤ 255 ∧ 64 ≤ active ∧ active ≤ 1024 ∧ active % 16 = 0 ∧ 64 ≤ rows ∧ rows ≤ 2048
        ∧ overscan ≤ 64 ∧ missing ≤ 255 ∧ low < high ∧ high ≤ 65535 ∧ 1 ≤ warm ∧ warm ≤ 16 := by
  simp [linkConfigOk, and_assoc]

/-- Settles O12: the link, the fields, the port's state, and then the set is replaced. -/
theorem linkConfigReplacesTheWholeSet : Obligations.LinkConfigReplacesTheWholeSet := by
  intro s tag link slots active rows overscan missing low high warm hs
  have ⟨_, requests, _⟩ := hs
  split
  · next h =>
    obtain ⟨inRange, fields⟩ := h
    have ok : ¬linkConfigOk slots active rows overscan missing low high warm = false := by
      rw [linkConfigOk_iff.2 fields]
      exact nofun
    have owner := State.withLink_of_lt (s := s) inRange fun l =>
      if linkConfigOk slots active rows overscan missing low high warm = false then s.refuse .badField
      else if (s.port l).state = .reading ∨ 0 < bufferedRows (s.port l).buffer then s.refuse .busy
      else State.done (s.modPort l fun p => { p with cfg :=
          { slots := BitVec.ofNat 8 slots, active := active, rows := rows, overscan := overscan, missing := missing,
            low := low, high := high, warm := warm } }) []
    rw [if_neg ok] at owner
    dsimp only
    split
    · next busy => exact exec_of_refused (.linkConfig link slots active rows overscan missing low high warm) hs (owner.trans (if_pos busy))
    · next free => exact exec_of_done (.linkConfig link slots active rows overscan missing low high warm) hs (owner.trans (if_neg free)) requests
  · next h =>
    refine exec_of_refused (.linkConfig link slots active rows overscan missing low high warm) hs ?_
    show s.linkConfig link slots active rows overscan missing low high warm = _
    by_cases inRange : link < 12
    · have bad : linkConfigOk slots active rows overscan missing low high warm = false :=
        Bool.eq_false_iff.2 fun ok => h ⟨inRange, linkConfigOk_iff.1 ok⟩
      exact (State.withLink_of_lt inRange _).trans (if_pos bad)
    · exact State.withLink_of_not_lt inRange _

/-- Settles O26: the value, then the state of the scale, are checked, and the clamped value is set. -/
theorem scaleSetClampsTheScale : Obligations.ScaleSetClampsTheScale := by
  intro s tag exposure value k hs slot
  have ⟨_, requests, _⟩ := hs
  have owner : s.owner tag (.scaleSet exposure value) = s.scaleSet exposure value := rfl
  rw [State.scaleSet, slot] at owner
  dsimp only at owner ⊢
  have range : scaleInRange value = false ↔ value < 256 ∨ 65536 < value := by
    rw [scaleInRange, decide_eq_false_iff_not]
    omega
  simp only [range] at owner
  split
  · next bad => exact exec_of_refused (.scaleSet exposure value) hs (owner.trans (if_pos bad))
  · next ok =>
    rw [if_neg ok] at owner
    split
    · next frozen => exact exec_of_refused (.scaleSet exposure value) hs (owner.trans (if_pos frozen))
    · next free => exact exec_of_done (.scaleSet exposure value) hs (owner.trans (if_neg free)) requests

theorem State.otherLoading_iff {s : State} {i : Fin 24} : s.otherLoading i = true ↔ ∃ j, j ≠ i ∧ (s.flat j).state = .loading := by
  simp [State.otherLoading, allFlats]

theorem exec_flatBegin {s : State} (tag : Byte) (n columns rows : Nat) (check : BitVec 32) (hs : s.Ready) :
    exec (.flatBegin tag n columns rows check) s = .next
      (if h : n < 24 ∧ 64 ≤ columns ∧ columns ≤ 1024 ∧ columns % 16 = 0 ∧ 64 ≤ rows ∧ rows ≤ 2048 then
        let i : Fin 24 := ⟨n, h.1⟩
        if s.flatNamed i = true then s.turnedAway tag 0x11 .isProtected
        else if ∃ j, j ≠ i ∧ (s.flat j).state = .loading then s.turnedAway tag 0x11 .busy
        else State.answered (s.setFlat i { state := .loading, columns := columns, rows := rows, expected := check, count := 0,
                                           running := 0 }) tag 0x11 []
      else s.turnedAway tag 0x11 .badField) := by
  have ⟨_, requests, _⟩ := hs
  split
  · next h =>
    obtain ⟨inRange, fields⟩ := h
    have owner : s.owner tag (.flatBegin n columns rows check) = s.flatBegin n columns rows check := rfl
    rw [State.flatBegin, State.withFlat_of_lt inRange, if_neg (by omega)] at owner
    simp only [State.otherLoading_iff] at owner
    dsimp only
    split
    · next named => exact exec_of_refused (.flatBegin n columns rows check) hs (owner.trans (if_pos named))
    · next unnamed =>
      rw [if_neg unnamed] at owner
      split
      · next busy => exact exec_of_refused (.flatBegin n columns rows check) hs (owner.trans (if_pos busy))
      · next free => exact exec_of_done (.flatBegin n columns rows check) hs (owner.trans (if_neg free)) requests
  · next h =>
    refine exec_of_refused (.flatBegin n columns rows check) hs ?_
    show s.flatBegin n columns rows check = _
    by_cases inRange : n < 24
    · exact (State.withFlat_of_lt inRange _).trans (if_pos (by omega))
    · exact State.withFlat_of_not_lt inRange _

theorem exec_flatEnd {s : State} (tag : Byte) (n : Nat) (hs : s.Ready) :
    exec (.flatEnd tag n) s = .next
      (if h : n < 24 then
        let i : Fin 24 := ⟨n, h⟩
        let f := s.flat i
        if f.state ≠ .loading then s.turnedAway tag 0x13 .wrongState
        else if f.count = f.columns * f.rows ∧ f.running = f.expected then
          State.answered (s.setFlat i { f with state := .valid, count := 0, running := 0 }) tag 0x13 []
        else State.turnedAway (s.setFlat i .reset) tag 0x13 .checkFailed
      else s.turnedAway tag 0x13 .badField) := by
  have ⟨_, requests, _⟩ := hs
  split
  · next h =>
    have owner : s.owner tag (.flatEnd n) = s.flatEnd n := rfl
    rw [State.flatEnd, State.withFlat_of_lt h] at owner
    dsimp only at owner ⊢
    split
    · next idle => exact exec_of_refused (.flatEnd n) hs (owner.trans (if_pos idle))
    · next loading =>
      rw [if_neg loading] at owner
      split
      · next sound => exact exec_of_done (.flatEnd n) hs (owner.trans (if_pos sound)) requests
      · next unsound => exact exec_of_reply (.flatEnd n) hs (owner.trans (if_neg unsound)) requests
  · next h => exact exec_of_refused (.flatEnd n) hs (dif_neg h)

/-- R75. A flat is named by the holding or the active record of some segment. -/
theorem State.flatNamed_iff_record {s : State} {i : Fin 24} : s.flatNamed i = true ↔
    ∃ g : Fin 96, (∃ r, (s.segCal g).holding = some r ∧ r.flat = some i) ∨ (∃ r, (s.segCal g).active = some r ∧ r.flat = some i) := by
  rw [State.flatNamed_iff]
  refine exists_congr fun g => ?_
  rw [SegCal.namesFlat, SegCal.holdingNames, SegCal.activeNames, Bool.or_eq_true]
  have names : ∀ o : Option CalRec, (o.map fun r => r.names i).getD false = true ↔ ∃ r, o = some r ∧ r.flat = some i := by
    intro o
    cases o <;> simp [CalRec.names]
  exact or_congr (names _) (names _)

theorem exec_flatDrop {s : State} (tag : Byte) (n : Nat) (hs : s.Ready) :
    exec (.flatDrop tag n) s = .next
      (if h : n < 24 then
        if s.flatNamed ⟨n, h⟩ = true then s.turnedAway tag 0x14 .isProtected
        else State.answered (s.setFlat ⟨n, h⟩ .reset) tag 0x14 []
      else s.turnedAway tag 0x14 .badField) := by
  have ⟨_, requests, _⟩ := hs
  split
  · next h =>
    have owner : s.owner tag (.flatDrop n) = s.flatDrop n := rfl
    rw [State.flatDrop, State.withFlat_of_lt h] at owner
    split
    · next named => exact exec_of_refused (.flatDrop n) hs (owner.trans (if_pos named))
    · next unnamed => exact exec_of_done (.flatDrop n) hs (owner.trans (if_neg unnamed)) requests
  · next h => exact exec_of_refused (.flatDrop n) hs (dif_neg h)

/-- Settles O30: the checks in order, request by request. -/
theorem flatUploadsAreChecked : Obligations.FlatUploadsAreChecked := by
  refine ⟨fun s tag n columns rows check hs => exec_flatBegin tag n columns rows check hs,
    fun s tag n hs => exec_flatEnd tag n hs, fun s tag n hs => ?_⟩
  rw [exec_flatDrop tag n hs]
  simp only [State.flatNamed_iff_record]
  rfl

/-! ## Effective weights -/

/-- The sum and quotient of whole numbers, rounded half up, as a floor of rationals (R113). -/
theorem round_sixteenth (n : Nat) : (((n + 8) / 16 : Nat) : Int) = ⌊(n : ℚ) / 16 + 1 / 2⌋ := by
  have whole : (n : ℚ) / 16 + 1 / 2 = ((n + 8 : Nat) : ℚ) / ((16 : Nat) : ℚ) := by
    push_cast
    ring
  rw [whole, Rat.floor_natCast_div_natCast]
  rfl

/-- Settles O38: the product in sixteenths is rounded half up, and is 1 at least. -/
theorem warmTilesWeighLess : Obligations.WarmTilesWeighLess := by
  intro weight factor _ _ _ _
  have product : (weight : ℚ) / 16 * (factor / 16) * 16 + 1 / 2 = ((weight * factor : Nat) : ℚ) / 16 + 1 / 2 := by
    push_cast
    ring
  have bound : weight * factor ≤ 255 * 16 := Nat.mul_le_mul ‹_› ‹_›
  refine ⟨rfl, ?_, Nat.le_max_left _ _, ?_⟩
  · rw [product, ← round_sixteenth]
    exact Nat.cast_max ..
  · show max 1 ((weight * factor + 8) / 16) ≤ 255
    omega

end Sys2Proof.Machine
end

section
/-!
PROOF. The operations of one link port, each as the port and the host link it leaves; and the step that a camera frame makes of it.
-/

namespace Sys2Proof.Machine

theorem satAdd_eq_min (top a b : Nat) : satAdd top a b = min top (a + b) := by
  rw [satAdd]
  split <;> omega

/-! ## One port and the host link -/

/-- The state with one port and the host link replaced. -/
def State.onPort (s : State) (l : Fin 12) (p : Port) (h : HostLink) : State := { s.setPort l p with host := h }

section
variable (s : State) (l : Fin 12) (p q : Port) (h g : HostLink)

@[simp] theorem State.onPort_port_self : (s.onPort l p h).port l = p := by
  show (s.setPort l p).port l = p
  rw [State.port_setPort, if_pos rfl]

theorem State.onPort_port_ne {j : Fin 12} (hj : j ≠ l) : (s.onPort l p h).port j = s.port j := by
  show (s.setPort l p).port j = s.port j
  rw [State.port_setPort, if_neg (Ne.symm hj)]

@[simp] theorem State.onPort_host : (s.onPort l p h).host = h := rfl
@[simp] theorem State.onPort_store : (s.onPort l p h).store = s.store := rfl

@[simp] theorem State.setPort_setPort : (s.setPort l p).setPort l q = s.setPort l q := by
  simp [State.setPort, Vector.set_set]

@[simp] theorem State.setPort_port : s.setPort l (s.port l) = s := by
  have same : s.ports.set l.val (s.port l) l.isLt = s.ports := Vector.set_getElem_self ..
  rw [State.setPort, same]

@[simp] theorem State.onPort_onPort : (s.onPort l p h).onPort l q g = s.onPort l q g := by
  show ({ (s.setPort l p).setPort l q with host := g } : State) = _
  rw [State.setPort_setPort]
  rfl

theorem State.onPort_self : s.onPort l (s.port l) s.host = s := by
  rw [State.onPort, State.setPort_port]

theorem State.setPort_eq_onPort : s.setPort l p = s.onPort l p s.host := rfl
theorem State.modPort_eq_onPort (f : Port → Port) : s.modPort l f = s.onPort l (f (s.port l)) s.host := rfl

@[simp] theorem State.onPort_setPort : (s.onPort l p h).setPort l q = s.onPort l q h := State.onPort_onPort s l p q h h

@[simp] theorem State.onPort_modPort (f : Port → Port) : (s.onPort l p h).modPort l f = s.onPort l (f p) h := by
  rw [State.modPort_eq_onPort, State.onPort_onPort, State.onPort_port_self, State.onPort_host]

@[simp] theorem State.onPort_raise (k : NoticeKind) (c : List Byte) :
    (s.onPort l p h).raise k c = s.onPort l p (h.raise k c) := rfl

end

/-- The notices of a change of port state (R1): LINK_STATE, where the state changes. -/
def HostLink.told (h : HostLink) (l : Fin 12) (p : Port) (st : PortState) (reason : Option FaultReason) (cause : LinkCause) : HostLink :=
  if p.state = st then h
  else h.raise .linkState (code8 l.val ++ portCode p.state p.reason ++ portCode st reason ++ code8 cause.code)

@[simp] theorem HostLink.raise_requests (h : HostLink) (k : NoticeKind) (c : List Byte) : (h.raise k c).requests = h.requests := by
  unfold HostLink.raise
  split <;> rfl

@[simp] theorem HostLink.told_requests (h : HostLink) (l : Fin 12) (p : Port) (st : PortState) (reason : Option FaultReason)
    (cause : LinkCause) : (h.told l p st reason cause).requests = h.requests := by
  unfold HostLink.told
  split
  · rfl
  · exact h.raise_requests _ _

section
variable (s : State) (l : Fin 12)

theorem State.setPortState_eq (st : PortState) (reason : Option FaultReason) (cause : LinkCause) :
    s.setPortState l st reason cause
      = s.onPort l { s.port l with state := st, reason := reason } (s.host.told l (s.port l) st reason cause) := by
  unfold State.setPortState HostLink.told
  dsimp only
  split <;> rfl

theorem State.endRelay_eq (r : Relay) (o : RelayOutcome) :
    s.endRelay l r o = s.onPort l { s.port l with relay := r.ended } (s.host.raise .relayDone (r.doneContent l o)) := rfl

theorem State.portFault_eq : s.portFault l =
    s.onPort l { s.port l with hkPart := [], state := .fault, reason := some .align }
      ((s.host.told l { s.port l with hkPart := [] } .fault (some .align) .alignFail).raise .faultLink
        (code8 l.val ++ code8 0 ++ code8 (s.port l).tap)) := by
  simp only [State.portFault, State.modPort_eq_onPort, State.setPortState_eq, State.onPort_port_self, State.onPort_host,
    State.onPort_onPort, State.onPort_raise]

theorem State.relayIdle_of_idle (idle : (s.port l).relay.phase = .idle) : s.relayIdle l = s := by
  have still : (s.port l).relay.inFlight = false := by
    rw [Relay.inFlight, decide_eq_false_iff_not]
    exact fun flight => flight idle
  rw [State.relayIdle, still]
  rfl

theorem Relay.inFlight_of {r : Relay} (flight : r.phase ≠ .idle) : r.inFlight = true := decide_eq_true flight

/-- The relay after one more frame without progress, and the host link (R29). -/
def Relay.afterIdle (r : Relay) (l : Fin 12) (h : HostLink) : Relay × HostLink :=
  let counted := { r with idleFrames := r.idleFrames + 1 }
  if r.timeout ≤ r.idleFrames + 1 then (counted.ended, h.raise .relayDone (counted.doneContent l .timeout)) else (counted, h)

theorem State.relayIdle_of_flight (flight : (s.port l).relay.phase ≠ .idle) :
    s.relayIdle l = s.onPort l { s.port l with relay := ((s.port l).relay.afterIdle l s.host).1 }
      ((s.port l).relay.afterIdle l s.host).2 := by
  rw [State.relayIdle, if_pos (Relay.inFlight_of flight), Relay.afterIdle]
  dsimp only
  split <;> rfl

theorem State.relayFrame_of_idle (m : Marker) (b : Byte) (idle : (s.port l).relay.phase = .idle) : s.relayFrame l m b = s := by
  have still : (s.port l).relay.inFlight = false := by
    rw [Relay.inFlight, decide_eq_false_iff_not]
    exact fun flight => flight idle
  rw [State.relayFrame, still]
  rfl

theorem State.relayFrame_of_flight (m : Marker) (b : Byte) (flight : (s.port l).relay.phase ≠ .idle) :
    s.relayFrame l m b = match (s.port l).relay.mark m b with
      | .ignored => s.relayIdle l
      | .progress r => s.modPort l fun p => { p with relay := { r with idleFrames := 0 } }
      | .ends r o => s.endRelay l (r.endCount o) o := by
  unfold State.relayFrame
  exact if_pos (Relay.inFlight_of flight)

theorem State.sendLane_eq (sends : (s.port l).state.sends = .idleFrames) :
    s.sendLane l = s.onPort l { s.port l with lane := some (s.port l).relay.lane
                                              relay := { (s.port l).relay with abortOwed := false } } s.host := by
  rw [State.sendLane, if_pos sends]
  rfl

theorem Relay.lane_of_idle {r : Relay} (idle : r.phase = .idle) (owed : r.abortOwed = false) : r.lane = (.none, 0) := by
  unfold Relay.lane
  rw [owed, idle]
  rfl

/-- The lane of a port with no relay in flight and no abort owed carries nothing, and the port keeps all else. -/
theorem State.sendLane_of_idle (sends : (s.port l).state.sends = .idleFrames) (idle : (s.port l).relay.phase = .idle)
    (owed : (s.port l).relay.abortOwed = false) :
    s.sendLane l = s.onPort l { s.port l with lane := some (.none, 0) } s.host := by
  rw [State.sendLane_eq s l sends, Relay.lane_of_idle idle owed]
  congr 2
  rw [← owed]

end

/-! ## What a relay or the assembler may change in a port -/

/-- `q` is `p` but for its relay and its housekeeping. -/
def Port.LaneChange (p q : Port) : Prop := ∃ part hk relay, q = { p with hkPart := part, hk := hk, relay := relay }

theorem Port.LaneChange.trans {p q r : Port} (a : p.LaneChange q) (b : q.LaneChange r) : p.LaneChange r := by
  obtain ⟨_, _, _, rfl⟩ := a
  obtain ⟨part, hk, relay, rfl⟩ := b
  exact ⟨part, hk, relay, rfl⟩

theorem Port.LaneChange.refl (p : Port) : p.LaneChange p := ⟨p.hkPart, p.hk, p.relay, rfl⟩

/-- `t` differs from `s` at most in one port's relay and housekeeping, and in notices raised. -/
def State.LaneStep (l : Fin 12) (s t : State) : Prop :=
  ∃ q h, t = s.onPort l q h ∧ (s.port l).LaneChange q ∧ h.requests = s.host.requests

theorem State.LaneStep.trans {l : Fin 12} {s t u : State} (a : State.LaneStep l s t) (b : State.LaneStep l t u) :
    State.LaneStep l s u := by
  obtain ⟨q, h, rfl, keeps, requests⟩ := a
  obtain ⟨q', h', rfl, keeps', requests'⟩ := b
  rw [State.onPort_port_self] at keeps'
  exact ⟨q', h', State.onPort_onPort .., keeps.trans keeps', requests'.trans requests⟩

theorem State.LaneStep.refl (l : Fin 12) (s : State) : State.LaneStep l s s :=
  ⟨s.port l, s.host, (s.onPort_self l).symm, .refl _, rfl⟩

section
variable (l : Fin 12) (s : State)

theorem State.LaneStep.setRelay (r : Relay) : State.LaneStep l s (s.modPort l fun p => { p with relay := r }) :=
  ⟨_, _, rfl, ⟨_, _, r, rfl⟩, rfl⟩

theorem State.LaneStep.endRelay (r : Relay) (o : RelayOutcome) : State.LaneStep l s (s.endRelay l r o) :=
  ⟨_, _, rfl, ⟨_, _, r.ended, rfl⟩, HostLink.raise_requests ..⟩

theorem State.LaneStep.relayIdle : State.LaneStep l s (s.relayIdle l) := by
  unfold State.relayIdle
  dsimp only
  split
  · split
    · exact .endRelay l s _ _
    · exact .setRelay l s _
  · exact .refl l s

theorem State.LaneStep.relayFrame (m : Marker) (b : Byte) : State.LaneStep l s (s.relayFrame l m b) := by
  unfold State.relayFrame
  dsimp only
  split
  · split
    · exact .relayIdle l s
    · exact .setRelay l s _
    · exact .endRelay l s _ _
  · exact .refl l s

theorem State.LaneStep.setHk {q : Port} (keeps : (s.port l).LaneChange q) : State.LaneStep l s (s.setPort l q) :=
  ⟨q, s.host, rfl, keeps, rfl⟩

theorem State.LaneStep.hkWord (index value : Nat) : State.LaneStep l s (s.hkWord l index value) := by
  unfold State.hkWord
  dsimp only
  split
  · exact .setHk l s ⟨_, _, _, rfl⟩
  · split
    · split
      · unfold State.hkComplete
        dsimp only
        split
        · exact ⟨_, _, rfl, ⟨_, _, _, rfl⟩, HostLink.raise_requests ..⟩
        · exact .setHk l s ⟨_, _, _, rfl⟩
      · exact .setHk l s ⟨_, _, _, rfl⟩
    · exact .setHk l s ⟨_, _, _, rfl⟩

/-- R6. A good frame is counted, and changes beside that the relay and the housekeeping of its port at most. -/
theorem State.goodFrame_step (bytes : List Byte) :
    State.LaneStep l (s.modPort l fun p => { p with good := satAdd Config.sat32 p.good 1 }) (s.goodFrame l bytes) := by
  unfold State.goodFrame
  have word := State.LaneStep.hkWord l (s.modPort l fun p => { p with good := satAdd Config.sat32 p.good 1 })
    (bytes.getD 6 0).toNat (word16 bytes 7)
  dsimp only
  split
  · exact word.trans (.relayFrame l _ _ _)
  · exact word.trans (.relayIdle l _)

end

/-- A good frame's port: the good counter rises, and all but relay and housekeeping is as it was. -/
theorem State.goodFrame_eq (s : State) (l : Fin 12) (bytes : List Byte) : ∃ part hk relay h, s.goodFrame l bytes
      = s.onPort l { s.port l with good := min 4294967295 ((s.port l).good + 1), hkPart := part, hk := hk, relay := relay } h
    ∧ h.requests = s.host.requests := by
  obtain ⟨q, h, e, ⟨part, hk, relay, rfl⟩, requests⟩ := State.goodFrame_step l s bytes
  rw [State.modPort_eq_onPort, State.onPort_onPort, State.onPort_port_self, satAdd_eq_min] at e
  exact ⟨part, hk, relay, h, e, requests⟩

/-! ## The end of an event -/

/-- `t` differs from `s` at most in the canvas side: what the drain's taking of a cell and a memory grant change. -/
structure Settled (s t : State) : Prop where
  rest : { t with canvas := s.canvas, drain := s.drain, store := s.store, place := s.place } = s

theorem Settled.refl (s : State) : Settled s s := ⟨rfl⟩

theorem Settled.trans {s t u : State} (a : Settled s t) (b : Settled t u) : Settled s u where
  rest := by
    have hb := congrArg (fun x : State => ({ x with canvas := s.canvas, drain := s.drain, store := s.store, place := s.place } : State))
      b.rest
    exact hb.trans a.rest

theorem Settled.markPlacement (s : State) : Settled s s.markPlacement := by
  unfold State.markPlacement
  split
  · split
    · exact ⟨rfl⟩
    · exact .refl s
  · exact .refl s

theorem Settled.grant (s : State) : Settled s s.grant := by
  have granted : Settled s { s with store := s.store.grant } := ⟨rfl⟩
  exact granted.trans (.markPlacement _)

theorem Settled.drainTake (s : State) : Settled s s.drainTake := by
  unfold State.drainTake
  split
  · split
    · unfold State.drainCell
      dsimp only
      split <;> exact ⟨rfl⟩
    · exact .refl s
  · exact .refl s

theorem Settled.settle (s : State) : Settled s s.settle := (Settled.drainTake s).trans (.grant _)

theorem Settled.ports {s t : State} (h : Settled s t) : t.ports = s.ports := (congrArg State.ports h.rest :)
theorem Settled.host {s t : State} (h : Settled s t) : t.host = s.host := (congrArg State.host h.rest :)
theorem Settled.tiles {s t : State} (h : Settled s t) : t.tiles = s.tiles := (congrArg State.tiles h.rest :)
theorem Settled.slots {s t : State} (h : Settled s t) : t.slots = s.slots := (congrArg State.slots h.rest :)

theorem Settled.port {s t : State} (h : Settled s t) (l : Fin 12) : t.port l = s.port l := by
  rw [State.port, h.ports, State.port]

theorem State.LinkFrame.trans {s t u : State} (a : s.LinkFrame t) (b : t.LinkFrame u) : s.LinkFrame u := by
  have hb := congrArg (fun x : State => ({ x with ports := s.ports, host := s.host, canvas := s.canvas, drain := s.drain,
                                                  store := s.store, place := s.place } : State)) b
  exact hb.trans a

theorem State.LinkFrame.onPort (s : State) (l : Fin 12) (p : Port) (h : HostLink) : s.LinkFrame (s.onPort l p h) := rfl

theorem Settled.linkFrame {s t : State} (h : Settled s t) : s.LinkFrame t :=
  (congrArg (fun x : State => ({ x with ports := s.ports, host := s.host } : State)) h.rest :)

theorem Outbound.linkFrame {s t : State} (h : Outbound s t) : s.LinkFrame t :=
  (congrArg (fun x : State => ({ x with ports := s.ports, canvas := s.canvas, drain := s.drain, store := s.store,
                                         place := s.place } : State)) h.rest :)

theorem Outbound.port {s t : State} (h : Outbound s t) (l : Fin 12) : t.port l = s.port l := by
  have ports : t.ports = s.ports := (congrArg State.ports h.rest :)
  rw [State.port, ports, State.port]

/-- An event that ends with one port and the host link replaced, the grants and takes after it, and no request waiting. -/
theorem State.onPort_settled (s : State) (l : Fin 12) (q : Port) (h : HostLink) :
    let u := (s.onPort l q h).settle
    u.port l = q ∧ u.host = h ∧ (∀ j, j ≠ l → u.port j = s.port j) ∧ s.LinkFrame u := by
  have settled := Settled.settle (s.onPort l q h)
  refine ⟨(settled.port l).trans (State.onPort_port_self ..), settled.host, fun j hj => ?_,
    (State.LinkFrame.onPort s l q h).trans settled.linkFrame⟩
  exact (settled.port j).trans (State.onPort_port_ne _ _ _ _ hj)

/-- A frame that leaves the part with no request waiting: the grants and takes, then the outbound grant. -/
theorem exec_cameraFrame {s : State} {l : Fin 12} {rising : Bool} {bytes : List Byte} {q : Port} {h : HostLink}
    (arrives : s.frameArrives l rising bytes = s.onPort l q h) (idle : h.requests = []) :
    exec (.cameraFrame l rising bytes) s = .next ((s.onPort l q h).settle).outboundGrant := by
  show Host.Outcome.next (s.frameArrives l rising bytes).settle.pump = _
  rw [arrives]
  have requests : (s.onPort l q h).settle.host.requests = [] := by rw [(Settled.settle _).host]; exact idle
  rw [State.pump_idle _ requests]

theorem exec_cameraFrame_reaches {s : State} {l : Fin 12} {rising : Bool} {bytes : List Byte} {q : Port} {h : HostLink}
    (arrives : s.frameArrives l rising bytes = s.onPort l q h) (idle : h.requests = []) :
    ∃ u : State, exec (.cameraFrame l rising bytes) s = .next u.outboundGrant ∧ u.port l = q ∧ u.host = h
      ∧ (∀ j, j ≠ l → u.port j = s.port j) ∧ s.LinkFrame u :=
  ⟨_, exec_cameraFrame arrives idle, s.onPort_settled l q h⟩

theorem exec_cameraFrame_leaves {s : State} {l : Fin 12} {rising : Bool} {bytes : List Byte} {q : Port} {h : HostLink}
    (arrives : s.frameArrives l rising bytes = s.onPort l q h) (idle : h.requests = []) :
    ∃ t : State, exec (.cameraFrame l rising bytes) s = .next t ∧ t.port l = q
      ∧ (∀ j, j ≠ l → t.port j = s.port j) ∧ s.LinkFrame t := by
  obtain ⟨u, run, port, _, others, frame⟩ := exec_cameraFrame_reaches (rising := rising) arrives idle
  have granted := Outbound.outboundGrant u
  exact ⟨_, run, (granted.port l).trans port, fun j hj => (granted.port j).trans (others j hj), frame.trans granted.linkFrame⟩

end Sys2Proof.Machine
end

section
/-!
PROOF. The camera links: detection, training and lock, bad frames, and the relay lane.
-/

namespace Sys2Proof.Machine

/-! ## Detection -/

theorem State.detect_of {s : State} {l : Fin 12} (down : (s.port l).state = .down) (signal : (s.port l).signal = true)
    (ready : s.store.state = .ready) : s.detect l = (s.modPort l Port.woken).setPortState l .waking none .signal :=
  if_pos ⟨down, signal, ready⟩

theorem State.detect_still {s : State} {l : Fin 12}
    (still : (s.port l).state ≠ .down ∨ (s.port l).signal = false ∨ s.store.state ≠ .ready) : s.detect l = s := by
  refine if_neg fun ⟨down, signal, ready⟩ => ?_
  rcases still with up | dark | busy
  · exact up down
  · rw [signal] at dark
    cases dark
  · exact busy ready

/-- The port as it goes to DOWN from WAKING or OFF (R2, R3). -/
def State.toDown (s : State) (l : Fin 12) (cause : LinkCause) : State :=
  (s.modPort l fun p => { p.dropped with hkPart := [] }).setPortState l .down none cause

theorem State.toDown_eq (s : State) (l : Fin 12) (cause : LinkCause) : s.toDown l cause =
    s.onPort l { (s.port l).dropped with hkPart := [], state := .down, reason := none }
      (s.host.told l { (s.port l).dropped with hkPart := [] } .down none cause) := by
  simp only [State.toDown, State.modPort_eq_onPort, State.setPortState_eq, State.onPort_port_self, State.onPort_host,
    State.onPort_onPort]

@[simp] theorem State.toDown_signal (s : State) (l : Fin 12) (cause : LinkCause) :
    ((s.toDown l cause).port l).signal = (s.port l).signal := by
  rw [State.toDown_eq, State.onPort_port_self]
  rfl

theorem State.toDown_state (s : State) (l : Fin 12) (cause : LinkCause) : ((s.toDown l cause).port l).state = .down := by
  rw [State.toDown_eq, State.onPort_port_self]

@[simp] theorem State.toDown_store (s : State) (l : Fin 12) (cause : LinkCause) : (s.toDown l cause).store = s.store := by
  rw [State.toDown_eq]
  rfl

@[simp] theorem State.toDown_requests (s : State) (l : Fin 12) (cause : LinkCause) :
    (s.toDown l cause).host.requests = s.host.requests := by
  rw [State.toDown_eq, State.onPort_host, HostLink.told_requests]

@[simp] theorem State.setPortState_requests (s : State) (l : Fin 12) (st : PortState) (reason : Option FaultReason) (cause : LinkCause) :
    (s.setPortState l st reason cause).host.requests = s.host.requests := by
  rw [State.setPortState_eq, State.onPort_host, HostLink.told_requests]

section
variable {s : State} {l : Fin 12}

theorem exec_signalDetect_of (dark : (s.port l).signal = false)
    {t : State} (detect : (s.modPort l fun p => { p with signal := true }).detect l = t) (idle : t.host.requests = []) :
    exec (.signalDetect l) s = .next t.outboundGrant := by
  show Host.Outcome.next (s.signalFound l).pump = _
  have found : s.signalFound l = t := by
    rw [State.signalFound, if_neg (by rw [dark]; exact nofun), detect]
  rw [found, State.pump_idle t idle]

theorem exec_wakeLimitExpiry_of (waking : (s.port l).state = .waking) (limit : (s.port l).wakeLimit = true)
    {t : State} (detect : (s.toDown l .wakeLimit).detect l = t) (idle : t.host.requests = []) :
    exec (.wakeLimitExpiry l) s = .next t.outboundGrant := by
  show Host.Outcome.next (s.wakeExpires l).pump = _
  have expires : s.wakeExpires l = t := by
    rw [State.wakeExpires, if_pos ⟨limit, waking⟩]
    exact detect
  rw [expires, State.pump_idle t idle]

theorem exec_linkEnable_of_off (hs : s.Ready) (tag : Byte) (off : (s.port l).state = .off)
    {t : State} (detect : (s.toDown l .enable).detect l = t) (idle : t.host.requests = []) :
    exec (.linkEnable tag l.val) s = .next (t.answered tag 0x01 []) := by
  refine exec_of_done (.linkEnable l.val) hs ?_ idle
  show s.linkEnable l.val = _
  rw [State.linkEnable, State.withLink_of_lt l.isLt, Fin.eta, if_pos off]
  exact congrArg (fun u : State => u.done []) detect

theorem exec_linkEnable_of_on (hs : s.Ready) (tag : Byte) (on : (s.port l).state ≠ .off) :
    exec (.linkEnable tag l.val) s = .next (s.answered tag 0x01 []) := by
  refine exec_of_read (.linkEnable l.val) hs ?_
  show s.linkEnable l.val = _
  rw [State.linkEnable, State.withLink_of_lt l.isLt, Fin.eta, if_neg on]

theorem State.toDown_detect (ready : s.store.state = .ready) (signal : (s.port l).signal = true) (cause : LinkCause) :
    (s.toDown l cause).detect l = (((s.toDown l cause).modPort l Port.woken).setPortState l .waking none .signal) :=
  State.detect_of (s.toDown_state l cause) ((s.toDown_signal l cause).trans signal)
    ((congrArg StoreCtl.state (s.toDown_store l cause)).trans ready)

/-- SIGNAL_DETECT on a line that is dark: in DOWN of a READY store the port wakes, and elsewhere only the signal is noted. -/
theorem exec_signalDetect (requests : s.host.requests = []) :
    ((s.port l).signal = true → exec (.signalDetect l) s = .next s.outboundGrant)
    ∧ ((s.port l).signal = false → (s.port l).state = .down → s.store.state = .ready →
      exec (.signalDetect l) s = .next (State.outboundGrant
        ((s.modPort l fun p => { p.woken with signal := true }).setPortState l .waking none .signal)))
    ∧ ((s.port l).signal = false → (s.port l).state ≠ .down ∨ s.store.state ≠ .ready →
      exec (.signalDetect l) s = .next (State.outboundGrant (s.modPort l fun p => { p with signal := true }))) := by
  refine ⟨fun lit => ?_, fun dark down ready => ?_, fun dark still => ?_⟩
  · show Host.Outcome.next (s.signalFound l).pump = _
    rw [State.signalFound, if_pos lit, State.pump_idle s requests]
  · have detect : (s.modPort l fun p => { p with signal := true }).detect l
        = (s.modPort l fun p => { p.woken with signal := true }).setPortState l .waking none .signal := by
      have port : (s.modPort l fun p => { p with signal := true }).port l = { s.port l with signal := true } := by
        rw [State.port_modPort, if_pos rfl]
      have woken := State.detect_of (s := s.modPort l fun p => { p with signal := true }) (l := l) (by rw [port]; exact down)
        (by rw [port]) ready
      rw [woken]
      simp only [State.modPort_eq_onPort, State.onPort_onPort, State.onPort_port_self]
      rfl
    exact exec_signalDetect_of dark detect ((State.setPortState_requests ..).trans requests)
  · have detect : (s.modPort l fun p => { p with signal := true }).detect l = s.modPort l fun p => { p with signal := true } := by
      refine State.detect_still ?_
      rw [State.port_modPort, if_pos rfl]
      exact still.imp_right .inr
    exact exec_signalDetect_of dark detect requests

/-- WAKE_LIMIT_EXPIRY in WAKING with the limit running: DOWN, and a fresh attempt where there is signal in a READY store. -/
theorem exec_wakeLimitExpiry (requests : s.host.requests = []) :
    ((s.port l).state = .waking → (s.port l).wakeLimit = true → s.store.state = .ready → (s.port l).signal = true →
      exec (.wakeLimitExpiry l) s = .next (State.outboundGrant
        (((s.toDown l .wakeLimit).modPort l Port.woken).setPortState l .waking none .signal)))
    ∧ ((s.port l).state = .waking → (s.port l).wakeLimit = true → (s.port l).signal = false ∨ s.store.state ≠ .ready →
      exec (.wakeLimitExpiry l) s = .next (State.outboundGrant (s.toDown l .wakeLimit)))
    ∧ ((s.port l).state ≠ .waking ∨ (s.port l).wakeLimit = false → exec (.wakeLimitExpiry l) s = .next s.outboundGrant) := by
  refine ⟨fun waking limit ready signal => ?_, fun waking limit still => ?_, fun still => ?_⟩
  · refine exec_wakeLimitExpiry_of waking limit (State.toDown_detect ready signal _) ?_
    rw [State.setPortState_requests]
    exact (State.toDown_requests ..).trans requests
  · refine exec_wakeLimitExpiry_of waking limit (State.detect_still (.inr ?_)) ((State.toDown_requests ..).trans requests)
    rw [State.toDown_signal, State.toDown_store]
    exact still
  · show Host.Outcome.next (s.wakeExpires l).pump = _
    have stays : s.wakeExpires l = s := by
      refine if_neg fun ⟨limit, waking⟩ => ?_
      rcases still with up | off
      · exact up waking
      · rw [limit] at off
        cases off
    rw [stays, State.pump_idle s requests]

end

/-- What a port sends in each state (R1), and the bytes of it. -/
theorem State.returnBytes_cases (s : State) (l : Fin 12) :
    let p := s.port l
    (p.state ∈ [.off, .down, .fault] → p.state.sends = .nothing ∧ s.returnBytes l = [])
    ∧ (p.state = .waking → p.state.sends = .wakePattern ∧ s.returnBytes l = [])
    ∧ (p.state ∈ [.aligning, .synced, .reading] → p.state.sends = .idleFrames
        ∧ ∀ m b, p.lane = some (m, b) → s.returnBytes l = cameraFrameBytes 1 0 0 0 0 0 b.toNat m.code []) := by
  unfold State.returnBytes
  dsimp only
  cases (s.port l).state with
  | off | down | fault => exact ⟨fun _ => ⟨rfl, rfl⟩, nofun, fun h => absurd h (by decide)⟩
  | waking => exact ⟨fun h => absurd h (by decide), fun _ => ⟨rfl, rfl⟩, fun h => absurd h (by decide)⟩
  | aligning | synced | reading =>
    refine ⟨fun h => absurd h (by decide), nofun, fun _ => ⟨rfl, fun m b lane => ?_⟩⟩
    rw [lane]
    rfl

/-- Settles O10: the three ways to a detection, and the events that find nothing to detect. -/
theorem detectionWakesThePort : Obligations.DetectionWakesThePort := by
  refine ⟨fun s l requests ready => ⟨fun down dark => ?_, fun waking limit signal => ?_, fun off signal free tag => ?_⟩,
    fun s l requests dark => ⟨fun waking limit => ?_, fun hs tag => ?_⟩, fun s l st reason cause => rfl,
    fun s l requests => ⟨?_, ?_, ?_, fun waking limit busy => ?_⟩, fun s l n tag hs => ⟨fun on => ?_, fun above => ?_⟩,
    State.returnBytes_cases⟩
  · exact (exec_signalDetect requests).2.1 dark down ready
  · exact (exec_wakeLimitExpiry requests).1 waking limit ready signal
  · refine exec_linkEnable_of_off ⟨ready, requests, free⟩ tag off (State.toDown_detect ready signal _) ?_
    rw [State.setPortState_requests]
    exact (State.toDown_requests ..).trans requests
  · exact (exec_wakeLimitExpiry requests).2.1 waking limit (.inl dark)
  · have ⟨_, _, free⟩ := hs
    split
    · next off =>
      refine exec_linkEnable_of_off hs tag off (State.detect_still (.inr (.inl ?_))) ((State.toDown_requests ..).trans requests)
      rw [State.toDown_signal]
      exact dark
    · next on => exact exec_linkEnable_of_on hs tag on
  · exact (exec_signalDetect requests).1
  · exact (exec_signalDetect requests).2.2
  · exact (exec_wakeLimitExpiry requests).2.2
  · exact (exec_wakeLimitExpiry requests).2.1 waking limit (.inr busy)
  · exact exec_linkEnable_of_on hs tag on
  · exact exec_of_refused (.linkEnable n) hs (dif_neg (by omega))

/-! ## Training and lock -/

section
variable {s : State} {l : Fin 12}

theorem State.frameArrives_of_silent (silent : (s.port l).state ∈ [.off, .down, .fault]) (rising : Bool) (bytes : List Byte) :
    s.frameArrives l rising bytes = s := by
  simp only [List.mem_cons, List.not_mem_nil, or_false] at silent
  unfold State.frameArrives
  dsimp only
  rcases silent with h | h | h <;> rw [h]

theorem State.frameArrives_of_waking (waking : (s.port l).state = .waking) {bytes : List Byte} (train : isTrain bytes = true)
    (rising : Bool) : s.frameArrives l rising bytes = (s.trainFound l).sendLane l := by
  simp only [State.frameArrives, waking, train, if_true]

theorem State.frameArrives_of_hunting (aligning : (s.port l).state = .aligning) (hunting : (s.port l).hunting = true)
    (rising : Bool) (bytes : List Byte) : s.frameArrives l rising bytes = (s.huntFrame l bytes).sendLane l := by
  simp only [State.frameArrives, aligning, hunting, if_true]

theorem State.frameArrives_of_locked (locked : (s.port l).state ∈ [.synced, .reading]) (rising : Bool) (bytes : List Byte) :
    s.frameArrives l rising bytes = (s.lockedFrame l bytes).sendLane l := by
  simp only [List.mem_cons, List.not_mem_nil, or_false] at locked
  unfold State.frameArrives
  dsimp only
  rcases locked with h | h <;> rw [h]

theorem State.trainFound_eq : s.trainFound l = s.onPort l
    { s.port l with wakeLimit := false, tap := 0, sense := none, hunting := false, goodRun := 0, badRun := 0,
                    state := .aligning, reason := none }
    (s.host.told l { s.port l with wakeLimit := false, tap := 0, sense := none, hunting := false, goodRun := 0, badRun := 0 }
      .aligning none .training) := by
  simp only [State.trainFound, State.modPort_eq_onPort, State.setPortState_eq, State.onPort_port_self, State.onPort_host,
    State.onPort_onPort]

/-- R24. The outbound frame leaves a port with its lane told and no abort owed, and changes nothing else. -/
theorem State.onPort_sendLane (s : State) (l : Fin 12) (p : Port) (h : HostLink) : ∃ lane relay,
    (s.onPort l p h).sendLane l = s.onPort l { p with lane := lane, relay := relay } h := by
  unfold State.sendLane
  dsimp only
  split
  · refine ⟨some p.relay.lane, { p.relay with abortOwed := false }, ?_⟩
    rw [State.onPort_port_self, State.onPort_setPort]
  · exact ⟨p.lane, p.relay, rfl⟩

end

/-- The first TRAIN frame in WAKING. -/
theorem exec_trainFrame {s : State} {l : Fin 12} (rising : Bool) {bytes : List Byte} (requests : s.host.requests = [])
    (waking : (s.port l).state = .waking) (kind : bytes.getD 0 0 = 2) (pattern : (bytes.drop 11).take 16 = trainPattern)
    (idle : (s.port l).relay.phase = .idle) (owed : (s.port l).relay.abortOwed = false) :
    ∃ t, exec (.cameraFrame l rising bytes) s = .next t
      ∧ t.port l = { s.port l with
          state := .aligning, reason := none, wakeLimit := false, tap := 0, sense := none,
          hunting := false, goodRun := 0, badRun := 0, lane := some (.none, 0) }
      ∧ (∀ j, j ≠ l → t.port j = s.port j) ∧ s.LinkFrame t := by
  have train : isTrain bytes = true := by
    rw [isTrain, frameKind, kind]
    exact decide_eq_true ⟨rfl, pattern⟩
  have arrives := State.frameArrives_of_waking waking train rising
  rw [State.trainFound_eq, State.sendLane_of_idle _ _ (by rw [State.onPort_port_self]; rfl) (by rw [State.onPort_port_self]; exact idle)
    (by rw [State.onPort_port_self]; exact owed), State.onPort_onPort, State.onPort_port_self] at arrives
  exact exec_cameraFrame_leaves arrives (by rw [State.onPort_host, HostLink.told_requests]; exact requests)

/-- A step of the alignment (R4). -/
theorem State.tapStep_cases (s : State) (l : Fin 12) (rising : Bool) :
    let p := s.port l
    (p.sense = some !rising → s.tapStep l rising = s.setPort l { p with hunting := true, sense := none })
    ∧ (p.sense ≠ some !rising → p.tap < 63 →
        s.tapStep l rising = s.setPort l { p with tap := p.tap + 1, sense := some rising })
    ∧ (p.sense ≠ some !rising → p.tap = 63 →
        ((s.tapStep l rising).port l).state = .fault ∧ ((s.tapStep l rising).port l).reason = some .align
        ∧ ((s.tapStep l rising).port l).tap = 63) := by
  refine ⟨fun change => if_pos change, fun same more => ?_, fun same last => ?_⟩
  · exact (if_neg same).trans (if_neg (by omega))
  · have fault : s.tapStep l rising = s.portFault l := (if_neg same).trans (if_pos last)
    rw [fault, State.portFault_eq, State.onPort_port_self]
    exact ⟨rfl, rfl, last⟩

section
variable {s : State} {l : Fin 12} {bytes : List Byte}

/-- A good frame while hunting (R5): the second in a row locks. -/
theorem State.huntFrame_good (good : (s.port l).cfg.judge bytes = none) :
    ∃ part hk relay h, h.requests = s.host.requests ∧ s.huntFrame l bytes =
      if (s.port l).goodRun = 1 then
        s.onPort l { s.port l with good := min 4294967295 ((s.port l).good + 1), hkPart := part, hk := hk, relay := relay,
                                   goodRun := 0, badRun := 0, state := .synced, reason := none } h
      else
        s.onPort l { s.port l with good := min 4294967295 ((s.port l).good + 1), hkPart := part, hk := hk, relay := relay,
                                   goodRun := (s.port l).goodRun + 1, badRun := 0 } h := by
  obtain ⟨part, hk, relay, h, e, requests⟩ := s.goodFrame_eq l bytes
  unfold State.huntFrame
  rw [good]
  simp only [e, State.onPort_port_self, State.onPort_setPort, State.setPortState_eq, State.onPort_host, State.onPort_onPort,
    Nat.reduceEqDiff]
  split
  · exact ⟨part, hk, relay, _, (HostLink.told_requests ..).trans requests, rfl⟩
  · exact ⟨part, hk, relay, h, requests, rfl⟩

/-- A bad frame while hunting (R5): the fourth in a row is FAULT. -/
theorem State.huntFrame_bad {why : BadReason} (bad : (s.port l).cfg.judge bytes = some why) :
    s.huntFrame l bytes =
      if (s.port l).badRun = 3 then
        s.onPort l { (s.port l).badFrame why bytes with badRun := (s.port l).badRun + 1, goodRun := 0,
                                                        state := .fault, reason := some .align }
          ((s.host.told l (s.port l) .fault (some .align) .alignFail).raise .faultLink
            (code8 l.val ++ code8 0 ++ code8 (s.port l).tap))
      else
        s.onPort l { (s.port l).badFrame why bytes with badRun := (s.port l).badRun + 1, goodRun := 0 } s.host := by
  have run : ((s.port l).badFrame why bytes).badRun = (s.port l).badRun := rfl
  unfold State.huntFrame
  rw [bad]
  simp only [State.modPort_eq_onPort, State.onPort_port_self, State.onPort_setPort, State.portFault_eq, State.onPort_host,
    State.onPort_onPort, run, Nat.reduceEqDiff]
  rfl

end

/-- A frame while hunting, then the outbound frame: one port and the host link are replaced. -/
theorem exec_huntFrame {s : State} {l : Fin 12} (rising : Bool) {bytes : List Byte} {q : Port} {h : HostLink}
    (aligning : (s.port l).state = .aligning) (hunting : (s.port l).hunting = true) (hunt : s.huntFrame l bytes = s.onPort l q h)
    (idle : h.requests = []) :
    ∃ lane relay, ∃ u : State, exec (.cameraFrame l rising bytes) s = .next u.outboundGrant
      ∧ u.port l = { q with lane := lane, relay := relay } ∧ u.host = h
      ∧ (∀ j, j ≠ l → u.port j = s.port j) ∧ s.LinkFrame u := by
  have arrives := State.frameArrives_of_hunting aligning hunting rising bytes
  obtain ⟨lane, relay, sent⟩ := State.onPort_sendLane s l q h
  rw [hunt, sent] at arrives
  exact ⟨lane, relay, exec_cameraFrame_reaches arrives idle⟩

/-- Settles O14: silence, training, the step of the tap, and the hunt. -/
theorem trainingFindsTheTap : Obligations.TrainingFindsTheTap := by
  refine ⟨fun s l rising bytes silent => ?_, fun s l rising bytes requests waking kind pattern idle owed =>
    exec_trainFrame rising requests waking kind pattern idle owed, fun s l rising => s.tapStep_cases l rising, ?_⟩
  · show Host.Outcome.next (s.frameArrives l rising bytes).settle.pump = _
    rw [State.frameArrives_of_silent silent]
  · intro s l rising bytes requests aligning hunting p reaches
    refine ⟨fun sound => ?_, fun why unsound => ?_⟩
    · obtain ⟨part, hk, relay, h, idle, hunt⟩ := State.huntFrame_good sound
      rw [requests] at idle
      refine ⟨fun first => ?_, fun second => ?_⟩
      · rw [if_neg first] at hunt
        obtain ⟨lane, relay', u, run, port, _, others, frame⟩ := exec_huntFrame rising aligning hunting hunt idle
        refine ⟨u, run, ?_⟩
        rw [port]
        exact ⟨⟨aligning, hunting, rfl, rfl, rfl, rfl⟩, rfl, rfl, rfl, rfl, rfl, rfl, others, frame⟩
      · rw [if_pos second] at hunt
        obtain ⟨lane, relay', u, run, port, _, others, frame⟩ := exec_huntFrame rising aligning hunting hunt idle
        refine ⟨u, run, ?_⟩
        rw [port]
        exact ⟨⟨rfl, rfl, rfl, rfl, rfl, rfl⟩, rfl, rfl, rfl, rfl, rfl, rfl, others, frame⟩
    · have hunt := State.huntFrame_bad unsound
      have counted : satAdd Config.sat32 (s.port l).bad 1 = min 4294967295 ((s.port l).bad + 1) := satAdd_eq_min ..
      refine ⟨fun early => ?_, fun fourth => ?_, fun fourth => ?_⟩
      · rw [if_neg early] at hunt
        obtain ⟨lane, relay', u, run, port, _, others, frame⟩ := exec_huntFrame rising aligning hunting hunt requests
        refine ⟨u, run, ?_⟩
        rw [port]
        exact ⟨⟨aligning, hunting, rfl, rfl, counted, rfl, rfl⟩, rfl, rfl, rfl, rfl, rfl, rfl, others, frame⟩
      · rw [if_pos fourth] at hunt
        obtain ⟨lane, relay', u, run, port, _, others, frame⟩ := exec_huntFrame rising aligning hunting hunt
          (by rw [HostLink.raise_requests, HostLink.told_requests]; exact requests)
        refine ⟨u, run, ?_⟩
        rw [port]
        exact ⟨⟨rfl, rfl, rfl, rfl, counted, rfl, rfl⟩, rfl, rfl, rfl, rfl, rfl, rfl, others, frame⟩
      · rw [if_pos fourth] at hunt
        obtain ⟨lane, relay', u, run, _, host, _⟩ := exec_huntFrame rising aligning hunting hunt
          (by rw [HostLink.raise_requests, HostLink.told_requests]; exact requests)
        refine ⟨u, run, host.trans ?_⟩
        rw [HostLink.told, aligning, if_neg nofun]
        rfl

end Sys2Proof.Machine
end

section
/-!
PROOF. Good IDLE frames and the housekeeping assembler, bad frames, the relay lane, and the end of a link.
-/

namespace Sys2Proof.Machine

/-! ## An IDLE frame read -/

theorem bytesToNat_code16 {n : Nat} (h : n < 65536) : bytesToNat (code16 n) = n := by
  simp only [code16, bytesToNat, BitVec.toNat_ofNat]
  omega

theorem bytesToNat_code32 {n : Nat} (h : n < 4294967296) : bytesToNat (code32 n) = n := by
  simp only [code32, code16, List.cons_append, List.nil_append, bytesToNat, BitVec.toNat_ofNat]
  omega

/-- A good IDLE frame with its fields. -/
def idleFrame (tag row index value lane : Nat) (m : Marker) : List Byte := cameraFrameBytes 1 0 tag row index value lane m.code []

section
variable (tag row index value lane : Nat) (m : Marker)

theorem frameKind_idleFrame : frameKind (idleFrame tag row index value lane m) = 1 := rfl

theorem judge_idleFrame (c : LinkConfig) : c.judge (idleFrame tag row index value lane m) = none := by
  have crc : bytesToNat ((idleFrame tag row index value lane m).drop 11)
      = (crc32 ((idleFrame tag row index value lane m).take 11)).toNat := bytesToNat_code32 (BitVec.isLt _)
  have length : (idleFrame tag row index value lane m).length = 15 := rfl
  rw [LinkConfig.judge, length]
  rw [if_neg, if_neg, if_neg]
  · exact not_not.2 rfl
  · exact nofun
  · rw [crc]
    rintro (short | differ)
    · exact absurd short (by decide)
    · exact differ rfl

theorem frameMarker_idleFrame : frameMarker (idleFrame tag row index value lane m) = some m := by
  cases m <;> rfl

theorem word_idleFrame (hi : index < 12) : ((idleFrame tag row index value lane m).getD 6 0).toNat = index := by
  show index % 256 = index
  omega

theorem value_idleFrame (hv : value < 65536) : word16 (idleFrame tag row index value lane m) 7 = value := by
  show (value % 256) + 256 * ((value / 256) % 256) = value
  omega

theorem lane_idleFrame : (idleFrame tag row index value lane m).getD 9 0 = BitVec.ofNat 8 lane := rfl

end

/-! ## The housekeeping assembler -/

/-- R14, R15. What the assembler takes reads nothing of the good counter, and leaves it. -/
theorem State.hkWord_eq (s : State) (l : Fin 12) (index value : Nat) : ∃ part hk h, h.requests = s.host.requests ∧
    ∀ g, (s.onPort l { s.port l with good := g } s.host).hkWord l index value
      = s.onPort l { s.port l with hkPart := part, hk := hk, good := g } h := by
  by_cases first : index = 0
  · refine ⟨[value], (s.port l).hk, s.host, rfl, fun g => ?_⟩
    rw [State.hkWord, if_pos first, State.onPort_setPort, State.onPort_port_self]
  · by_cases next : (s.port l).hkPart ≠ [] ∧ index = (s.port l).hkPart.length
    · by_cases last : ((s.port l).hkPart ++ [value]).length = 12
      · unfold State.hkWord State.hkComplete
        simp only [State.onPort_port_self, State.onPort_setPort, first, if_false, if_pos next, if_pos last, State.onPort_raise]
        split
        · exact ⟨[], _, _, HostLink.raise_requests .., fun g => rfl⟩
        · exact ⟨[], _, _, rfl, fun g => rfl⟩
      · refine ⟨(s.port l).hkPart ++ [value], (s.port l).hk, s.host, rfl, fun g => ?_⟩
        simp only [State.hkWord, State.onPort_port_self, State.onPort_setPort, first, if_false, if_pos next, if_neg last]
    · refine ⟨[], (s.port l).hk, s.host, rfl, fun g => ?_⟩
      simp only [State.hkWord, State.onPort_port_self, State.onPort_setPort, first, if_false, if_neg next]

section
variable (s : State) (l : Fin 12)

theorem State.hkWord_of_first (value : Nat) : s.hkWord l 0 value = s.setPort l { s.port l with hkPart := [value] } := rfl

theorem State.hkWord_of_skip {index : Nat} (value : Nat) (first : index ≠ 0) (skips : index ≠ (s.port l).hkPart.length) :
    s.hkWord l index value = s.setPort l { s.port l with hkPart := [] } :=
  (if_neg first).trans (if_neg fun next => skips next.2)

theorem State.hkWord_of_next {index : Nat} (value : Nat) (first : index ≠ 0) (next : index = (s.port l).hkPart.length) :
    s.hkWord l index value = if index = 11 then s.hkComplete l ((s.port l).hkPart ++ [value])
      else s.setPort l { s.port l with hkPart := (s.port l).hkPart ++ [value] } := by
  have open_ : (s.port l).hkPart ≠ [] := fun none => first (by rw [next, none]; rfl)
  have full : ((s.port l).hkPart ++ [value]).length = 12 ↔ index = 11 := by
    rw [List.length_append, List.length_singleton]
    omega
  rw [State.hkWord, if_neg first, if_pos ⟨open_, next⟩]
  simp only [full]

end

/-- The causes of HK_CHANGE as the bits of their byte (R15). -/
theorem hkCauses_bits (old : Option HkCycle) (new : HkCycle) :
    let causes := flagBits (hkCauses old new)
    causes < 16
      ∧ (causes.testBit 0 = true ↔ old = none)
      ∧ (causes.testBit 1 = true ↔ ∃ o, old = some o ∧ o.words.getD 5 0 ≠ new.words.getD 5 0)
      ∧ (causes.testBit 2 = true ↔ ∃ o, old = some o ∧ o.zone ≠ new.zone ∧ (o.zone = .below ∨ new.zone = .below))
      ∧ (causes.testBit 3 = true ↔ ∃ o, old = some o ∧ o.zone ≠ new.zone ∧ (o.zone = .above ∨ new.zone = .above))
      ∧ ((hkCauses old new).any id = true ↔ causes ≠ 0) := by
  have bits : ∀ a b c d : Bool, flagBits [a, b, c, d] < 16 ∧ (flagBits [a, b, c, d]).testBit 0 = a
      ∧ (flagBits [a, b, c, d]).testBit 1 = b ∧ (flagBits [a, b, c, d]).testBit 2 = c ∧ (flagBits [a, b, c, d]).testBit 3 = d
      ∧ ([a, b, c, d].any id = true ↔ flagBits [a, b, c, d] ≠ 0) := by decide
  cases old with
  | none =>
    obtain ⟨small, b0, b1, b2, b3, any⟩ := bits true false false false
    exact ⟨small, by simp [b0, hkCauses], by simp [b1, hkCauses], by simp [b2, hkCauses], by simp [b3, hkCauses], any⟩
  | some o =>
    obtain ⟨small, b0, b1, b2, b3, any⟩ := bits false (decide (o.words.getD 5 0 ≠ new.words.getD 5 0))
      (decide (o.zone ≠ new.zone ∧ (o.zone = .below ∨ new.zone = .below)))
      (decide (o.zone ≠ new.zone ∧ (o.zone = .above ∨ new.zone = .above)))
    refine ⟨small, ?_, ?_, ?_, ?_, any⟩
    · simp only [hkCauses, b0, Bool.false_eq_true, reduceCtorEq]
    · simp only [hkCauses, b1, decide_eq_true_eq, Option.some.injEq, exists_eq_left']
    · simp only [hkCauses, b2, decide_eq_true_eq, Option.some.injEq, exists_eq_left']
    · simp only [hkCauses, b3, decide_eq_true_eq, Option.some.injEq, exists_eq_left']

/-! ## Good IDLE frames -/

section
variable {s : State} {l : Fin 12} {tag row index value lane : Nat} {m : Marker}

/-- A good IDLE frame in SYNCED: the counts, the housekeeping word, and the relay lane. -/
theorem State.lockedFrame_idle (hi : index < 12) (hv : value < 65536) :
    ∃ part hk h, h.requests = s.host.requests
      ∧ s.hkWord l index value = s.onPort l { s.port l with hkPart := part, hk := hk } h
      ∧ s.lockedFrame l (idleFrame tag row index value lane m) =
        ((s.onPort l { s.port l with hkPart := part, hk := hk, good := min 4294967295 ((s.port l).good + 1) } h).relayFrame l m
          (BitVec.ofNat 8 lane)).modPort l fun p => { p with badRun := 0 } := by
  obtain ⟨part, hk, h, requests, word⟩ := s.hkWord_eq l index value
  refine ⟨part, hk, h, requests, ?_, ?_⟩
  · have same := word (s.port l).good
    rw [State.onPort_self] at same
    exact same
  · unfold State.lockedFrame State.goodFrame
    rw [judge_idleFrame]
    simp only [frameMarker_idleFrame, frameKind_idleFrame, lane_idleFrame, word_idleFrame _ _ _ _ _ _ hi,
      value_idleFrame _ _ _ _ _ _ hv, satAdd_eq_min, Nat.reduceEqDiff, if_false]
    exact congrArg (fun u : State => (u.relayFrame l m (BitVec.ofNat 8 lane)).modPort l fun p => { p with badRun := 0 }) (word _)

/-- A good IDLE frame in SYNCED with no relay in flight and no abort owed. -/
theorem exec_idleFrame (rising : Bool) (requests : s.host.requests = []) (synced : (s.port l).state = .synced)
    (idle : (s.port l).relay.phase = .idle) (owed : (s.port l).relay.abortOwed = false) (hi : index < 12) (hv : value < 65536) :
    let v := s.hkWord l index value
    ∃ u : State, exec (.cameraFrame l rising (idleFrame tag row index value lane m)) s = .next u.outboundGrant
      ∧ u.port l = { v.port l with good := min 4294967295 ((s.port l).good + 1), badRun := 0, lane := some (.none, 0) }
      ∧ u.host = v.host ∧ (∀ j, j ≠ l → u.port j = s.port j) ∧ s.LinkFrame u := by
  obtain ⟨part, hk, h, idle', word, locked⟩ := State.lockedFrame_idle (s := s) (l := l) (tag := tag) (row := row) (lane := lane)
    (m := m) hi hv
  have arrives := State.frameArrives_of_locked (s := s) (l := l) (by rw [synced]; decide) rising (idleFrame tag row index value lane m)
  rw [locked, State.relayFrame_of_idle _ _ _ _ (by rw [State.onPort_port_self]; exact idle), State.onPort_modPort,
    State.sendLane_of_idle _ _ (by rw [State.onPort_port_self]; exact congrArg PortState.sends synced)
      (by rw [State.onPort_port_self]; exact idle) (by rw [State.onPort_port_self]; exact owed),
    State.onPort_onPort, State.onPort_port_self] at arrives
  dsimp only
  rw [word, State.onPort_port_self, State.onPort_host]
  exact exec_cameraFrame_reaches arrives (idle'.trans requests)

end

/-- Settles O15: an IDLE frame, with and without a cycle under way, and the assembler. -/
theorem goodIdleFrameCounts : Obligations.GoodIdleFrameCounts := by
  refine ⟨fun s l rising tag row index value lane m requests synced idle owed fresh hi hv => ?_,
    fun s l rising tag row index value lane m requests synced idle owed hi hv =>
      exec_idleFrame rising requests synced idle owed hi hv, fun s l index value => ?_⟩
  · obtain ⟨u, run, port, _, others, frame⟩ := exec_idleFrame (tag := tag) (row := row) (lane := lane) (m := m) rising requests synced
      idle owed hi hv
    have word : (s.hkWord l index value).port l = { s.port l with hkPart := if index = 0 then [value] else [] } := by
      split
      · next first =>
        rw [first, State.hkWord_of_first, State.port_setPort, if_pos rfl]
      · next later =>
        rw [State.hkWord_of_skip s l value later (by rw [fresh]; exact later), State.port_setPort, if_pos rfl]
    have granted := Outbound.outboundGrant u
    rw [word] at port
    exact ⟨_, run, (granted.port l).trans port, fun j hj => (granted.port j).trans (others j hj), frame.trans granted.linkFrame⟩
  · intro p words temp zone
    refine ⟨fun first => ?_, fun later skips => State.hkWord_of_skip s l value later skips, fun later next inner => ?_,
      fun last next => ?_⟩
    · rw [first]
      exact State.hkWord_of_first s l value
    · rw [State.hkWord_of_next s l value later next, if_neg inner]
    · obtain ⟨small, b0, b1, b2, b3, any⟩ := hkCauses_bits p.hk { words := words, zone := zone }
      refine ⟨_, small, b0, b1, b2, b3, ?_⟩
      rw [State.hkWord_of_next s l value (by omega) next, if_pos last, State.hkComplete]
      split
      · next some => exact (if_neg (any.1 some)).symm
      · next none => exact (if_pos (not_not.1 (mt any.2 none))).symm

end Sys2Proof.Machine
end

section
/-!
PROOF. The relay lane, bad frames in lock, and the end of a link.
-/

namespace Sys2Proof.Machine

/-! ## The relay's steps -/

/-- Settles O19: the markers of each phase, and the lane of each. -/
theorem relayHandshake : Obligations.RelayHandshake := by
  refine ⟨fun r b _ => ⟨rfl, ?_, ?_, ?_, ?_, ?_, ?_, ?_, ?_, ?_, ?_, ?_, ?_⟩, fun r => ⟨?_, ?_, ?_, ?_⟩⟩
  · intro quiet more
    simp [Relay.mark, quiet, more]
  · intro quiet sent none
    simp [Relay.mark, quiet, Nat.not_lt.2 sent, none]
  · intro quiet sent some
    simp [Relay.mark, quiet, Nat.not_lt.2 sent, Nat.ne_of_gt some]
  · intro offer
    simp [Relay.mark, offer]
  · intro waiting room
    simp [Relay.mark, waiting, room]
  · intro waiting full m marker
    simp only [List.mem_cons, List.not_mem_nil, or_false] at marker
    rcases marker with rfl | rfl <;> simp [Relay.mark, waiting, Nat.not_lt.2 full]
  · intro acknowledge last
    simp [Relay.mark, acknowledge, last]
  · intro acknowledge more
    simp [Relay.mark, acknowledge, more]
  · intro m marker quiet
    simp only [List.mem_cons, List.not_mem_nil, or_false] at marker
    rcases marker with rfl | rfl | rfl <;> simp [Relay.mark, quiet]
  · intro m marker offer
    simp only [List.mem_cons, List.not_mem_nil, or_false] at marker
    rcases marker with rfl | rfl | rfl <;> simp [Relay.mark, offer]
  · intro m marker waiting
    simp only [List.mem_cons, List.not_mem_nil, or_false] at marker
    rcases marker with rfl | rfl <;> simp [Relay.mark, waiting]
  · intro m marker acknowledge
    simp only [List.mem_cons, List.not_mem_nil, or_false] at marker
    rcases marker with rfl | rfl | rfl <;> simp [Relay.mark, acknowledge]
  · exact fun owed => if_pos owed
  · intro clear b c rest offer
    constructor <;> intro left <;> simp [Relay.lane, clear, offer, left]
  · intro clear acknowledge
    simp [Relay.lane, clear, acknowledge]
  · intro clear still
    simp only [List.mem_cons, List.not_mem_nil, or_false] at still
    rcases still with still | still | still <;> simp [Relay.lane, clear, still]

theorem exec_relay {s : State} (hs : s.Ready) (tag : Byte) (link expected timeout : Nat) (outgoing : List Byte) :
    exec (.relay tag link outgoing expected timeout) s = .next
      (if h : link < 12 ∧ 1 ≤ outgoing.length ∧ outgoing.length ≤ 32 ∧ expected ≤ 32 ∧ 16 ≤ timeout ∧ timeout ≤ 255 then
        let l : Fin 12 := ⟨link, h.1⟩
        let p := s.port l
        if p.relay.phase ≠ .idle then s.turnedAway tag 0x07 .busy
        else if p.state ≠ .synced ∧ p.state ≠ .reading then s.turnedAway tag 0x07 .wrongState
        else
          State.answered (s.setPort l { p with relay := p.relay.start outgoing expected timeout }) tag 0x07
            (code8 link ++ code16 (p.relay.start outgoing expected timeout).number)
      else s.turnedAway tag 0x07 .badField) := by
  have ⟨_, requests, _⟩ := hs
  split
  · next h =>
    obtain ⟨inRange, fields⟩ := h
    have owner : s.owner tag (.relay link outgoing expected timeout) = s.relayRequest link outgoing expected timeout := rfl
    rw [State.relayRequest, State.withLink_of_lt inRange, if_neg (by omega)] at owner
    simp only [Relay.inFlight, decide_eq_true_eq] at owner
    dsimp only
    split
    · next busy => exact exec_of_refused (.relay link outgoing expected timeout) hs (owner.trans (if_pos busy))
    · next idle =>
      rw [if_neg idle] at owner
      split
      · next unlocked => exact exec_of_refused (.relay link outgoing expected timeout) hs (owner.trans (if_pos unlocked))
      · next locked => exact exec_of_done (.relay link outgoing expected timeout) hs (owner.trans (if_neg locked)) requests
  · next h =>
    refine exec_of_refused (.relay link outgoing expected timeout) hs ?_
    show s.relayRequest link outgoing expected timeout = _
    by_cases inRange : link < 12
    · exact (State.withLink_of_lt inRange _).trans (if_pos (by omega))
    · exact State.withLink_of_not_lt inRange _

/-- What the relay of a port in flight becomes at a good or stale frame (R29). -/
theorem State.relayFrame_steps (s : State) (l : Fin 12) (m : Marker) (b : Byte) (flight : (s.port l).relay.phase ≠ .idle) :
    let r := (s.port l).relay
    (r.mark m b = .ignored → s.relayFrame l m b = s.relayIdle l)
    ∧ (∀ q, r.mark m b = .progress q → s.relayFrame l m b = s.modPort l fun p => { p with relay := { q with idleFrames := 0 } })
    ∧ (∀ q o, r.mark m b = .ends q o → s.relayFrame l m b = s.endRelay l (q.endCount o) o) := by
  have step := s.relayFrame_of_flight l m b flight
  refine ⟨fun mark => ?_, fun q mark => ?_, fun q o mark => ?_⟩ <;> rw [step, mark]

/-! ## Frames without progress -/

section
variable {s : State} {l : Fin 12}

/-- R24. The outbound frame of a port that owes no abort. -/
theorem State.sendLane_of_clear (sends : (s.port l).state.sends = .idleFrames) (owed : (s.port l).relay.abortOwed = false) :
    s.sendLane l = s.onPort l { s.port l with lane := some (s.port l).relay.lane } s.host := by
  rw [State.sendLane_eq s l sends]
  congr 2
  rw [← owed]

theorem Relay.afterIdle_owed (r : Relay) (l : Fin 12) (h : HostLink) : (r.afterIdle l h).1.abortOwed = r.abortOwed := by
  unfold Relay.afterIdle
  dsimp only
  split <;> rfl

theorem Relay.afterIdle_requests (r : Relay) (l : Fin 12) (h : HostLink) : (r.afterIdle l h).2.requests = h.requests := by
  unfold Relay.afterIdle
  dsimp only
  split
  · exact HostLink.raise_requests ..
  · rfl

theorem Relay.afterIdle_of_expired {r : Relay} (expired : r.timeout ≤ r.idleFrames + 1) (l : Fin 12) (h : HostLink) :
    r.afterIdle l h = ({ r with idleFrames := r.idleFrames + 1, phase := .idle, outgoing := [] }, h.raise .relayDone
      (code8 l.val ++ code16 r.number ++ (code8 2 ++ codePart none) ++ code8 r.acked ++ codeList8 (fun b => [b]) r.reply)) :=
  if_pos expired

theorem Relay.afterIdle_of_early {r : Relay} (early : ¬r.timeout ≤ r.idleFrames + 1) (l : Fin 12) (h : HostLink) :
    r.afterIdle l h = ({ r with idleFrames := r.idleFrames + 1 }, h) :=
  if_neg early

/-- R7. A bad frame in lock, before the fourth in a row. -/
theorem State.lockedFrame_bad {bytes : List Byte} {why : BadReason} (bad : (s.port l).cfg.judge bytes = some why)
    (early : (s.port l).badRun < 3) : s.lockedFrame l bytes =
      (s.onPort l { (s.port l).badFrame why bytes with badRun := (s.port l).badRun + 1 } s.host).relayIdle l := by
  have run : ¬4 ≤ ((s.modPort l fun p => { p.badFrame why bytes with badRun := p.badRun + 1 }).port l).badRun := by
    rw [State.modPort_eq_onPort, State.onPort_port_self]
    dsimp only
    omega
  unfold State.lockedFrame
  rw [bad]
  exact if_neg run

/-- R7. The fourth bad frame in a row. -/
theorem State.lockedFrame_lost {bytes : List Byte} {why : BadReason} (bad : (s.port l).cfg.judge bytes = some why)
    (fourth : (s.port l).badRun = 3) : s.lockedFrame l bytes =
      (s.onPort l { (s.port l).badFrame why bytes with badRun := (s.port l).badRun + 1 } s.host).loseLock l := by
  have run : 4 ≤ ((s.modPort l fun p => { p.badFrame why bytes with badRun := p.badRun + 1 }).port l).badRun := by
    rw [State.modPort_eq_onPort, State.onPort_port_self]
    dsimp only
    omega
  unfold State.lockedFrame
  rw [bad]
  exact if_pos run

/-- What CAMERA_FRAME leaves where a frame without progress meets a relay in flight: `p` is the port but for the relay. -/
theorem exec_frame_counts {rising : Bool} {bytes : List Byte} {p : Port}
    (requests : s.host.requests = []) (locked : (s.port l).state ∈ [.synced, .reading]) (owed : (s.port l).relay.abortOwed = false)
    (frame : s.lockedFrame l bytes = s.onPort l { p with relay := ((s.port l).relay.afterIdle l s.host).1 }
      ((s.port l).relay.afterIdle l s.host).2) (sends : p.state.sends = .idleFrames) :
    let r := (s.port l).relay
    let expires := r.timeout ≤ r.idleFrames + 1
    ∃ u : State, exec (.cameraFrame l rising bytes) s = .next u.outboundGrant
      ∧ (u.port l).state = p.state ∧ (u.port l).badRun = p.badRun ∧ (u.port l).bad = p.bad ∧ (u.port l).good = p.good
      ∧ (expires → (u.port l).relay = { r with idleFrames := r.idleFrames + 1, phase := .idle, outgoing := [] }
          ∧ (u.port l).lane = some (.none, 0)
          ∧ u.host = s.host.raise .relayDone
              (code8 l.val ++ code16 r.number ++ (code8 2 ++ codePart none) ++ code8 r.acked ++ codeList8 (fun b => [b]) r.reply))
      ∧ (¬expires → (u.port l).relay = { r with idleFrames := r.idleFrames + 1 } ∧ u.host = s.host)
      ∧ (∀ j, j ≠ l → u.port j = s.port j) ∧ s.LinkFrame u := by
  have arrives := State.frameArrives_of_locked locked rising bytes
  rw [frame, State.sendLane_of_clear (by rw [State.onPort_port_self]; exact sends)
    (by rw [State.onPort_port_self]; exact (Relay.afterIdle_owed ..).trans owed), State.onPort_onPort, State.onPort_port_self,
    State.onPort_host] at arrives
  obtain ⟨u, run, port, host, others, keeps⟩ := exec_cameraFrame_reaches arrives ((Relay.afterIdle_requests ..).trans requests)
  refine ⟨u, run, ?_⟩
  rw [port, host]
  refine ⟨rfl, rfl, rfl, rfl, fun expired => ?_, fun early => ?_, others, keeps⟩
  · dsimp only
    rw [Relay.afterIdle_of_expired expired]
    exact ⟨rfl, congrArg some (Relay.lane_of_idle rfl owed), rfl⟩
  · dsimp only
    rw [Relay.afterIdle_of_early early]
    exact ⟨rfl, rfl⟩

end

/-- Settles O18: RELAY, RELAY_TIMEOUT, the steps of a relay in flight, and the frames that count towards its timeout. -/
theorem relaysBeginAndTimeOut : Obligations.RelaysBeginAndTimeOut := by
  refine ⟨fun s tag link expected timeout outgoing hs => exec_relay hs tag link expected timeout outgoing,
    fun s l requests flight expired => ?_, fun s l m b flight => ?_, ?_⟩
  · show Host.Outcome.next (s.relayExpires l).pump = _
    have ends : s.relayExpires l = s.endRelay l (s.port l).relay .timeout := if_pos ⟨Relay.inFlight_of flight, expired⟩
    rw [ends, State.pump_idle _ ((HostLink.raise_requests ..).trans requests)]
    rfl
  · obtain ⟨ignored, progress, ends⟩ := s.relayFrame_steps l m b flight
    have counted := s.relayIdle_of_flight l flight
    refine ⟨fun early => ?_, fun expired => ?_, ignored, progress, ends⟩
    · rw [counted, Relay.afterIdle_of_early (Nat.not_le.2 early)]
      rfl
    · rw [counted, Relay.afterIdle_of_expired expired]
      rfl
  · intro s l rising requests p r expires counts flight owed
    refine ⟨fun bytes why locked unsound early => ?_, fun tag row index value lane m synced fresh hi hv ignored => ?_⟩
    · have frame := State.lockedFrame_bad unsound early
      rw [State.relayIdle_of_flight _ _ (by rw [State.onPort_port_self]; exact flight), State.onPort_onPort, State.onPort_port_self,
        State.onPort_host] at frame
      have sends : (s.port l).state.sends = .idleFrames := by
        simp only [List.mem_cons, List.not_mem_nil, or_false] at locked
        rcases locked with h | h <;> rw [h] <;> rfl
      obtain ⟨u, run, state, badRun, bad, _, rest⟩ := exec_frame_counts (rising := rising) requests locked owed frame sends
      exact ⟨u, run, ⟨state, badRun, bad.trans (satAdd_eq_min ..)⟩, rest⟩
    · obtain ⟨part, hk, h, _, word, frame⟩ := State.lockedFrame_idle (s := s) (l := l) (tag := tag) (row := row) (lane := lane)
        (m := m) hi hv
      have quiet : h = s.host := by
        have host : (s.hkWord l index value).host = s.host := by
          by_cases first : index = 0
          · rw [first, State.hkWord_of_first, State.setPort_host]
          · rw [State.hkWord_of_skip s l value first (by rw [fresh]; exact first), State.setPort_host]
        rw [word] at host
        exact host
      have mark : ((s.onPort l { s.port l with
          hkPart := part, hk := hk, good := min 4294967295 ((s.port l).good + 1) } s.host).port l).relay.mark m (BitVec.ofNat 8 lane)
          = .ignored := by
        rw [State.onPort_port_self]
        exact ignored
      have flying : ((s.onPort l { s.port l with
          hkPart := part, hk := hk, good := min 4294967295 ((s.port l).good + 1) } s.host).port l).relay.phase ≠ .idle := by
        rw [State.onPort_port_self]
        exact flight
      rw [quiet, (State.relayFrame_steps _ l m _ flying).1 mark, State.relayIdle_of_flight _ _ flying, State.onPort_onPort,
        State.onPort_port_self, State.onPort_host, State.onPort_modPort] at frame
      have locked : (s.port l).state ∈ [.synced, .reading] := by
        rw [synced]
        decide
      obtain ⟨u, run, state, badRun, _, good, rest⟩ := exec_frame_counts (rising := rising)
        (p := { s.port l with hkPart := part, hk := hk, good := min 4294967295 ((s.port l).good + 1), badRun := 0 }) requests locked owed
        frame (congrArg PortState.sends synced)
      exact ⟨u, run, ⟨state.trans synced, badRun, good⟩, rest⟩

end Sys2Proof.Machine
end

section
/-!
PROOF. The rules of the exposure slots and the tiles: what a slot's settling, a resolution, a tile's leaving and its close do, case by
case.
-/

namespace Sys2Proof.Machine

/-! ## Entries -/

@[simp] theorem ExpSlot.entry_setEntry (x : ExpSlot) (g h : Fin 96) (e : Entry) :
    (x.setEntry g e).entry h = if g = h then e else x.entry h := by
  simp only [ExpSlot.entry, ExpSlot.setEntry, Fin.getElem_fin, Vector.getElem_set, Fin.ext_iff]

theorem Entry.isResolved_iff {e : Entry} : e.isResolved = true ↔ ∃ w, e = .resolved w := by
  cases e <;> simp [Entry.isResolved]

theorem Entry.not_isResolved_iff {e : Entry} : e.isResolved = false ↔ ∀ w, e ≠ .resolved w := by
  cases e <;> simp [Entry.isResolved]

theorem ExpSlot.isCommitted_iff {x : ExpSlot} : x.isCommitted = true ↔ x.state ∈ [.committed, .reading, .placing] := by
  simp [ExpSlot.isCommitted]

theorem ExpSlot.not_isCommitted_iff {x : ExpSlot} : x.isCommitted = false ↔ x.state ∈ [.free, .opened] := by
  rw [ExpSlot.isCommitted, decide_eq_false_iff_not]
  cases x.state <;> simp

theorem ExpSlot.not_isCommitted_of_opened {x : ExpSlot} (opened : x.state = .opened) : x.isCommitted = false :=
  ExpSlot.not_isCommitted_iff.2 (by rw [opened]; decide)

theorem State.mem_tilesOf {s : State} {k : Fin 4} {n : Fin 40} :
    n ∈ s.tilesOf k ↔ (s.tile n).state ≠ .free ∧ (s.tile n).owner = some k := by
  simp [State.tilesOf, allTiles]

/-- R33. Some tile of the store belongs to the slot. -/
theorem State.tilesOf_ne_nil {s : State} {k : Fin 4} :
    s.tilesOf k ≠ [] ↔ ∃ n, (s.tile n).state ≠ .free ∧ (s.tile n).owner = some k := by
  constructor
  · intro some
    obtain ⟨n, hn⟩ := List.exists_mem_of_ne_nil _ some
    exact ⟨n, State.mem_tilesOf.1 hn⟩
  · rintro ⟨n, hn⟩
    exact List.ne_nil_of_mem (State.mem_tilesOf.2 hn)

theorem ExpSlot.awaits_iff {x : ExpSlot} : x.awaits = true ↔ ∃ p ∈ x.placements, x.entry p.segment = .notStarted := by
  simp [ExpSlot.awaits]

theorem ExpSlot.not_allResolved_iff {x : ExpSlot} :
    x.allResolved = false ↔ ∃ p ∈ x.placements, ∀ w, x.entry p.segment ≠ .resolved w := by
  simp [ExpSlot.allResolved, Entry.not_isResolved_iff]

/-! ## Settling (R33) -/

section
variable {s : State} {k : Fin 4}

theorem State.settleSlot_of_uncommitted (h : (s.slot k).isCommitted = false) : s.settleSlot k = s := by
  rw [State.settleSlot, if_pos h]

theorem State.settleSlot_of_notStarted (h : (s.slot k).isCommitted = true) (timer : (s.slot k).timer = .notStarted) :
    s.settleSlot k = s.setSlot k { s.slot k with state := .committed } := by
  rw [State.settleSlot, if_neg (by rw [h]; exact nofun), if_pos timer]

theorem State.settleSlot_of_running (h : (s.slot k).isCommitted = true) (timer : (s.slot k).timer = .running)
    (awaits : (s.slot k).awaits = true) : s.settleSlot k = s.setSlot k { s.slot k with state := .reading } := by
  rw [State.settleSlot, if_neg (by rw [h]; exact nofun), if_neg (by rw [timer]; exact nofun), if_pos ⟨timer, awaits⟩]

theorem State.settleSlot_of_ended (h : (s.slot k).isCommitted = true) (started : (s.slot k).timer ≠ .notStarted)
    (ended : (s.slot k).timer ≠ .running ∨ (s.slot k).awaits = false) :
    s.settleSlot k =
      if (s.slot k).allResolved = false ∨ s.tilesOf k ≠ [] then
        s.setSlot k { s.slot k with state := .placing, timer := if (s.slot k).timer = .running then .stopped else (s.slot k).timer }
      else
        State.setSlot (State.raise { s with carry := (s.slot k).photo.scale } .exposureDone ((s.slot k).doneContent k .finished))
          k .empty := by
  have waits : ¬((s.slot k).timer = .running ∧ (s.slot k).awaits = true) := fun ⟨running, awaits⟩ => by
    rcases ended with h | h
    · exact h running
    · rw [awaits] at h
      cases h
  rw [State.settleSlot, if_neg (by rw [h]; exact nofun), if_neg started, if_neg waits]
  refine ite_congr rfl (fun _ => rfl) fun _ => ?_
  · simp only [State.finishSlot, State.endSlot, State.setSlot, State.slot, State.raise, Fin.getElem_fin, Vector.getElem_set_self,
      Vector.set_set]
    rfl

/-! ## Resolution (R46) -/

/-- The slot after a first resolution of a segment. -/
def ExpSlot.resolve (x : ExpSlot) (g : Fin 96) (why : Reason) : ExpSlot :=
  { x.setEntry g (.resolved why) with tallies := x.tallies.set why.num.val (x.tallies[why.num] + 1) why.num.isLt }

theorem State.recordResolution_of_resolved {g : Fin 96} (done : ((s.slot k).entry g).isResolved = true) (why : Reason) :
    s.recordResolution k g why = s := by
  rw [State.recordResolution, if_pos done]

theorem State.recordResolution_of_unlisted {g : Fin 96} (first : ((s.slot k).entry g).isResolved = false) (why : Reason)
    (unlisted : (s.slot k).isCommitted = false ∨ (s.slot k).placementFor g = none) :
    s.recordResolution k g why = s.setSlot k ((s.slot k).resolve g why) := by
  rw [State.recordResolution, if_neg (by rw [first]; exact nofun)]
  show (if (s.slot k).isCommitted = true then _ else _) = _
  split
  · next committed =>
    rcases unlisted with h | h
    · rw [committed] at h
      cases h
    · show (match (s.slot k).placementFor g with | some _ => _ | none => _) = _
      rw [h]
      rfl
  · rfl

theorem State.recordResolution_of_listed {g : Fin 96} {p : Placement} (first : ((s.slot k).entry g).isResolved = false) (why : Reason)
    (committed : (s.slot k).isCommitted = true) (listed : (s.slot k).placementFor g = some p) :
    s.recordResolution k g why = (s.setSlot k ((s.slot k).resolve g why)).payCells (decide (why = .placed)) p.cells := by
  rw [State.recordResolution, if_neg (by rw [first]; exact nofun)]
  show (if (s.slot k).isCommitted = true then _ else _) = _
  rw [if_pos committed]
  show (match (s.slot k).placementFor g with | some _ => _ | none => _) = _
  rw [listed]
  rfl

/-- A resolution changes one slot, and the canvas side. -/
theorem State.recordResolution_side {g : Fin 96} (first : ((s.slot k).entry g).isResolved = false) (why : Reason) :
    CanvasSide (s.setSlot k ((s.slot k).resolve g why)) (s.recordResolution k g why) := by
  cases committed : (s.slot k).isCommitted with
  | false =>
    rw [State.recordResolution_of_unlisted first why (.inl committed)]
    exact .refl _
  | true =>
    cases listed : (s.slot k).placementFor g with
    | none =>
      rw [State.recordResolution_of_unlisted first why (.inr listed)]
      exact .refl _
    | some p =>
      rw [State.recordResolution_of_listed first why committed listed]
      exact .payCells _ _ _

/-! ## The EXHAUSTED test (R105) -/

theorem State.freezeSlot_of_not_freezable (take : State → State) (h : (s.slot k).freezable = false) (cause : FreezeCause)
    (at_ : Option (Fin 96)) : s.freezeSlot take k cause at_ = s := by
  rw [State.freezeSlot, if_neg (by rw [h]; exact nofun)]

theorem State.exhaustedTest_of_uncommitted (take : State → State) (h : (s.slot k).isCommitted = false) : s.exhaustedTest take k = s := by
  rw [State.exhaustedTest, if_neg (by rw [h]; exact fun h => nomatch h.1)]

theorem State.exhaustedTest_of_not_freezable (take : State → State) (h : (s.slot k).freezable = false) :
    s.exhaustedTest take k = s := by
  rw [State.exhaustedTest]
  split
  · exact State.freezeSlot_of_not_freezable take h _ _
  · rfl

theorem State.exhaustedTest_of_unaccounted (take : State → State) {p : Placement} (hp : p ∈ (s.slot k).placements)
    (open_ : s.accounted k p.segment = false) : s.exhaustedTest take k = s := by
  refine if_neg fun ⟨_, all⟩ => ?_
  have counted := List.all_eq_true.1 all p hp
  rw [open_] at counted
  cases counted

theorem State.resolve_of_resolved (take : State → State) {g : Fin 96} (done : ((s.slot k).entry g).isResolved = true) (why : Reason) :
    s.resolve take k g why = s := by
  rw [State.resolve, if_pos done]

theorem State.resolve_of_first (take : State → State) {g : Fin 96} (first : ((s.slot k).entry g).isResolved = false) (why : Reason) :
    s.resolve take k g why = State.exhaustedTest take ((s.recordResolution k g why).settleSlot k) k := by
  rw [State.resolve, if_neg (by rw [first]; exact nofun)]

/-- A first resolution in a slot that is not committed. -/
theorem State.resolve_of_uncommitted (take : State → State) {g : Fin 96} (first : ((s.slot k).entry g).isResolved = false)
    (why : Reason) (h : (s.slot k).isCommitted = false) :
    s.resolve take k g why = s.setSlot k ((s.slot k).resolve g why) := by
  have still : ((s.setSlot k ((s.slot k).resolve g why)).slot k).isCommitted = false := by
    rw [State.slot_setSlot, if_pos rfl]
    exact h
  rw [State.resolve_of_first take first, State.recordResolution_of_unlisted first why (.inl h),
    State.settleSlot_of_uncommitted still, State.exhaustedTest_of_uncommitted take still]

end

/-! ## Leaving the store (R89) -/

section
variable (s : State) (t : Fin 40) (o : TileOutcome)

theorem State.leaveStore_tile (u : Fin 40) : (s.leaveStore t o).tile u = if t = u then .empty else s.tile u := by
  unfold State.leaveStore
  dsimp only
  rw [State.tile_setTile]
  split
  · rfl
  · split <;> rfl

theorem State.leaveStore_rest : { s.leaveStore t o with slots := s.slots, tiles := s.tiles, host := s.host } = s := by
  unfold State.leaveStore
  dsimp only
  split <;> rfl

theorem State.leaveStore_host : (s.leaveStore t o).host = s.host.raise .tileReport ((s.tile t).report t o) := by
  unfold State.leaveStore
  dsimp only
  split <;> rfl

theorem State.leaveStore_tiles : (s.leaveStore t o).tiles = { s.tiles with
    slots := s.tiles.slots.set t.val .empty t.isLt
    queue := s.tiles.queue.filter fun u => decide (u ≠ t)
    holding := s.tiles.holding.filter fun u => decide (u ≠ t) } := by
  unfold State.leaveStore
  dsimp only
  split <;> rfl

theorem State.dropMeasuring_rest (l : Fin 12) : { s.dropMeasuring t l with store := s.store, measuring := s.measuring } = s := by
  unfold State.dropMeasuring
  split
  · rfl
  · split <;> rfl

theorem State.withdrawWrite_rest (g : Fin 96) : { s.withdrawWrite g with store := s.store } = s := by
  unfold State.withdrawWrite
  split <;> rfl

/-- R89, R100. A discard is a leaving of the store, once the tile's claims and measurement are withdrawn. -/
theorem State.discardTile_eq : ∃ u : State, s.discardTile t o = u.leaveStore t o
    ∧ { u with store := s.store, measuring := s.measuring } = s := by
  unfold State.discardTile
  dsimp only
  split
  · split
    · exact ⟨_, rfl, (congrArg (fun x : State => ({ x with measuring := s.measuring } : State)) (s.withdrawWrite_rest _) :)⟩
    · exact ⟨_, rfl, s.dropMeasuring_rest _ _⟩
  · exact ⟨s, rfl, rfl⟩

theorem State.discardTile_tile (u : Fin 40) : (s.discardTile t o).tile u = if t = u then .empty else s.tile u := by
  obtain ⟨v, e, rest⟩ := s.discardTile_eq t o
  have tiles : v.tiles = s.tiles := (congrArg State.tiles rest :)
  rw [e, State.leaveStore_tile]
  simp only [State.tile, tiles]

theorem State.discardTile_tiles : (s.discardTile t o).tiles = { s.tiles with
    slots := s.tiles.slots.set t.val .empty t.isLt
    queue := s.tiles.queue.filter fun u => decide (u ≠ t)
    holding := s.tiles.holding.filter fun u => decide (u ≠ t) } := by
  obtain ⟨v, e, rest⟩ := s.discardTile_eq t o
  have tiles : v.tiles = s.tiles := (congrArg State.tiles rest :)
  rw [e, State.leaveStore_tiles, tiles]

theorem State.discardTile_host : (s.discardTile t o).host = s.host.raise .tileReport ((s.tile t).report t o) := by
  obtain ⟨v, e, rest⟩ := s.discardTile_eq t o
  have tiles : v.tiles = s.tiles := (congrArg State.tiles rest :)
  have host : v.host = s.host := (congrArg State.host rest :)
  rw [e, State.leaveStore_host, host, State.tile, State.tile, tiles]

theorem State.discardTile_rest :
    { s.discardTile t o with slots := s.slots, tiles := s.tiles, host := s.host, store := s.store, measuring := s.measuring } = s := by
  obtain ⟨v, e, rest⟩ := s.discardTile_eq t o
  have left := congrArg (fun x : State => ({ x with slots := s.slots, tiles := s.tiles, host := s.host, store := s.store,
                                                    measuring := s.measuring } : State)) (v.leaveStore_rest t o)
  have before := congrArg (fun x : State => ({ x with slots := s.slots, tiles := s.tiles, host := s.host } : State)) rest
  rw [e]
  exact left.trans before

end

/-! ## Routing and close (R83, R84) -/

section
variable {s : State} {l : Fin 12} {n : Fin 40} {k : Fin 4}

theorem State.routeTile_of_opened (opened : (s.slot k).state = .opened) :
    s.routeTile n k = s.modTile n fun y => { y with state := .heldPlan } := by
  have still : ((s.modTile n fun y => { y with state := .heldPlan }).slot k).isCommitted = false :=
    ExpSlot.not_isCommitted_of_opened opened
  rw [State.routeTile, if_pos opened, State.exhaustedTest_of_uncommitted _ still, State.settleSlot_of_uncommitted still]

theorem State.measureLoop_of_step {t : State} (step : s.measureStep l = (t, true)) (fuel : Nat) :
    s.measureLoop l (fuel + 1) = t.measureLoop l fuel := by
  rw [State.measureLoop, step]
  exact if_pos rfl

theorem State.measureLoop_of_wait {t : State} (step : s.measureStep l = (t, false)) (fuel : Nat) :
    s.measureLoop l (fuel + 1) = t := by
  rw [State.measureLoop, step]
  exact if_neg nofun

/-- A tile with no reference in its segment, closed by itself, is routed at once. -/
theorem State.measureRun_of_bare (queue : s.measure l = [{ tile := n, refs := [], boxRow := 0 }])
    (owner : (s.tile n).owner = some k) :
    s.measureRun l = ((s.setMeasure l []).routeTile n k).measureLoop l 1 := by
  have fuel : s.measureFuel l = 2 := by rw [State.measureFuel, queue]; rfl
  have step : s.measureStep l = ((s.setMeasure l []).routeTile n k, true) := by
    unfold State.measureStep
    rw [queue]
    simp only [owner]
  rw [State.measureRun, fuel]
  exact State.measureLoop_of_step step 1

theorem State.measureLoop_of_idle (idle : s.measure l = []) (fuel : Nat) : s.measureLoop l fuel = s := by
  cases fuel with
  | zero => rfl
  | succ fuel =>
    have step : s.measureStep l = (s, false) := by
      unfold State.measureStep
      rw [idle]
    exact State.measureLoop_of_wait step fuel

end

end Sys2Proof.Machine
end

section
/-!
PROOF. The close of a link's tiles, and the end of a link: loss of lock, loss of signal, LINK_DISABLE and LINK_RESET.
-/

namespace Sys2Proof.Machine

/-! ## What does not reach the tiles -/

/-- The tiles, the slots and the measurement are as they were. -/
structure TilesSame (s t : State) : Prop where
  tiles : t.tiles = s.tiles
  slots : t.slots = s.slots
  measuring : t.measuring = s.measuring

theorem TilesSame.trans {s t u : State} (a : TilesSame s t) (b : TilesSame t u) : TilesSame s u :=
  ⟨b.tiles.trans a.tiles, b.slots.trans a.slots, b.measuring.trans a.measuring⟩

theorem TilesSame.refl (s : State) : TilesSame s s := ⟨rfl, rfl, rfl⟩

theorem TilesSame.tile {s t : State} (h : TilesSame s t) (n : Fin 40) : t.tile n = s.tile n := by
  rw [State.tile, State.tile, h.tiles]

theorem TilesSame.slot {s t : State} (h : TilesSame s t) (k : Fin 4) : t.slot k = s.slot k := by
  rw [State.slot, State.slot, h.slots]

theorem TilesSame.measure {s t : State} (h : TilesSame s t) (l : Fin 12) : t.measure l = s.measure l := by
  rw [State.measure, State.measure, h.measuring]

theorem TilesSame.fillingTile {s t : State} (h : TilesSame s t) (g : Fin 96) : t.fillingTile g = s.fillingTile g := by
  simp only [State.fillingTile, h.tile]

theorem TilesSame.openTiles {s t : State} (h : TilesSame s t) (l : Fin 12) : t.openTiles l = s.openTiles l := by
  simp only [State.openTiles, h.fillingTile]

theorem PortSide.tilesSame {s t : State} (h : PortSide s t) : TilesSame s t :=
  ⟨(congrArg State.tiles h.rest :), (congrArg State.slots h.rest :), (congrArg State.measuring h.rest :)⟩

theorem Settled.tilesSame {s t : State} (h : Settled s t) : TilesSame s t :=
  ⟨(congrArg State.tiles h.rest :), (congrArg State.slots h.rest :), (congrArg State.measuring h.rest :)⟩

theorem Outbound.tilesSame {s t : State} (h : Outbound s t) : TilesSame s t :=
  ⟨(congrArg State.tiles h.rest :), (congrArg State.slots h.rest :), (congrArg State.measuring h.rest :)⟩

theorem CanvasSide.tilesSame {s t : State} (h : CanvasSide s t) : TilesSame s t :=
  ⟨(congrArg State.tiles h.rest :), (congrArg State.slots h.rest :), (congrArg State.measuring h.rest :)⟩

theorem TilesSame.withdraw (s : State) (c : Claim) : TilesSame s (s.withdraw c) := ⟨rfl, rfl, rfl⟩
theorem TilesSame.queueAnswer (s : State) (tag kind : Byte) (r : Result) : TilesSame s (s.queueAnswer tag kind r) := ⟨rfl, rfl, rfl⟩

theorem TilesSame.withdrawWrite (s : State) (g : Fin 96) : TilesSame s (s.withdrawWrite g) :=
  have rest := s.withdrawWrite_rest g
  ⟨(congrArg State.tiles rest :), (congrArg State.slots rest :), (congrArg State.measuring rest :)⟩

/-! ## The close of one tile -/

theorem State.fillingTile_spec {s : State} {g : Fin 96} {n : Fin 40} (h : s.fillingTile g = some n) :
    (s.tile n).state = .filling ∧ (s.tile n).segment = g ∧ (s.tile n).missing = none := by
  have spec := List.find?_some h
  exact of_decide_eq_true spec

theorem State.openTiles_spec {s : State} {l : Fin 12} {n : Fin 40} (h : n ∈ s.openTiles l) :
    (s.tile n).state = .filling ∧ (s.tile n).missing = none ∧ ∃ a, s.fillingTile (segmentOf l a) = some n := by
  rw [State.openTiles, List.mem_filterMap] at h
  obtain ⟨a, _, ha⟩ := h
  obtain ⟨filling, _, missing⟩ := State.fillingTile_spec ha
  exact ⟨filling, missing, a, ha⟩

theorem State.closeTiles_of_one {s : State} {l : Fin 12} {n : Fin 40} (one : s.openTiles l = [n]) (truncated : Bool) :
    s.closeTiles l truncated = s.closeTile l truncated n := by
  rw [State.closeTiles, one]
  rfl

@[simp] theorem State.setMeasure_self (s : State) (l : Fin 12) (m : List Measuring) : (s.setMeasure l m).setMeasure l (s.measure l) = s := by
  have same : s.measuring.set l.val (s.measure l) l.isLt = s.measuring := Vector.set_getElem_self ..
  simp only [State.setMeasure, Vector.set_set, same]

/-- The tile as it closes. -/
def Tile.closed (x : Tile) (truncated : Bool) : Tile := { x with missing := some (x.rows - x.received), truncated := truncated }

section
variable {s : State} {l : Fin 12} {n : Fin 40} {k : Fin 4} {truncated : Bool}

/-- R83. A tile within the missing-row limit, with no reference in its segment and no close under way, is routed at once. -/
theorem State.closeTile_routed (filling : (s.tile n).state = .filling) (fresh : (s.tile n).missing = none)
    (owner : (s.tile n).owner = some k) (within : (s.tile n).rows - (s.tile n).received ≤ (s.tile n).limit) (idle : s.measure l = [])
    (bare : (s.slot k).refsFor (s.tile n).segment = []) :
    s.closeTile l truncated n =
      (((s.withdrawWrite (s.tile n).segment).setTile n ((s.tile n).closed truncated)).routeTile n k).measureLoop l 1 := by
  have same := TilesSame.withdrawWrite s (s.tile n).segment
  have idle' : ((s.withdrawWrite (s.tile n).segment).setTile n ((s.tile n).closed truncated)).measure l = [] :=
    (same.measure l).trans idle
  have slot' : ((s.withdrawWrite (s.tile n).segment).setTile n ((s.tile n).closed truncated)).slot k = s.slot k := same.slot k
  unfold State.closeTile
  dsimp only
  rw [if_pos ⟨filling, fresh⟩]
  split
  · next none =>
    rw [owner] at none
    cases none
  · next j some =>
    obtain rfl : j = k := Option.some.inj (some.symm.trans owner)
    rw [if_neg (Nat.not_lt.2 within)]
    show (if decide (((s.withdrawWrite (s.tile n).segment).setTile n ((s.tile n).closed truncated)).measure l = []) = true then
      (((s.withdrawWrite (s.tile n).segment).setTile n ((s.tile n).closed truncated)).setMeasure l
        (((s.withdrawWrite (s.tile n).segment).setTile n ((s.tile n).closed truncated)).measure l
          ++ [Measuring.mk n ((((s.withdrawWrite (s.tile n).segment).setTile n ((s.tile n).closed truncated)).slot j).refsFor
            (s.tile n).segment) 0])).measureRun l else _) = _
    rw [slot', bare]
    generalize hu : (s.withdrawWrite (s.tile n).segment).setTile n ((s.tile n).closed truncated) = u at idle' ⊢
    have tile : (u.tile n).owner = Option.some j := by
      rw [← hu, State.tile_setTile, if_pos rfl]
      exact owner
    have run := State.measureRun_of_bare (s := u.setMeasure l [{ tile := n, refs := [], boxRow := 0 }]) (l := l) (n := n) (k := j)
      (by rw [State.measure_setMeasure, if_pos rfl]) tile
    rw [if_pos (decide_eq_true idle'), idle', List.nil_append, run]
    have back := u.setMeasure_self l [{ tile := n, refs := [], boxRow := 0 }]
    rw [idle'] at back
    rw [back]

/-- R83. A tile beyond the missing-row limit leaves, and its segment is RESOLVED ROWS. -/
theorem State.closeTile_discarded (filling : (s.tile n).state = .filling) (fresh : (s.tile n).missing = none)
    (owner : (s.tile n).owner = some k) (beyond : (s.tile n).limit < (s.tile n).rows - (s.tile n).received) :
    s.closeTile l truncated n =
      State.resolve State.take (((s.withdrawWrite (s.tile n).segment).setTile n ((s.tile n).closed truncated)).discardTile n .rows)
        k (s.tile n).segment .rows := by
  unfold State.closeTile
  dsimp only
  rw [if_pos ⟨filling, fresh⟩]
  split
  · next none =>
    rw [owner] at none
    cases none
  · next j some =>
    obtain rfl : j = k := Option.some.inj (some.symm.trans owner)
    rw [if_pos beyond]
    rfl

/-- The close of a tile of an OPEN slot, within the limit: HELD(PLAN). -/
theorem State.closeTile_of_opened (filling : (s.tile n).state = .filling) (fresh : (s.tile n).missing = none)
    (owner : (s.tile n).owner = some k) (within : (s.tile n).rows - (s.tile n).received ≤ (s.tile n).limit) (idle : s.measure l = [])
    (bare : (s.slot k).refsFor (s.tile n).segment = []) (opened : (s.slot k).state = .opened) :
    s.closeTile l truncated n = (s.withdrawWrite (s.tile n).segment).setTile n
      { (s.tile n).closed truncated with state := .heldPlan } := by
  have same := TilesSame.withdrawWrite s (s.tile n).segment
  have opened' : (((s.withdrawWrite (s.tile n).segment).setTile n ((s.tile n).closed truncated)).slot k).state = .opened :=
    (congrArg ExpSlot.state (same.slot k)).trans opened
  have idle' : ((((s.withdrawWrite (s.tile n).segment).setTile n ((s.tile n).closed truncated)).modTile n fun y =>
      { y with state := .heldPlan })).measure l = [] := (same.measure l).trans idle
  rw [State.closeTile_routed filling fresh owner within idle bare, State.routeTile_of_opened opened',
    State.measureLoop_of_idle idle']
  simp only [State.modTile, State.setTile, State.tile, Vector.set_set, Fin.getElem_fin, Vector.getElem_set_self]

/-- What a close beyond the limit leaves in an OPEN slot. -/
theorem State.closeTile_of_opened_discarded (filling : (s.tile n).state = .filling) (fresh : (s.tile n).missing = none)
    (owner : (s.tile n).owner = some k) (beyond : (s.tile n).limit < (s.tile n).rows - (s.tile n).received)
    (opened : (s.slot k).state = .opened) (inStore : (s.slot k).entry (s.tile n).segment = .inStore) :
    let t := s.closeTile l truncated n
    (t.tile n).state = .free ∧ (∀ m, m ≠ n → t.tile m = s.tile m)
      ∧ t.slot k = { s.slot k with totals := (s.slot k).totals.add ((s.tile n).closed truncated) }.resolve (s.tile n).segment .rows := by
  have same := TilesSame.withdrawWrite s (s.tile n).segment
  rw [State.closeTile_discarded filling fresh owner beyond]
  generalize hu : (s.withdrawWrite (s.tile n).segment).setTile n ((s.tile n).closed truncated) = u
  have tile : ∀ m, u.tile m = if n = m then (s.tile n).closed truncated else s.tile m := fun m => by
    rw [← hu, State.tile_setTile, same.tile]
  have slot : (u.discardTile n .rows).slot k = { s.slot k with totals := (s.slot k).totals.add ((s.tile n).closed truncated) } := by
    have before : u.slot k = s.slot k := by
      rw [← hu]
      exact same.slot k
    have own : (u.tile n).owner = some k := by
      rw [tile, if_pos rfl]
      exact owner
    rw [State.discardTile_slot, if_pos own, before, tile, if_pos rfl]
  have first : (((u.discardTile n .rows).slot k).entry (s.tile n).segment).isResolved = false := by
    rw [slot]
    show ((s.slot k).entry (s.tile n).segment).isResolved = false
    rw [inStore]
    rfl
  have uncommitted : ((u.discardTile n .rows).slot k).isCommitted = false := by
    rw [slot]
    exact ExpSlot.not_isCommitted_of_opened opened
  rw [State.resolve_of_uncommitted _ first _ uncommitted]
  refine ⟨?_, fun m hm => ?_, ?_⟩
  · show ((u.discardTile n .rows).tile n).state = .free
    rw [State.discardTile_tile, if_pos rfl]
    rfl
  · show (u.discardTile n .rows).tile m = s.tile m
    rw [State.discardTile_tile, if_neg (Ne.symm hm), tile, if_neg (Ne.symm hm)]
  · rw [State.slot_setSlot, if_pos rfl, slot]

end

end Sys2Proof.Machine
end

section
/-!
PROOF. The end of a link: what is left of the port, and of the link's open tiles.
-/

namespace Sys2Proof.Machine

/-! ## The port of a closed link -/

/-- R31. The relay record once a relay in flight is cut. -/
def Relay.cut (r : Relay) : Relay := if r.inFlight then r.ended else r

theorem Relay.cut_phase (r : Relay) : r.cut.phase = .idle := by
  unfold Relay.cut
  split
  · rfl
  · next idle => simpa [Relay.inFlight] using idle

theorem Relay.cut_owed (r : Relay) : r.cut.abortOwed = r.abortOwed := by
  unfold Relay.cut
  split <;> rfl

section
variable (s : State) (l : Fin 12)

theorem State.cutRelay_eq (o : RelayOutcome) : ∃ h, s.cutRelay l o = s.onPort l { s.port l with relay := (s.port l).relay.cut } h := by
  unfold State.cutRelay Relay.cut
  dsimp only
  split
  · exact ⟨_, rfl⟩
  · exact ⟨s.host, (s.onPort_self l).symm⟩

/-- The port of a closed link, but for what `f` does (R7, R8, R18, R19, R21). -/
def Port.lost (p : Port) (st : PortState) : Port :=
  { p with state := st, reason := none, buffer := [], ctx := none, hkPart := [], relay := p.relay.cut }

variable (st : PortState) (cause : LinkCause) (o : RelayOutcome) (f : Port → Port)

/-- The port once its buffer is dropped and its state changed, before its tiles close. -/
def State.unbuffered : State :=
  ((s.setPortState l st none cause).modPort l fun p => { p with buffer := [], ctx := none, hkPart := [] }).withdraw (.intake l)

theorem State.unbuffered_eq : s.unbuffered l st cause = State.withdraw
    (s.onPort l { s.port l with state := st, reason := none, buffer := [], ctx := none, hkPart := [] }
      (s.host.told l (s.port l) st none cause)) (.intake l) := by
  rw [State.unbuffered, State.setPortState_eq, State.onPort_modPort]

/-- The end of a link is the close of its tiles, once its buffer is dropped; then one port and the host link change. -/
theorem State.loseLink_eq : ∃ h, s.loseLink l st cause o f =
    ((s.unbuffered l st cause).closeTiles l true).onPort l (f ((s.port l).lost st)) h := by
  have closed := Inner.closeTiles (s.unbuffered l st cause) l true
  have port : ((s.unbuffered l st cause).closeTiles l true).port l
      = { s.port l with state := st, reason := none, buffer := [], ctx := none, hkPart := [] } := by
    rw [closed.port, State.unbuffered_eq]
    exact State.onPort_port_self s l _ (s.host.told l (s.port l) st none cause)
  obtain ⟨h, cut⟩ := State.cutRelay_eq ((s.unbuffered l st cause).closeTiles l true) l o
  refine ⟨h, ?_⟩
  show (((s.unbuffered l st cause).closeTiles l true).cutRelay l o).modPort l f = _
  rw [cut, State.onPort_modPort, port]
  rfl

theorem State.loseLink_port_self : (s.loseLink l st cause o f).port l = f ((s.port l).lost st) := by
  obtain ⟨h, e⟩ := s.loseLink_eq l st cause o f
  rw [e, State.onPort_port_self]

theorem State.loseLink_port_ne {j : Fin 12} (hj : j ≠ l) : (s.loseLink l st cause o f).port j = s.port j := by
  obtain ⟨h, e⟩ := s.loseLink_eq l st cause o f
  rw [e, State.onPort_port_ne _ _ _ _ hj, (Inner.closeTiles _ l true).port, State.unbuffered_eq]
  exact State.onPort_port_ne s l _ (s.host.told l (s.port l) st none cause) hj

theorem TilesSame.unbuffered : TilesSame s (s.unbuffered l st cause) := by
  rw [State.unbuffered_eq]
  exact ⟨rfl, rfl, rfl⟩

theorem TilesSame.onPort (p : Port) (h : HostLink) : TilesSame s (s.onPort l p h) := ⟨rfl, rfl, rfl⟩

theorem TilesSame.loseLink : TilesSame ((s.unbuffered l st cause).closeTiles l true) (s.loseLink l st cause o f) := by
  obtain ⟨h, e⟩ := s.loseLink_eq l st cause o f
  rw [e]
  exact .onPort _ l _ h

end

/-! ## The events and requests that end a link -/

section
variable {s : State} {l : Fin 12}

theorem State.signalGone_of_live (live : (s.port l).state ∈ [.waking, .aligning, .synced, .reading]) :
    s.signalGone l = (s.modPort l fun p => { p with signal := false }).loseLink l .down .signalLost .linkLost Port.dropped := by
  simp only [List.mem_cons, List.not_mem_nil, or_false] at live
  exact if_pos live

theorem exec_signalLoss_of {t : State} (gone : s.signalGone l = t)
    (idle : t.host.requests = []) : exec (.signalLoss l) s = .next t.settle.outboundGrant := by
  show Host.Outcome.next (s.signalGone l).settle.pump = _
  rw [gone, State.pump_idle _ ((congrArg HostLink.requests (Settled.settle t).host).trans idle)]

theorem exec_linkDisable_of_on (hs : s.Ready) (tag : Byte) (on : (s.port l).state ≠ .off) :
    exec (.linkDisable tag l.val) s = .next (State.answered
      (s.loseLink l .off .disable .cancelled Port.cleared).settle tag 0x03 []) := by
  have ⟨_, requests, _⟩ := hs
  refine exec_of_done (.linkDisable l.val) hs ?_ ?_
  · show s.linkDisable l.val = _
    rw [State.linkDisable, State.withLink_of_lt l.isLt, Fin.eta, if_neg on]
  · rw [(Settled.settle _).host, (Cascade.loseLink ..).requests]
    exact requests

theorem exec_linkReset_of_live (hs : s.Ready) (tag : Byte) (on : (s.port l).state ≠ .off) (up : (s.port l).state ≠ .down) :
    exec (.linkReset tag l.val) s = .next (State.answered
      ((s.loseLink l .down .reset .cancelled Port.cleared).detect l).settle tag 0x04 []) := by
  have ⟨_, requests, _⟩ := hs
  refine exec_of_done (.linkReset l.val) hs ?_ ?_
  · show s.linkReset l.val = _
    rw [State.linkReset, State.withLink_of_lt l.isLt, Fin.eta, if_neg on, if_neg up]
  · rw [(Settled.settle _).host, (Cascade.detect ..).requests, (Cascade.loseLink ..).requests]
    exact requests

/-- The grants and takes after, and an answer, leave the ports. -/
theorem State.answered_settled_port (t : State) (tag kind : Byte) (payload : List Byte) (j : Fin 12) :
    (State.answered t.settle tag kind payload).port j = t.port j :=
  ((Outbound.outboundGrant _).port j).trans ((Settled.settle t).port j)

theorem TilesSame.answered_settled (t : State) (tag kind : Byte) (payload : List Byte) :
    TilesSame t (State.answered t.settle tag kind payload) :=
  ((Settled.settle t).tilesSame.trans (.queueAnswer _ _ _ _)).trans (Outbound.outboundGrant _).tilesSame

theorem TilesSame.settled_granted (t : State) : TilesSame t t.settle.outboundGrant :=
  (Settled.settle t).tilesSame.trans (Outbound.outboundGrant _).tilesSame

theorem State.settled_granted_port (t : State) (j : Fin 12) : t.settle.outboundGrant.port j = t.port j :=
  ((Outbound.outboundGrant _).port j).trans ((Settled.settle t).port j)

theorem exec_signalLoss_of_live (requests : s.host.requests = []) (live : (s.port l).state ∈ [.waking, .aligning, .synced, .reading]) :
    exec (.signalLoss l) s = .next (State.outboundGrant (State.settle
      ((s.modPort l fun p => { p with signal := false }).loseLink l .down .signalLost .linkLost Port.dropped))) :=
  exec_signalLoss_of (State.signalGone_of_live live) ((Cascade.loseLink ..).requests.trans requests)

/-- The link of each of the three commands loses its port; what follows leaves the tiles. -/
theorem exec_linkEnd_tiles (hs : s.Ready) (live : (s.port l).state ∈ [.waking, .aligning, .synced, .reading]) (tag : Byte)
    {c : Instr} (hc : c ∈ [Instr.signalLoss l, .linkDisable tag l.val, .linkReset tag l.val]) :
    ∃ u t, exec c s = .next t ∧ TilesSame s u ∧ TilesSame (u.closeTiles l true) t := by
  have ⟨_, requests, _⟩ := hs
  have on : (s.port l).state ≠ .off := fun off => by rw [off] at live; exact absurd live (by decide)
  have up : (s.port l).state ≠ .down := fun down => by rw [down] at live; exact absurd live (by decide)
  simp only [List.mem_cons, List.not_mem_nil, or_false] at hc
  rcases hc with rfl | rfl | rfl
  · refine ⟨_, _, exec_signalLoss_of_live requests live, ?_, (TilesSame.loseLink ..).trans (.settled_granted _)⟩
    exact (PortSide.modPort s l _).tilesSame.trans (.unbuffered _ l _ _)
  · exact ⟨_, _, exec_linkDisable_of_on hs tag on, .unbuffered s l _ _, (TilesSame.loseLink ..).trans (.answered_settled _ _ _ _)⟩
  · exact ⟨_, _, exec_linkReset_of_live hs tag on up, .unbuffered s l _ _,
      ((TilesSame.loseLink ..).trans (PortSide.detect _ l).tilesSame).trans (.answered_settled _ _ _ _)⟩

theorem exec_linkReset_of_dark (hs : s.Ready) (tag : Byte) (on : (s.port l).state ≠ .off) (up : (s.port l).state ≠ .down)
    (dark : (s.port l).signal = false) : exec (.linkReset tag l.val) s = .next (State.answered
      (s.loseLink l .down .reset .cancelled Port.cleared).settle tag 0x04 []) := by
  rw [exec_linkReset_of_live hs tag on up, State.detect_still]
  right
  left
  rw [State.loseLink_port_self]
  exact dark

theorem exec_linkReset_of_lit (hs : s.Ready) (tag : Byte) (on : (s.port l).state ≠ .off) (up : (s.port l).state ≠ .down)
    (lit : (s.port l).signal = true) : ∃ h, exec (.linkReset tag l.val) s = .next (State.answered
      ((s.loseLink l .down .reset .cancelled Port.cleared).onPort l
        { ((s.port l).lost .down).cleared.woken with state := .waking, reason := none } h).settle tag 0x04 []) := by
  have ⟨ready, _, _⟩ := hs
  have port := s.loseLink_port_self l .down .reset .cancelled Port.cleared
  rw [exec_linkReset_of_live hs tag on up, State.detect_of (by rw [port]; rfl) (by rw [port]; exact lit)
    ((Cascade.loseLink ..).storeState.trans ready), State.modPort_eq_onPort, State.setPortState_eq, State.onPort_onPort,
    State.onPort_port_self, port]
  exact ⟨_, rfl⟩

end

/-- Settles O11: what is left of the port, and of an open tile, whichever way the link ends. -/
theorem linkEndsLeaveNothingOpen : Obligations.LinkEndsLeaveNothingOpen := by
  refine ⟨?_, fun s l requests silent => ?_, ?_, fun s l n tag hs above => ⟨fun off => ?_, fun down => ?_, fun off => ?_, ?_, ?_⟩⟩
  · intro s l tag hs open_ closed
    have ⟨_, requests, _⟩ := hs
    have phase := (s.port l).relay.cut_phase
    refine ⟨fun live => ?_, fun on => ?_, fun on up dark => ?_, fun on up lit => ?_⟩
    · have self : ((s.modPort l fun p => { p with signal := false }).port l) = { s.port l with signal := false } := by
        rw [State.port_modPort, if_pos rfl]
      refine ⟨_, exec_signalLoss_of_live requests live, ?_⟩
      rw [State.settled_granted_port, State.loseLink_port_self, self]
      refine ⟨rfl, rfl, ⟨rfl, rfl, rfl, rfl, phase, rfl, rfl, rfl, rfl, rfl, rfl, rfl, rfl, rfl⟩, fun j hj => ?_⟩
      rw [State.settled_granted_port, State.loseLink_port_ne _ _ _ _ _ _ hj, State.port_modPort, if_neg (Ne.symm hj)]
    · refine ⟨_, exec_linkDisable_of_on hs tag on, ?_⟩
      rw [State.answered_settled_port, State.loseLink_port_self]
      exact ⟨rfl, ⟨rfl, rfl, rfl, rfl, phase, rfl, rfl, rfl, rfl, rfl, rfl, rfl, rfl, rfl⟩, rfl, rfl, rfl,
        fun j hj => (State.answered_settled_port ..).trans (State.loseLink_port_ne _ _ _ _ _ _ hj)⟩
    · refine ⟨_, exec_linkReset_of_dark hs tag on up dark, ?_⟩
      rw [State.answered_settled_port, State.loseLink_port_self]
      exact ⟨rfl, ⟨rfl, rfl, rfl, rfl, phase, rfl, rfl, rfl, rfl, rfl, rfl, rfl, rfl, rfl⟩, rfl, rfl, rfl,
        fun j hj => (State.answered_settled_port ..).trans (State.loseLink_port_ne _ _ _ _ _ _ hj)⟩
    · obtain ⟨h, run⟩ := exec_linkReset_of_lit hs tag on up lit
      refine ⟨_, run, ?_⟩
      rw [State.answered_settled_port, State.onPort_port_self]
      refine ⟨rfl, ⟨rfl, rfl, rfl, rfl, phase, rfl, rfl, rfl, rfl, rfl, rfl, rfl, rfl, rfl⟩, rfl, rfl, rfl, fun j hj => ?_⟩
      rw [State.answered_settled_port, State.onPort_port_ne _ _ _ _ hj, State.loseLink_port_ne _ _ _ _ _ _ hj]
  · have gone : s.signalGone l = s.modPort l fun p => { p with signal := false } := by
      refine if_neg fun live => ?_
      simp only [List.mem_cons, List.not_mem_nil, or_false] at silent
      rcases silent with h | h | h <;> rw [h] at live <;> simp at live
    exact exec_signalLoss_of gone requests
  · intro s l n k tag hs live idle one owner opened bare c hc missing
    obtain ⟨u, t, run, same, ends⟩ := exec_linkEnd_tiles hs live tag hc
    obtain ⟨filling, fresh, _⟩ := State.openTiles_spec (s := s) (l := l) (n := n) (by rw [one]; exact List.mem_singleton_self n)
    have close := State.closeTiles_of_one ((same.openTiles l).trans one) true
    rw [← same.tile] at filling fresh owner
    rw [← same.slot] at opened
    refine ⟨fun within => ?_, fun beyond inStore => ?_⟩
    · have held := State.closeTile_of_opened (truncated := true) filling fresh owner (by rw [same.tile]; exact within)
        ((same.measure l).trans idle) (by rw [same.tile, same.slot]; exact bare) opened
      have written := TilesSame.withdrawWrite u (u.tile n).segment
      rw [close, held] at ends
      refine ⟨t, run, ends.slots.trans (written.slots.trans same.slots), ?_, fun m hm => ?_⟩
      · rw [ends.tile, State.tile_setTile, if_pos rfl, same.tile]
        rfl
      · rw [ends.tile, State.tile_setTile, if_neg (Ne.symm hm), written.tile, same.tile]
    · obtain ⟨free, others, slot⟩ := State.closeTile_of_opened_discarded (truncated := true) filling fresh owner
        (by rw [same.tile]; exact beyond) opened (by rw [same.tile, same.slot]; exact inStore)
      rw [close] at ends
      rw [← ends.slot] at slot
      refine ⟨t, run, ?_, ?_, ?_, fun m hm => ?_⟩
      · rw [ends.tile]
        exact free
      · rw [slot, ← same.tile]
        exact (ExpSlot.entry_setEntry ..).trans (if_pos rfl)
      · rw [slot, ← same.slot]
        exact satAdd_eq_min ..
      · rw [ends.tile, others m hm, same.tile]
  · refine exec_of_read (.linkDisable l.val) hs ?_
    show s.linkDisable l.val = _
    rw [State.linkDisable, State.withLink_of_lt l.isLt, Fin.eta, if_pos off]
  · refine exec_of_read (.linkReset l.val) hs ?_
    show s.linkReset l.val = _
    rw [State.linkReset, State.withLink_of_lt l.isLt, Fin.eta, if_neg (by rw [down]; exact nofun), if_pos down]
  · refine exec_of_refused (.linkReset l.val) hs ?_
    show s.linkReset l.val = _
    rw [State.linkReset, State.withLink_of_lt l.isLt, Fin.eta, if_pos off]
  · exact exec_of_refused (.linkDisable n) hs (dif_neg (by omega))
  · exact exec_of_refused (.linkReset n) hs (dif_neg (by omega))

/-! ## Bad frames in lock -/

/-- The fourth bad frame in a row (R7). -/
theorem exec_lockLost {s : State} {l : Fin 12} (rising : Bool) {bytes : List Byte} {why : BadReason} (requests : s.host.requests = [])
    (locked : (s.port l).state ∈ [.synced, .reading]) (bad : (s.port l).cfg.judge bytes = some why) (fourth : (s.port l).badRun = 3) :
    ∃ t, exec (.cameraFrame l rising bytes) s = .next t ∧ (t.port l).state = .waking ∧ (t.port l).wakeLimit = true
      ∧ (t.port l).buffer = [] ∧ (t.port l).ctx = none ∧ (t.port l).hkPart = [] ∧ (t.port l).relay.phase = .idle
      ∧ (t.port l).hk = (s.port l).hk ∧ (t.port l).cfg = (s.port l).cfg ∧ ∀ j, j ≠ l → t.port j = s.port j := by
  have frame := State.lockedFrame_lost bad fourth
  generalize hv : s.onPort l { (s.port l).badFrame why bytes with badRun := (s.port l).badRun + 1 } s.host = v at frame
  have vself : v.port l = { (s.port l).badFrame why bytes with badRun := (s.port l).badRun + 1 } := by
    rw [← hv, State.onPort_port_self]
  have self : (v.loseLock l).port l = ((v.port l).lost .waking).woken := State.loseLink_port_self ..
  have arrives : s.frameArrives l rising bytes = v.loseLock l := by
    rw [State.frameArrives_of_locked locked rising bytes, frame, State.sendLane, self]
    rfl
  have idle : (v.loseLock l).settle.host.requests = [] := by
    rw [(Settled.settle _).host, State.loseLock, (Cascade.loseLink ..).requests, ← hv]
    exact requests
  refine ⟨(v.loseLock l).settle.outboundGrant, ?_, ?_⟩
  · show Host.Outcome.next (s.frameArrives l rising bytes).settle.pump = _
    rw [arrives, State.pump_idle _ idle]
  · rw [State.settled_granted_port, self, vself]
    refine ⟨rfl, rfl, rfl, rfl, rfl, (s.port l).relay.cut_phase, rfl, rfl, fun j hj => ?_⟩
    rw [State.settled_granted_port, State.loseLock, State.loseLink_port_ne _ _ _ _ _ _ hj, ← hv, State.onPort_port_ne _ _ _ _ hj]

/-- Settles O17: a bad frame before the fourth in a row, and the fourth. -/
theorem badFramesCountTowardsLossOfLock : Obligations.BadFramesCountTowardsLossOfLock := by
  refine ⟨fun s l rising bytes why requests locked idle owed bad early => ?_,
    fun s l rising bytes why requests locked bad fourth => ?_⟩
  · have sends : (s.port l).state.sends = .idleFrames := by
      simp only [List.mem_cons, List.not_mem_nil, or_false] at locked
      rcases locked with h | h <;> rw [h] <;> rfl
    have arrives := State.frameArrives_of_locked locked rising bytes
    rw [State.lockedFrame_bad bad early, State.relayIdle_of_idle _ _ (by rw [State.onPort_port_self]; exact idle),
      State.sendLane_of_idle _ _ (by rw [State.onPort_port_self]; exact sends) (by rw [State.onPort_port_self]; exact idle)
        (by rw [State.onPort_port_self]; exact owed), State.onPort_onPort, State.onPort_port_self] at arrives
    obtain ⟨t, run, port, rest⟩ := exec_cameraFrame_leaves (rising := rising) arrives requests
    refine ⟨t, run, port.trans ?_, rest⟩
    rw [← satAdd_eq_min 4294967295]
    rfl
  · exact exec_lockLost rising requests locked bad fourth

end Sys2Proof.Machine
end

section
/-!
PROOF. The frame receiver of the host link over whole frames, and the frame check; a request command is the arrival of its frame.
-/

namespace Sys2Proof.Machine

/-! ## The receiver over escaped bytes -/

/-- The host link's receiver is set. -/
def State.receiving (s : State) (r : Receiver) : State := { s with host := { s.host with rx := r } }

/-- The receiver within a frame, with nothing held. -/
def Receiver.inBody (body : List Byte) : Receiver := { inFrame := true, body := body, escaped := false, pairs := 0 }

theorem State.flagged_eq (s : State) : s.flagged = s.receiving (.inBody []) := rfl

section
variable (s : State)

theorem State.rxBytes_append (a b : List Byte) : s.rxBytes (a ++ b) = (s.rxBytes a).rxBytes b := List.foldl_append ..

theorem State.rxBytes_singleton (b : Byte) : s.rxBytes [b] = s.rxByte b := rfl

theorem State.rxBytes_cons (b : Byte) (rest : List Byte) : s.rxBytes (b :: rest) = (s.rxByte b).rxBytes rest := rfl

/-- A byte that only changes the receiver. -/
theorem State.rxByte_quiet {r r' : Receiver} {b : Byte} (h : r.byte b = (r', none)) :
    (s.receiving r).rxByte b = s.receiving r' := by
  show (match (r.byte b).2 with
    | none => s.receiving (r.byte b).1
    | some e => ((s.receiving (r.byte b).1).rxEvent e).pump) = _
  rw [h]

/-- A byte that brings an event about. -/
theorem State.rxByte_event {r r' : Receiver} {b : Byte} {e : RxEvent} (h : r.byte b = (r', some e)) :
    (s.receiving r).rxByte b = ((s.receiving r').rxEvent e).pump := by
  show (match (r.byte b).2 with
    | none => s.receiving (r.byte b).1
    | some e => ((s.receiving (r.byte b).1).rxEvent e).pump) = _
  rw [h]

end

theorem Receiver.inBody_addByte {body : List Byte} (room : body.length < 4109) (escaped : Bool) (b : Byte) :
    ({ Receiver.inBody body with escaped := escaped } : Receiver).addByte b = (.inBody (body ++ [b]), none) :=
  if_pos room

theorem Receiver.inBody_overflow {body : List Byte} (full : body.length = 4109) (escaped : Bool) (b : Byte) :
    ({ Receiver.inBody body with escaped := escaped } : Receiver).addByte b = (.hunting, some (.discard .length)) :=
  if_neg fun room => absurd room (by show ¬body.length < 4109; omega)

/-- The last byte of an escaped byte adds the byte to the body. -/
theorem State.rxBytes_escapeByte (s : State) (body : List Byte) (b : Byte) :
    ∃ r last escaped, (s.receiving (.inBody body)).rxBytes (escapeByte b) = (s.receiving r).rxByte last
      ∧ r.byte last = ({ Receiver.inBody body with escaped := escaped } : Receiver).addByte b := by
  have held : (Receiver.inBody body).byte 0x7D = ({ Receiver.inBody body with escaped := true }, none) := rfl
  unfold escapeByte
  split
  · next flag =>
    refine ⟨{ Receiver.inBody body with escaped := true }, 0x5E, true, ?_, ?_⟩
    · rw [State.rxBytes_cons, s.rxByte_quiet held, State.rxBytes_singleton]
    · rw [flag]
      rfl
  · split
    · next escape =>
      refine ⟨{ Receiver.inBody body with escaped := true }, 0x5D, true, ?_, ?_⟩
      · rw [State.rxBytes_cons, s.rxByte_quiet held, State.rxBytes_singleton]
      · rw [escape]
        rfl
    · next plain notEscape =>
      refine ⟨.inBody body, b, false, rfl, ?_⟩
      rw [Receiver.byte, if_neg (by exact nofun), if_neg notEscape, if_neg (by exact fun h => h rfl), if_neg (by exact nofun),
        if_neg plain]
      rfl

/-- R174. The bytes of a body that fits, escaped, are gathered. -/
theorem State.rxBytes_body (s : State) : ∀ (body pre : List Byte), pre.length + body.length ≤ 4109 →
    (s.receiving (.inBody pre)).rxBytes (body.flatMap escapeByte) = s.receiving (.inBody (pre ++ body))
  | [], pre, _ => by
    rw [List.append_nil]
    rfl
  | b :: body, pre, fits => by
    rw [List.length_cons] at fits
    obtain ⟨r, last, escaped, bytes, byte⟩ := s.rxBytes_escapeByte pre b
    rw [Receiver.inBody_addByte (by omega)] at byte
    rw [List.flatMap_cons, State.rxBytes_append, bytes, s.rxByte_quiet byte, State.rxBytes_body s body (pre ++ [b])
      (by rw [List.length_append, List.length_singleton]; omega), List.append_assoc, List.singleton_append]

/-- R174. The byte that would grow a body beyond its largest length ends it. -/
theorem State.rxBytes_overflow (s : State) {body : List Byte} (long : body.length = 4110) :
    (s.receiving (.inBody [])).rxBytes (body.flatMap escapeByte) = ((s.receiving .hunting).lineError .length).pump := by
  have split : body = body.dropLast ++ [body.getLast (by rintro rfl; cases long)] := (List.dropLast_append_getLast _).symm
  have length : body.dropLast.length = 4109 := by rw [List.length_dropLast, long]
  obtain ⟨r, last, escaped, bytes, byte⟩ := s.rxBytes_escapeByte body.dropLast (body.getLast (by rintro rfl; cases long))
  rw [Receiver.inBody_overflow length] at byte
  rw [split, List.flatMap_append, State.rxBytes_append, s.rxBytes_body body.dropLast [] (by rw [length]; decide), List.nil_append,
    List.flatMap_singleton, bytes, s.rxByte_event byte]
  rfl

/-- Between frames, an opening flag. -/
theorem State.rxByte_flag {s : State} (between : s.host.rx.between) : s.rxByte 0x7E = s.receiving (.inBody []) := by
  have self : s = s.receiving s.host.rx := rfl
  rcases between with h | h
  · rw [h] at self
    rw [self]
    exact s.rxByte_quiet rfl
  · rw [h] at self
    rw [self]
    exact s.rxByte_quiet rfl

/-- A closing flag after a body. -/
theorem State.rxByte_close (s : State) {body : List Byte} (some_ : body ≠ []) :
    (s.receiving (.inBody body)).rxByte 0x7E = (s.flagged.rxEvent (.body body)).pump := by
  have byte : (Receiver.inBody body).byte 0x7E = (.inBody [], some (.body body)) := by
    show (Receiver.inBody [], if body = [] then none else some (RxEvent.body body)) = _
    rw [if_neg some_]
  exact s.rxByte_event byte

/-- A whole frame on the line, between frames. -/
theorem State.rxBytes_frame {s : State} (between : s.host.rx.between) {body : List Byte} (some_ : body ≠ [])
    (fits : body.length ≤ 4109) : s.rxBytes (frameBytes body) = (s.flagged.rxEvent (.body body)).pump := by
  rw [frameBytes, State.rxBytes_append, State.rxBytes_append, State.rxBytes_singleton, State.rxBytes_singleton,
    State.rxByte_flag between, s.rxBytes_body body [] (by rw [List.length_nil]; omega), List.nil_append, s.rxByte_close some_]

/-! ## Pairs of the clear sequence -/

/-- R176. One to three pairs are counted. -/
theorem State.rxBytes_pairs (s : State) (r : Receiver) (plain : r.escaped = false) : ∀ (n k : Nat), k + n ≤ 3 →
    (s.receiving { r with pairs := k }).rxBytes (List.replicate n [0x7D, 0xC1]).flatten = s.receiving { r with pairs := k + n }
  | 0, k, _ => rfl
  | n + 1, k, few => by
    have held : ({ r with pairs := k } : Receiver).byte 0x7D = ({ r with pairs := k, escaped := true }, none) := by
      show (if r.escaped = true then _ else _) = _
      rw [if_neg (by rw [plain]; exact nofun)]
      rfl
    have counted : ({ r with pairs := k, escaped := true } : Receiver).byte 0xC1 = ({ r with pairs := k + 1 }, none) := by
      show (if k + 1 = 4 then _ else _) = _
      rw [if_neg (by omega), ← plain]
    rw [List.replicate_succ, List.flatten_cons, State.rxBytes_append, State.rxBytes_cons, State.rxBytes_singleton,
      s.rxByte_quiet held, s.rxByte_quiet counted, State.rxBytes_pairs s r plain n (k + 1) (by omega)]
    congr 2
    omega

theorem huntByte_of_ne {b : Byte} (h : b ≠ 0x7D) : huntByte b = { Receiver.hunting with inFrame := decide (b = 0x7E) } := by
  unfold huntByte
  split
  · next flag => rw [decide_eq_true flag]
  · next plain =>
    rw [decide_eq_false plain]
    rfl

/-- R176. The byte that breaks a run of pairs: within a frame, and in HUNTING. -/
theorem Receiver.byte_breaks {r : Receiver} (plain : r.escaped = false) (pairs : r.pairs ≠ 0) {b : Byte} (hb : b ≠ 0x7D) :
    (r.inFrame = true → r.byte b = ({ Receiver.hunting with inFrame := decide (b = 0x7E) }, some (.discard .escape)))
    ∧ (r.inFrame = false → r.byte b = ({ Receiver.hunting with inFrame := decide (b = 0x7E) }, none)) := by
  rw [Receiver.byte, if_neg (by rw [plain]; exact nofun), if_neg hb, if_pos pairs, Receiver.breakRun, huntByte_of_ne hb]
  constructor <;> intro frame <;> rw [frame] <;> rfl

/-! ## The frame check (R175) -/

theorem crc16Bit_lt {c : Nat} (h : c < 65536) : crc16Bit c < 65536 := by
  unfold crc16Bit
  split
  · have mixed : (c * 2 % 65536) ^^^ 0x1021 < 2 ^ 16 := Nat.xor_lt_two_pow (Nat.mod_lt _ (by decide)) (by decide)
    omega
  · omega

theorem crc16Byte_lt {c : Nat} (h : c < 65536) (b : Byte) : crc16Byte c b < 65536 := by
  have byte := b.isLt
  have taken : c ^^^ b.toNat * 256 < 2 ^ 16 := Nat.xor_lt_two_pow (by omega) (by omega)
  unfold crc16Byte
  generalize c ^^^ b.toNat * 256 = x at taken ⊢
  iterate 8 apply crc16Bit_lt
  omega

theorem crc16Bytes_lt (l : List Byte) {c : Nat} (h : c < 65536) : l.foldl crc16Byte c < 65536 := by
  induction l generalizing c with
  | nil => exact h
  | cons b l ih =>
    rw [List.foldl_cons]
    exact ih (crc16Byte_lt h b)

theorem crc16_lt (bytes : List Byte) : crc16 bytes < 65536 := by
  unfold crc16
  exact crc16Bytes_lt bytes (by decide)

theorem frameBody_length (kind tag : Byte) (payload : List Byte) : (frameBody kind tag payload).length = payload.length + 6 := by
  simp [frameBody, code16]

theorem frameBody_ne_nil (kind tag : Byte) (payload : List Byte) : frameBody kind tag payload ≠ [] := by
  simp [frameBody]

theorem frameCheck_frameBody (kind tag : Byte) {payload : List Byte} (fits : payload.length ≤ 4103) (waiting : Nat) :
    frameCheck (frameBody kind tag payload) waiting = if 4 ≤ waiting then .error .overrun else .ok (kind, tag, payload) := by
  have length := frameBody_length kind tag payload
  have size : (BitVec.ofNat 8 payload.length).toNat + 256 * (BitVec.ofNat 8 (payload.length / 256)).toNat = payload.length := by
    simp only [BitVec.toNat_ofNat]
    omega
  have spelt : frameBody kind tag payload = kind :: tag :: BitVec.ofNat 8 payload.length :: BitVec.ofNat 8 (payload.length / 256)
      :: (payload ++ code16 (crc16 ([kind, tag] ++ code16 payload.length ++ payload))) := by
    simp [frameBody, code16]
  have cut : (frameBody kind tag payload).length - 2 = ([kind, tag] ++ code16 payload.length ++ payload).length := by
    rw [length]
    simp [code16]
  have crc : crc16 ((frameBody kind tag payload).take ((frameBody kind tag payload).length - 2))
      = bytesToNat ((frameBody kind tag payload).drop ((frameBody kind tag payload).length - 2)) := by
    rw [cut, frameBody, List.take_left, List.drop_left, bytesToNat_code16 (crc16_lt _)]
  rw [spelt] at crc length ⊢
  unfold frameCheck
  dsimp only
  rw [size, if_neg, if_neg (not_not.2 crc)]
  · rw [List.take_left]
    rfl
  · rw [length]
    show ¬(payload.length + 6 < 6 ∨ payload.length ≠ payload.length + 6 - 6 ∨ 4103 < payload.length)
    omega

/-- A body without a header has fewer than four bytes. -/
theorem length_lt_of_short {body : List Byte}
    (short : ∀ (kind tag lo hi : Byte) (rest : List Byte), body = kind :: tag :: lo :: hi :: rest → False) : body.length < 4 := by
  rcases body with _ | ⟨kind, _ | ⟨tag, _ | ⟨lo, _ | ⟨hi, rest⟩⟩⟩⟩
  · exact Nat.zero_lt_succ 3
  · exact Nat.succ_lt_succ (Nat.zero_lt_succ 2)
  · exact Nat.succ_lt_succ (Nat.succ_lt_succ (Nat.zero_lt_succ 1))
  · exact Nat.lt_succ_self 3
  · exact (short kind tag lo hi rest rfl).elim

/-- A body of wrong length: shorter than 6 bytes, or with a payload length that is not its own, or above 4103. -/
def bodyLong (body : List Byte) : Prop :=
  body.length < 6 ∨ bytesToNat ((body.drop 2).take 2) ≠ body.length - 6 ∨ 4103 < bytesToNat ((body.drop 2).take 2)

theorem frameCheck_of_long {body : List Byte} (long : bodyLong body) (waiting : Nat) : frameCheck body waiting = .error .length := by
  unfold frameCheck
  split
  · next kind tag lo hi rest =>
    refine if_pos ?_
    simpa [bodyLong, bytesToNat, Config.maxPayload] using long
  · rfl

theorem frameCheck_of_unsound {body : List Byte} (sized : ¬bodyLong body)
    (unsound : crc16 (body.take (body.length - 2)) ≠ bytesToNat (body.drop (body.length - 2))) (waiting : Nat) :
    frameCheck body waiting = .error .crc := by
  unfold frameCheck
  split
  · next kind tag lo hi rest =>
    refine (if_neg ?_).trans (if_pos unsound)
    simpa [bodyLong, bytesToNat, Config.maxPayload] using sized
  · next short =>
    exfalso
    refine sized (.inl ?_)
    exact Nat.lt_of_lt_of_le (length_lt_of_short short) (by decide)

theorem frameCheck_of_overrun {body : List Byte} (sized : ¬bodyLong body)
    (sound : crc16 (body.take (body.length - 2)) = bytesToNat (body.drop (body.length - 2))) {waiting : Nat} (full : 4 ≤ waiting) :
    frameCheck body waiting = .error .overrun := by
  unfold frameCheck
  split
  · next kind tag lo hi rest =>
    refine (if_neg ?_).trans ((if_neg (not_not.2 sound)).trans (if_pos full))
    simpa [bodyLong, bytesToNat, Config.maxPayload] using sized
  · next short =>
    exfalso
    refine sized (.inl ?_)
    exact Nat.lt_of_lt_of_le (length_lt_of_short short) (by decide)

theorem State.rxEvent_of_error {s : State} {body : List Byte} {cause : LineCause}
    (check : frameCheck body s.host.requests.length = .error cause) : s.rxEvent (.body body) = s.lineError cause := by
  show (match frameCheck body s.host.requests.length with
    | .error cause => s.lineError cause
    | .ok (kind, tag, payload) =>
      { s with host := { s.host with requests := s.host.requests ++ [(tag, readRequest kind payload)] } } : State) = _
  rw [check]

theorem State.rxEvent_of_ok {s : State} {body : List Byte} {kind tag : Byte} {payload : List Byte}
    (check : frameCheck body s.host.requests.length = .ok (kind, tag, payload)) : s.rxEvent (.body body)
      = { s with host := { s.host with requests := s.host.requests ++ [(tag, readRequest kind payload)] } } := by
  show (match frameCheck body s.host.requests.length with
    | .error cause => s.lineError cause
    | .ok (kind, tag, payload) =>
      { s with host := { s.host with requests := s.host.requests ++ [(tag, readRequest kind payload)] } } : State) = _
  rw [check]

/-! ## Frames on the line -/

/-- A checked frame joins the request buffer, or is discarded OVERRUN. -/
theorem exec_hostFrame (kind tag : Byte) {payload : List Byte} {s : State} (fits : payload.length ≤ 4103) (between : s.host.rx.between) :
    exec (.hostFrame (frameBytes (frameBody kind tag payload))) s = .next (State.pump
      (if 4 ≤ s.host.requests.length then s.flagged.lineError .overrun
       else { s.flagged with host := { s.flagged.host with
         requests := s.host.requests ++ [(tag, readRequest kind payload)] } })) := by
  show Host.Outcome.next (s.rxBytes (frameBytes (frameBody kind tag payload))) = _
  rw [State.rxBytes_frame between (frameBody_ne_nil kind tag payload) (by rw [frameBody_length]; omega)]
  have check := frameCheck_frameBody kind tag fits s.flagged.host.requests.length
  congr 2
  split
  · next full => exact State.rxEvent_of_error (check.trans (if_pos full))
  · next room => exact State.rxEvent_of_ok (check.trans (if_neg room))

theorem exec_discardedFrame {s : State} (between : s.host.rx.between) {body : List Byte} (some_ : body ≠ [])
    (fits : body.length ≤ 4109) {cause : LineCause} (check : frameCheck body s.host.requests.length = .error cause) :
    exec (.hostFrameDiscard (frameBytes body)) s = .next (s.flagged.lineError cause).pump := by
  show Host.Outcome.next (s.rxBytes (frameBytes body)) = _
  rw [State.rxBytes_frame between some_ fits, State.rxEvent_of_error (s := s.flagged) check]

/-- Settles O5: whole frames, bad escapes, bodies too long, and runs of pairs. -/
theorem hostFramesAreJudged : Obligations.HostFramesAreJudged := by
  refine ⟨fun kind tag payload s fits between => exec_hostFrame kind tag fits between,
    fun s between => ⟨fun body some_ fits => ?_, fun b flag escape pair => ?_⟩,
    fun s body between => ⟨fun long => ?_, fun n b fits one few hb => ?_⟩, fun s n b hunting one few hb => ?_, fun s cause => ?_⟩
  · exact ⟨fun long => exec_discardedFrame between some_ fits (frameCheck_of_long long _),
      fun sized unsound => exec_discardedFrame between some_ fits (frameCheck_of_unsound sized unsound _),
      fun sized sound full => exec_discardedFrame between some_ fits (frameCheck_of_overrun sized sound full)⟩
  · have held : (Receiver.inBody []).byte 0x7D = ({ Receiver.inBody [] with escaped := true }, none) := rfl
    have bad : ({ Receiver.inBody [] with escaped := true } : Receiver).byte b = (.hunting, some (.discard .escape)) := by
      show Receiver.escapedByte _ b = _
      rw [Receiver.escapedByte, if_neg pair, if_neg (by exact fun h => h.elim (fun h => h rfl) nofun), if_neg flag, if_neg escape]
    show Host.Outcome.next (s.rxBytes [0x7E, 0x7D, b]) = _
    rw [State.rxBytes_cons, State.rxByte_flag between, State.rxBytes_cons, s.rxByte_quiet held, State.rxBytes_singleton,
      s.rxByte_event bad]
    rfl
  · show Host.Outcome.next (s.rxBytes (0x7E :: body.flatMap escapeByte)) = _
    rw [State.rxBytes_cons, State.rxByte_flag between, s.rxBytes_overflow long]
    rfl
  · show Host.Outcome.next (s.rxBytes (0x7E :: body.flatMap escapeByte ++ (List.replicate n [0x7D, 0xC1]).flatten ++ [b])) = _
    have pairs := s.rxBytes_pairs (.inBody body) rfl n 0 (by omega)
    have breaks := (Receiver.byte_breaks (r := { Receiver.inBody body with pairs := 0 + n }) rfl (by show 0 + n ≠ 0; omega) hb).1 rfl
    rw [State.rxBytes_append, State.rxBytes_append, s.rxBytes_cons 0x7E, State.rxByte_flag between,
      s.rxBytes_body body [] (by rw [List.length_nil]; omega), List.nil_append]
    exact congrArg Host.Outcome.next ((congrArg (State.rxBytes · [b]) pairs).trans (s.rxByte_event breaks))
  · show Host.Outcome.next (s.rxBytes ((List.replicate n [0x7D, 0xC1]).flatten ++ [b])) = _
    have self : s = s.receiving { Receiver.hunting with pairs := 0 } := by
      have same : s = s.receiving s.host.rx := rfl
      rw [hunting] at same
      exact same
    have pairs := s.rxBytes_pairs .hunting rfl n 0 (by omega)
    have breaks := (Receiver.byte_breaks (r := { Receiver.hunting with pairs := 0 + n }) rfl (by show 0 + n ≠ 0; omega) hb).2 rfl
    rw [← self] at pairs
    rw [State.rxBytes_append, pairs]
    exact congrArg Host.Outcome.next (s.rxByte_quiet breaks)
  · rw [← satAdd_eq_min]
    rfl

/-- The payload of every request command reads back as its request. -/
theorem readRequest_payload {c : Instr} (wf : c.wf = true) {tag : Byte} {r : Request} (command : requestOf c = some (tag, r)) :
    readRequest r.kind r.payload = r := by
  cases c with
  | unknownKind _ _ => exact Laws.Fields.unknownKind _ _ wf tag r command
  | linkEnable _ _ => exact Laws.Fields.linkEnable _ _ wf tag r command
  | linkConfig _ _ _ _ _ _ _ _ _ _ => exact Laws.Fields.linkConfig _ _ _ _ _ _ _ _ _ _ wf tag r command
  | linkDisable _ _ => exact Laws.Fields.linkDisable _ _ wf tag r command
  | linkReset _ _ => exact Laws.Fields.linkReset _ _ wf tag r command
  | linkQuery _ _ => exact Laws.Fields.linkQuery _ _ wf tag r command
  | hkRead _ _ => exact Laws.Fields.hkRead _ _ wf tag r command
  | relay _ _ _ _ _ => exact Laws.Fields.relay _ _ _ _ _ wf tag r command
  | exposureOpen _ _ _ _ _ _ _ _ _ _ _ => exact Laws.Fields.exposureOpen _ _ _ _ _ _ _ _ _ _ _ wf tag r command
  | planPlace _ _ _ _ _ _ _ _ _ _ _ => exact Laws.Fields.planPlace _ _ _ _ _ _ _ _ _ _ _ wf tag r command
  | planRef _ _ _ => exact Laws.Fields.planRef _ _ _ wf tag r command
  | exposureCommit _ _ => exact Laws.Fields.exposureCommit _ _ wf tag r command
  | exposureAbandon _ _ => exact Laws.Fields.exposureAbandon _ _ wf tag r command
  | exposureQuery _ _ => exact Laws.Fields.exposureQuery _ _ wf tag r command
  | calLoad _ _ _ _ _ _ _ _ _ => exact Laws.Fields.calLoad _ _ _ _ _ _ _ _ _ wf tag r command
  | calApplyNow _ _ => exact Laws.Fields.calApplyNow _ _ wf tag r command
  | calApplyNextReadout _ _ => exact Laws.Fields.calApplyNextReadout _ _ wf tag r command
  | calApplyDisarm _ _ => exact Laws.Fields.calApplyDisarm _ _ wf tag r command
  | calQuery _ _ => exact Laws.Fields.calQuery _ _ wf tag r command
  | flatBegin _ _ _ _ _ => exact Laws.Fields.flatBegin _ _ _ _ _ wf tag r command
  | flatData _ _ _ _ => exact Laws.Fields.flatData _ _ _ _ wf tag r command
  | flatEnd _ _ => exact Laws.Fields.flatEnd _ _ wf tag r command
  | flatDrop _ _ => exact Laws.Fields.flatDrop _ _ wf tag r command
  | flatQuery _ _ => exact Laws.Fields.flatQuery _ _ wf tag r command
  | storeQuery _ => exact Laws.Fields.storeQuery _ wf tag r command
  | scaleSet _ _ _ => exact Laws.Fields.scaleSet _ _ _ wf tag r command
  | canvasOpen _ _ _ _ => exact Laws.Fields.canvasOpen _ _ _ _ wf tag r command
  | canvasClose _ => exact Laws.Fields.canvasClose _ wf tag r command
  | cellRelease _ _ => exact Laws.Fields.cellRelease _ _ wf tag r command
  | cellQuery _ _ => exact Laws.Fields.cellQuery _ _ wf tag r command
  | canvasAbandon _ => exact Laws.Fields.canvasAbandon _ wf tag r command
  | drainHold _ => exact Laws.Fields.drainHold _ wf tag r command
  | drainResume _ => exact Laws.Fields.drainResume _ wf tag r command
  | park _ => exact Laws.Fields.park _ wf tag r command
  | unpark _ => exact Laws.Fields.unpark _ wf tag r command
  | status _ => exact Laws.Fields.status _ wf tag r command
  | noticeMask _ _ => exact Laws.Fields.noticeMask _ _ wf tag r command
  | clear _ => exact Laws.Fields.clear _ wf tag r command
  | _ => cases command

/-- Only UNKNOWN_KIND brings a request of unknown kind, and its kind names none. -/
theorem not_namesRequest_of_unknown {c : Instr} (wf : c.wf = true) {tag kind : Byte}
    (command : requestOf c = some (tag, .unknown kind)) : namesRequest kind = false := by
  cases c with
  | unknownKind tag' kind' =>
    cases command
    exact Bool.not_eq_true' _ |>.mp wf
  | _ => cases command

/-- Settles O4: the frame's payload reads back as the request. -/
theorem requestCommandIsItsFrame : Obligations.RequestCommandIsItsFrame := by
  intro c tag r s wf command fits between
  rw [exec_hostFrame r.kind tag fits between, readRequest_payload wf command]
  rcases exec_request command s.flagged with arrives | ⟨kind, unknown, named, _⟩
  · exact arrives.symm
  · rw [unknown] at command
    rw [not_namesRequest_of_unknown wf command] at named
    cases named

end Sys2Proof.Machine
end

section
/-!
PROOF. The request handler's refusals, and that a refusal changes nothing but where FLAT_END's check fails.
-/

namespace Sys2Proof.Machine

/-! ## A refusal leaves the state -/

/-- A reply to a request in `s` that is no refusal, or leaves `s` as it is, or is CHECK_FAILED. -/
def State.Clean (s : State) (a : Reply) : Prop := ∀ why, a.2 = some (.refused why) → why ≠ .checkFailed → a.1 = s

section
variable {s : State}

theorem State.Clean.refuse (why : RefuseReason) : s.Clean (s.refuse why) := fun _ _ _ => rfl
theorem State.Clean.done (t : State) (payload : List Byte) : s.Clean (t.done payload) := fun _ h => nomatch h
theorem State.Clean.pending (t : State) : s.Clean (t, none) := fun _ h => nomatch h

theorem State.Clean.ite {c : Prop} [Decidable c] {a b : Reply} (ha : s.Clean a) (hb : s.Clean b) : s.Clean (if c then a else b) := by
  split
  · exact ha
  · exact hb

theorem State.Clean.dite {c : Prop} [Decidable c] {a : c → Reply} {b : ¬c → Reply} (ha : ∀ h, s.Clean (a h))
    (hb : ∀ h, s.Clean (b h)) : s.Clean (if h : c then a h else b h) := by
  split
  · exact ha _
  · exact hb _

theorem State.Clean.withLink {link : Nat} {f : Fin 12 → Reply} (h : ∀ l, s.Clean (f l)) : s.Clean (s.withLink link f) :=
  .dite (fun _ => h _) fun _ => .refuse _

theorem State.Clean.withFlat {i : Nat} {f : Fin 24 → Reply} (h : ∀ i, s.Clean (f i)) : s.Clean (s.withFlat i f) :=
  .dite (fun _ => h _) fun _ => .refuse _

theorem State.Clean.withCell {i : Nat} {f : Cell → Reply} (h : ∀ c, s.Clean (f c)) : s.Clean (s.withCell i f) := by
  unfold State.withCell
  refine .ite (.refuse _) (.ite (.refuse _) ?_)
  split
  · exact .refuse _
  · exact h _

/-! ## Request by request -/

theorem State.linkEnable_clean (link : Nat) : s.Clean (s.linkEnable link) := .withLink fun _ => .ite (.done _ _) (.done _ _)

theorem State.linkConfig_clean (link slots active rows overscan missing low high warm : Nat) :
    s.Clean (s.linkConfig link slots active rows overscan missing low high warm) :=
  .withLink fun _ => .ite (.refuse _) (.ite (.refuse _) (.done _ _))

theorem State.linkDisable_clean (link : Nat) : s.Clean (s.linkDisable link) := .withLink fun _ => .ite (.done _ _) (.done _ _)

theorem State.linkReset_clean (link : Nat) : s.Clean (s.linkReset link) :=
  .withLink fun _ => .ite (.refuse _) (.ite (.done _ _) (.done _ _))

theorem State.relayRequest_clean (link : Nat) (outgoing : List Byte) (expected timeout : Nat) :
    s.Clean (s.relayRequest link outgoing expected timeout) :=
  .withLink fun _ => .ite (.refuse _) (.ite (.refuse _) (.ite (.refuse _) (.done _ _)))

theorem State.exposureOpen_clean (exposure mode : Nat) (initial : Option Nat)
    (lower upper attack decay quota nominal limit : Nat) :
    s.Clean (s.exposureOpen exposure mode initial lower upper attack decay quota nominal limit) := by
  unfold State.exposureOpen
  split
  · exact .refuse _
  · refine .ite (.refuse _) (.ite (.refuse _) (.ite (.refuse _) ?_))
    split
    · exact .refuse _
    · exact .done _ _

theorem State.planPlace_clean (exposure segment weight anchorX anchorY : Nat) (colX colY rowX rowY : Int) (cells : List Nat) :
    s.Clean (s.planPlace exposure segment weight anchorX anchorY colX colY rowX rowY cells) := by
  unfold State.planPlace
  split
  · exact .refuse _
  · exact .ite (.refuse _) (.dite (fun _ => .ite (.refuse _) (.done _ _)) fun _ => .refuse _)

theorem State.planRef_clean (exposure : Nat) (refs : List (Nat × Nat × Nat × F32)) : s.Clean (s.planRef exposure refs) := by
  unfold State.planRef
  split
  · exact .refuse _
  · exact .ite (.refuse _) (.ite (.refuse _) (.ite (.refuse _) (.done _ _)))

theorem State.exposureCommit_clean (exposure : Nat) : s.Clean (s.exposureCommit exposure) := by
  unfold State.exposureCommit
  split
  · exact .refuse _
  · refine .ite (.refuse _) ?_
    split
    · exact .refuse _
    · exact .done _ _

theorem State.exposureAbandon_clean (exposure : Nat) : s.Clean (s.exposureAbandon exposure) := by
  unfold State.exposureAbandon
  split
  · exact .refuse _
  · exact .done _ _

theorem State.exposureQuery_clean (exposure : Nat) : s.Clean (s.exposureQuery exposure) := by
  unfold State.exposureQuery
  split
  · exact .refuse _
  · exact .done _ _

theorem State.calLoad_clean (segment mode skip level gain : Nat) (flat : Option Nat) (saturation : Nat)
    (defects : List (Nat × Nat × Nat × Nat)) : s.Clean (s.calLoad segment mode skip level gain flat saturation defects) := by
  unfold State.calLoad
  refine .dite (fun _ => ?_) fun _ => .refuse _
  dsimp only
  split
  · exact .refuse _
  · refine .ite (.refuse _) ?_
    split
    · exact .refuse _
    · exact .done _ _

theorem State.calApply_clean (segments : BitVec 96) (when_ : Nat) : s.Clean (s.calApply segments when_) := by
  unfold State.calApply
  refine .ite (.refuse _) ?_
  split
  · exact .ite (.refuse _) (.ite (.refuse _) (.done _ _))
  · exact .ite (.refuse _) (.done _ _)
  · exact .done _ _
  · exact .refuse _

theorem State.calQuery_clean (segment : Nat) : s.Clean (s.calQuery segment) := .dite (fun _ => .done _ _) fun _ => .refuse _

theorem State.flatBegin_clean (index columns rows : Nat) (check : BitVec 32) : s.Clean (s.flatBegin index columns rows check) :=
  .withFlat fun _ => .ite (.refuse _) (.ite (.refuse _) (.ite (.refuse _) (.done _ _)))

theorem State.flatData_clean (tag : Byte) (index offset : Nat) (values : List Nat) :
    s.Clean (s.flatData tag index offset values) :=
  .withFlat fun _ => .ite (.refuse _) (.ite (.refuse _) (.ite (.refuse _) (.ite (.refuse _) (.pending _))))

/-- The failed check of FLAT_END empties the entry (R73); it is the one refusal that changes something. -/
theorem State.flatEnd_clean (index : Nat) : s.Clean (s.flatEnd index) := by
  refine .withFlat fun i => .ite (.refuse _) (.ite (.done _ _) ?_)
  intro why failed other
  cases failed
  exact absurd rfl other

theorem State.flatDrop_clean (index : Nat) : s.Clean (s.flatDrop index) := .withFlat fun _ => .ite (.refuse _) (.done _ _)

theorem State.scaleSet_clean (exposure value : Nat) : s.Clean (s.scaleSet exposure value) := by
  unfold State.scaleSet
  split
  · exact .refuse _
  · exact .ite (.refuse _) (.ite (.refuse _) (.done _ _))

theorem State.canvasOpen_clean (width height order : Nat) : s.Clean (s.canvasOpen width height order) := by
  unfold State.canvasOpen
  split
  · exact .refuse _
  · exact .ite (.refuse _) (.ite (.refuse _) (.done _ _))

theorem State.cellRelease_clean (cell : Nat) : s.Clean (s.cellRelease cell) :=
  .withCell fun _ => .ite (.done _ _) (.ite (.done _ _) (.done _ _))

theorem State.drainHold_clean : s.Clean s.drainHold := by
  unfold State.drainHold
  refine .ite (.done _ _) ?_
  dsimp only
  split
  · exact .ite (.done _ _) (.done _ _)
  · exact .done _ _
  · exact .done _ _
  · exact .done _ _
  · exact .done _ _

theorem State.drainResume_clean : s.Clean s.drainResume := by
  unfold State.drainResume
  refine .ite (.done _ _) ?_
  dsimp only
  split <;> exact .done _ _

/-- A refusal of the owning block leaves the state, but for the failed check of FLAT_END. -/
theorem State.owner_clean (s : State) (tag : Byte) (r : Request) : s.Clean (s.owner tag r) := by
  cases r with
  | unknown k => exact .refuse _
  | badLength k => exact .refuse _
  | linkEnable link => exact State.linkEnable_clean link
  | linkConfig link slots active rows overscan missing low high warm => exact State.linkConfig_clean _ _ _ _ _ _ _ _ _
  | linkDisable link => exact State.linkDisable_clean link
  | linkReset link => exact State.linkReset_clean link
  | linkQuery link => exact .withLink fun _ => .done _ _
  | hkRead link => exact .withLink fun _ => .done _ _
  | relay link outgoing expected timeout => exact State.relayRequest_clean _ _ _ _
  | exposureOpen exposure mode initial lower upper attack decay quota nominal limit => exact State.exposureOpen_clean _ _ _ _ _ _ _ _ _ _
  | planPlace exposure segment weight anchorX anchorY colX colY rowX rowY cells => exact State.planPlace_clean _ _ _ _ _ _ _ _ _ _
  | planRef exposure refs => exact State.planRef_clean _ _
  | exposureCommit exposure => exact State.exposureCommit_clean exposure
  | exposureAbandon exposure => exact State.exposureAbandon_clean exposure
  | exposureQuery exposure => exact State.exposureQuery_clean exposure
  | calLoad segment mode skip level gain flat saturation defects => exact State.calLoad_clean _ _ _ _ _ _ _ _
  | calApply segments when_ => exact State.calApply_clean _ _
  | calQuery segment => exact State.calQuery_clean segment
  | flatBegin index columns rows check => exact State.flatBegin_clean _ _ _ _
  | flatData index offset values => exact State.flatData_clean _ _ _ _
  | flatEnd index => exact State.flatEnd_clean index
  | flatDrop index => exact State.flatDrop_clean index
  | flatQuery index => exact .withFlat fun _ => .done _ _
  | storeQuery => exact .done _ _
  | scaleSet exposure value => exact State.scaleSet_clean _ _
  | canvasOpen width height order => exact State.canvasOpen_clean _ _ _
  | canvasClose => exact .ite (.refuse _) (.ite (.refuse _) (.done _ _))
  | cellRelease cell => exact State.cellRelease_clean cell
  | cellQuery cell => exact .withCell fun _ => .done _ _
  | canvasAbandon => exact .ite (.refuse _) (.done _ _)
  | drainHold => exact State.drainHold_clean
  | drainResume => exact State.drainResume_clean
  | park => exact .ite (.refuse _) (.done _ _)
  | unpark => exact .ite (.done _ _) (.refuse _)
  | status => exact .done _ _
  | noticeMask mask => exact .ite (.refuse _) (.done _ _)
  | clear =>
    rw [State.owner]
    exact .pending _

end

/-! ## The handler (R177) -/

section
variable {s : State} {r : Request} (tag : Byte)

theorem State.reply_of_refused (named : ∀ k, r ≠ .unknown k) {why : RefuseReason}
    (refused : s.store.state.refusal r.kind = some why) : s.reply tag r = s.refuse why := by
  rw [State.reply, refused]
  exact fun kind => named kind

theorem State.reply_of_passed (named : ∀ k, r ≠ .unknown k) (passed : s.store.state.refusal r.kind = none) :
    s.reply tag r = s.owner tag r := by
  rw [State.reply, passed]
  exact fun kind => named kind

/-- A refusal leaves the state, but for the failed check of FLAT_END. -/
theorem State.reply_clean (s : State) (r : Request) : s.Clean (s.reply tag r) := by
  by_cases unknown : ∃ k, r = .unknown k
  · obtain ⟨k, rfl⟩ := unknown
    exact .refuse _
  · have named : ∀ k, r ≠ .unknown k := fun k h => unknown ⟨k, h⟩
    cases refusal : s.store.state.refusal r.kind with
    | none =>
      rw [State.reply_of_passed tag named refusal]
      exact s.owner_clean tag r
    | some why =>
      rw [State.reply_of_refused tag named refusal]
      exact .refuse _

theorem StoreState.refusal_of_busy {st : StoreState} (busy : st = .initialising ∨ st = .waking) {kind : Byte} (other : kind ≠ 0x21) :
    st.refusal kind = some .notReady := by
  rcases busy with rfl | rfl <;> exact if_neg other

theorem StoreState.refusal_of_parked {kind : Byte} (h0 : kind ≠ 0x20) (h1 : kind ≠ 0x21) (h2 : kind ≠ 0x22) (h3 : kind ≠ 0x23) :
    StoreState.refusal .parked kind = some .parked := by
  refine if_neg ?_
  rintro (h | h | h | h)
  · exact h0 h
  · exact h1 h
  · exact h2 h
  · exact h3 h

end

/-- Settles O6: the kind, the store state, the length, and then the owner. -/
theorem handlerRefusesBeforeTheOwner : Obligations.HandlerRefusesBeforeTheOwner := by
  refine ⟨fun s tag r => ⟨fun k => rfl, fun named busy other => ?_, fun named parked h0 h1 h2 h3 => ?_, fun k ready => ?_⟩,
    fun s tag kind unnamed requests free => ?_, fun s t tag r why refused other => ?_⟩
  · exact State.reply_of_refused tag named (StoreState.refusal_of_busy busy other)
  · refine State.reply_of_refused tag named ?_
    rw [parked]
    exact StoreState.refusal_of_parked h0 h1 h2 h3
  · rw [State.reply_of_passed tag (by rintro _ ⟨⟩) (by rw [ready]; rfl)]
    rfl
  · show execUnknownKind tag kind s = _
    have served : s.serve tag (.unknown kind) = s.queueAnswer tag kind (.refused .unknownKind) := rfl
    rw [execUnknownKind, if_neg (by rw [unnamed]; exact Bool.noConfusion),
      s.arrive_served tag (.unknown kind) requests free (by rw [served]; exact requests), served]
    rfl
  · have clean := State.reply_clean tag s r why
    rw [refused] at clean
    exact clean rfl other

end Sys2Proof.Machine
end

section
/-!
PROOF. The notice queue and the pending table: a raise, a move, and NOTICE_MASK (R179 to R181).
-/

namespace Sys2Proof.Machine

/-! ## Moves of pending entries, kind by kind -/

/-- R181. The notices the move of these kinds makes when there is room for all. -/
def HostLink.movable (h : HostLink) (l : List NoticeKind) : List Notice :=
  l.filterMap fun k => if h.masked k then none else (h.pendingOf k).map fun p => { kind := k, content := p.content, folded := p.folded }

section
variable {h : HostLink} {k : NoticeKind}

theorem HostLink.moveKind_of_masked (masked : h.masked k = true) : h.moveKind k = h := by
  rcases h.moveKind_spec k with ⟨still, _⟩ | ⟨_, _, takes, _⟩
  · exact still
  · rw [(HostLink.takes_iff.1 takes).1] at masked
    cases masked

theorem HostLink.moveKind_of_absent (absent : h.pendingOf k = none) : h.moveKind k = h := by
  rw [HostLink.moveKind, absent]

theorem HostLink.moveKind_of_full (full : Config.noticeRoom ≤ h.notices.length) : h.moveKind k = h := by
  rcases h.moveKind_spec k with ⟨still, _⟩ | ⟨_, _, takes, _⟩
  · exact still
  · exact absurd (HostLink.takes_iff.1 takes).2 (Nat.not_lt.2 full)

theorem HostLink.moveKind_of_takes {p : PendingNotice} (pending : h.pendingOf k = some p) (takes : h.takes k = true) :
    h.moveKind k = { h.setPending k none with notices := h.notices ++ [⟨k, p.content, p.folded⟩] } := by
  rw [HostLink.moveKind, pending]
  exact if_pos takes

@[simp] theorem HostLink.moveKind_mask (h : HostLink) (k : NoticeKind) : (h.moveKind k).mask = h.mask :=
  (HostLink.fields_of_notices (h.moveKind_keeps k)).2.2.2.2.1

@[simp] theorem HostLink.moveKind_masked (h : HostLink) (k j : NoticeKind) : (h.moveKind k).masked j = h.masked j := by
  rw [HostLink.masked, HostLink.moveKind_mask, HostLink.masked]

theorem HostLink.moveKind_pendingOf_ne {j : NoticeKind} (other : k ≠ j) : (h.moveKind k).pendingOf j = h.pendingOf j := by
  rcases h.moveKind_spec k with ⟨e, _⟩ | ⟨_, _, _, e⟩ <;> rw [e]
  exact (h.pendingOf_setPending k j none).trans (if_neg other)

theorem HostLink.movable_cons_none {l : List NoticeKind} (still : h.masked k = true ∨ h.pendingOf k = none) :
    h.movable (k :: l) = h.movable l := by
  refine List.filterMap_cons_none ?_
  rcases still with masked | absent
  · rw [if_pos masked]
  · rw [absent]
    exact ite_self _

theorem HostLink.movable_cons_some {l : List NoticeKind} {p : PendingNotice} (unmasked : h.masked k = false)
    (pending : h.pendingOf k = some p) : h.movable (k :: l) = ⟨k, p.content, p.folded⟩ :: h.movable l := by
  refine List.filterMap_cons_some ?_
  rw [unmasked, pending]
  rfl

/-- The moves of some kinds depend on the mask and on these kinds' entries only. -/
theorem HostLink.movable_congr {l : List NoticeKind} {u : HostLink} (masked : ∀ j, u.masked j = h.masked j)
    (pending : ∀ j ∈ l, u.pendingOf j = h.pendingOf j) : u.movable l = h.movable l :=
  List.filterMap_congr fun j mem => by rw [masked, pending j mem]

end

/-- With room for every movable notice, all of them join the queue in kind order. -/
theorem HostLink.moves_notices : ∀ (l : List NoticeKind) (h : HostLink), l.Nodup →
    h.notices.length + (h.movable l).length ≤ Config.noticeRoom →
    (l.foldl HostLink.moveKind h).notices = h.notices ++ h.movable l
  | [], h, _, _ => (List.append_nil _).symm
  | k :: l, h, distinct, room => by
    obtain ⟨unlisted, distinct⟩ := List.nodup_cons.1 distinct
    rw [List.foldl_cons]
    by_cases still : h.masked k = true ∨ h.pendingOf k = none
    · rw [HostLink.movable_cons_none still] at room ⊢
      rw [show h.moveKind k = h from still.elim HostLink.moveKind_of_masked HostLink.moveKind_of_absent]
      exact HostLink.moves_notices l h distinct room
    · obtain ⟨unmasked, present⟩ := not_or.1 still
      obtain ⟨p, pending⟩ := Option.ne_none_iff_exists'.1 present
      rw [Bool.not_eq_true] at unmasked
      rw [HostLink.movable_cons_some unmasked pending] at room ⊢
      rw [List.length_cons] at room
      have takes : h.takes k = true := HostLink.takes_iff.2 ⟨unmasked, by omega⟩
      have notices : (h.moveKind k).notices = h.notices ++ [⟨k, p.content, p.folded⟩] := by
        rw [HostLink.moveKind_of_takes pending takes]
      have same : (h.moveKind k).movable l = h.movable l := by
        refine HostLink.movable_congr (h.moveKind_masked k) fun j mem => HostLink.moveKind_pendingOf_ne ?_
        rintro rfl
        exact unlisted mem
      rw [HostLink.moves_notices l _ distinct (by rw [notices, same, List.length_append, List.length_singleton]; omega), notices, same,
        List.append_assoc]
      rfl

/-- A masked kind keeps its entry. -/
theorem HostLink.moves_masked : ∀ (l : List NoticeKind) (h : HostLink) {k : NoticeKind}, h.masked k = true →
    (l.foldl HostLink.moveKind h).pendingOf k = h.pendingOf k
  | [], _, _, _ => rfl
  | j :: l, h, k, masked => by
    refine (HostLink.moves_masked l (h.moveKind j) (by rwa [HostLink.moveKind_masked])).trans ?_
    by_cases same : j = k
    · subst same
      rw [HostLink.moveKind_of_masked masked]
    · exact HostLink.moveKind_pendingOf_ne same

/-- Kinds whose move does nothing, at the start of a list of moves. -/
theorem HostLink.moves_still : ∀ (l : List NoticeKind) (h : HostLink), (∀ j ∈ l, h.moveKind j = h) → l.foldl HostLink.moveKind h = h
  | [], _, _ => rfl
  | j :: l, h, still => by
    rw [List.foldl_cons, still j List.mem_cons_self]
    exact HostLink.moves_still l h fun j mem => still j (List.mem_cons_of_mem _ mem)

theorem mem_noticeKinds (k : NoticeKind) : k ∈ noticeKinds := by cases k <;> decide

theorem noticeKinds_ascending : noticeKinds.Pairwise fun j k => j.num < k.num := by decide

/-- With one place left, the first kind in kind order that can move takes it, and no other moves. -/
theorem HostLink.movePending_of_last {h : HostLink} {k : NoticeKind} {p : PendingNotice} (last : h.notices.length = 31)
    (unmasked : h.masked k = false) (pending : h.pendingOf k = some p)
    (first : ∀ j : NoticeKind, j.num < k.num → h.masked j = true ∨ h.pendingOf j = none) :
    h.movePending = { h.setPending k none with notices := h.notices ++ [⟨k, p.content, p.folded⟩] } := by
  obtain ⟨earlier, later, split⟩ := List.append_of_mem (mem_noticeKinds k)
  have lower : ∀ j ∈ earlier, j.num < k.num := by
    have ascending := noticeKinds_ascending
    rw [split, List.pairwise_append] at ascending
    exact fun j mem => ascending.2.2 j mem k List.mem_cons_self
  have takes : h.takes k = true := HostLink.takes_iff.2 ⟨unmasked, last ▸ by decide⟩
  have moved := HostLink.moveKind_of_takes pending takes
  rw [HostLink.movePending, split, List.foldl_append, List.foldl_cons,
    HostLink.moves_still earlier h fun j mem => (first j (lower j mem)).elim HostLink.moveKind_of_masked HostLink.moveKind_of_absent,
    moved]
  refine HostLink.moves_still later _ fun j _ => HostLink.moveKind_of_full ?_
  rw [List.length_append, last]
  exact Nat.le_refl 32

/-! ## Requests the store lets through -/

/-- A request the store's state lets through and its owner answers at once. -/
theorem exec_of_passed {c : Instr} {tag : Byte} (r : Request) {s t : State} {result : Result} (idle : s.host.requests = [])
    (free : s.host.handlerFree = true) (passed : s.store.state.refusal r.kind = none)
    (owner : s.owner tag r = (t, some result)) (requests : t.host.requests = [])
    (command : requestOf c = some (tag, r) := by rfl) (named : ∀ k, r ≠ .unknown k := by nofun) :
    exec c s = .next (t.queueAnswer tag r.kind result).outboundGrant := by
  have served : s.serve tag r = t.queueAnswer tag r.kind result := by
    rw [State.serve, State.reply_of_passed tag named passed, owner]
  rw [exec_arrive command named s, s.arrive_served tag r idle free (by rw [served]; exact requests), served]

/-! ## NOTICE_MASK -/

section
variable (h : HostLink) (m : Nat)

/-- R181. The host link after NOTICE_MASK: the mask, and the entries it lets through moved. -/
def HostLink.remasked : HostLink := HostLink.movePending { h with mask := BitVec.ofNat 13 m }

/-- NOTICE_MASK changes the mask, the notice queue and the pending table of the host link. -/
theorem HostLink.remasked_keeps :
    { h.remasked m with mask := h.mask, notices := h.notices, pendingNotices := h.pendingNotices } = h
      ∧ (h.remasked m).mask = BitVec.ofNat 13 m ∧ (h.remasked m).requests = h.requests := by
  have keeps := HostLink.movePending_keeps { h with mask := BitVec.ofNat 13 m }
  unfold HostLink.remasked
  generalize HostLink.movePending { h with mask := BitVec.ofNat 13 m } = u at keeps ⊢
  have fields := HostLink.fields_of_notices keeps
  exact ⟨congrArg (fun v : HostLink => { v with mask := h.mask }) keeps, fields.2.2.2.2.1, fields.2.2.1⟩

theorem HostLink.remasked_eq : h.remasked m = noticeKinds.foldl HostLink.moveKind { h with mask := BitVec.ofNat 13 m } := rfl

theorem HostLink.remasked_pendingLaw : (h.remasked m).PendingLaw := HostLink.movePending_pendingLaw _

/-- The owner's reply to NOTICE_MASK. -/
theorem State.noticeMask_of_narrow (s : State) {m : Nat} (narrow : m < 2 ^ 13) :
    s.noticeMask m = State.done { s with host := s.host.remasked m } (code16 s.host.mask.toNat) := by
  have moved : ∀ u : HostLink, State.movePending { s with host := u } = { s with host := u.movePending } := fun _ => rfl
  rw [State.noticeMask, if_neg (Nat.not_le.2 narrow), moved, HostLink.remasked]

theorem HostLink.masked_ofNat {m : Nat} (k : NoticeKind) :
    HostLink.masked { h with mask := BitVec.ofNat 13 m } k = m.testBit k.num.val := by
  rw [HostLink.masked, BitVec.getLsbD_ofNat, decide_eq_true k.num.isLt, Bool.true_and]

end

theorem exec_noticeMask_bad {s : State} (tag : Byte) {m : Nat} (idle : s.host.requests = []) (free : s.host.handlerFree = true)
    (ready : s.store.state = .ready ∨ s.store.state = .parked) (wide : 2 ^ 13 ≤ m) :
    exec (.noticeMask tag m) s = .next (s.turnedAway tag 0x22 .badField) := by
  have passed : s.store.state.refusal (Request.noticeMask m).kind = none := by rcases ready with e | e <;> rw [e] <;> rfl
  have owner : s.owner tag (.noticeMask m) = s.noticeMask m := rfl
  rw [State.noticeMask, if_pos wide] at owner
  exact exec_of_passed _ idle free passed owner idle

theorem exec_noticeMask {s : State} (tag : Byte) {m : Nat} (idle : s.host.requests = []) (free : s.host.handlerFree = true)
    (ready : s.store.state = .ready ∨ s.store.state = .parked) (narrow : m < 2 ^ 13) :
    exec (.noticeMask tag m) s = .next (State.answered { s with host := s.host.remasked m } tag 0x22 (code16 s.host.mask.toNat)) := by
  have passed : s.store.state.refusal (Request.noticeMask m).kind = none := by rcases ready with e | e <;> rw [e] <;> rfl
  have owner : s.owner tag (.noticeMask m) = s.noticeMask m := rfl
  rw [s.noticeMask_of_narrow narrow] at owner
  obtain ⟨-, -, requests⟩ := s.host.remasked_keeps m
  generalize s.host.remasked m = u at owner requests ⊢
  exact exec_of_passed _ idle free passed owner (requests.trans idle)

/-- Settles O8: raise, move and mask. -/
theorem noticesQueueFoldAndMove : Obligations.NoticesQueueFoldAndMove := by
  refine ⟨fun h k c => ?_, fun s k p requests last unmasked pending first => ?_, fun s tag m idle free ready => ⟨fun wide => ?_, fun narrow => ?_⟩⟩
  · have opened : (h.mask.getLsbD k.num.val = false ∧ h.notices.length < 32) ↔ h.takes k = true := HostLink.takes_iff.symm
    refine ⟨fun room => if_pos (opened.1 room), fun shut => ?_⟩
    have folded : h.raise k c = h.setPending k (some (foldNotice (h.pendingOf k) c)) := if_neg fun takes => shut (opened.2 takes)
    rw [folded]
    refine ⟨rfl, ?_, fun j other => ?_, rfl⟩
    · rw [HostLink.pendingOf_setPending, if_pos rfl]
      cases h.pendingOf k with
      | none => rfl
      | some p =>
        show some ({ content := c, folded := satAdd Config.sat16 p.folded 1 } : PendingNotice) = _
        rw [satAdd_eq_min]
        rfl
    · exact (h.pendingOf_setPending k j _).trans (if_neg other.symm)
  · show Host.Outcome.next s.movePending.pump = _
    rw [State.movePending, HostLink.movePending_of_last last unmasked pending first]
    exact congrArg Host.Outcome.next (State.pump_idle _ requests)
  · exact exec_noticeMask_bad tag idle free ready wide
  · obtain ⟨rest, mask, -⟩ := s.host.remasked_keeps m
    refine ⟨s.host.remasked m, exec_noticeMask tag idle free ready narrow, mask, s.host.remasked_pendingLaw m, fun k masked => ?_,
      fun room => ?_, rest⟩ <;> rw [HostLink.remasked_eq]
    · exact HostLink.moves_masked noticeKinds _ ((s.host.masked_ofNat k).trans masked)
    have movable : HostLink.movable { s.host with mask := BitVec.ofNat 13 m } noticeKinds
        = noticeKinds.filterMap fun k => if m.testBit k.num.val then none else
          (s.host.pendingOf k).map fun p => ({ kind := k, content := p.content, folded := p.folded } : Notice) := by
      refine List.filterMap_congr fun k _ => ?_
      rw [s.host.masked_ofNat k]
      rfl
    rw [← movable] at room ⊢
    exact HostLink.moves_notices noticeKinds { s.host with mask := BitVec.ofNat 13 m } (by decide) room

end Sys2Proof.Machine
end

section
/-!
PROOF. The outbound arbiter: whom it grants and what a grant changes (R182).
-/

namespace Sys2Proof.Machine

/-! ## The grantee -/

/-- A source with a property that no earlier source has is the first with it. -/
theorem find_allSources {p : Source → Bool} {x : Source} (has : p x = true)
    (first : ∀ y, p y = true → allSources.idxOf x ≤ allSources.idxOf y) : allSources.find? p = some x := by
  have not_earlier : ∀ y, allSources.idxOf y < allSources.idxOf x → p y = false := fun y earlier =>
    Bool.eq_false_iff.2 fun h => Nat.not_le.2 earlier (first y h)
  cases x with
  | answers => rw [allSources, List.find?_cons_of_pos has]
  | notices =>
    rw [allSources, List.find?_cons_of_neg (Bool.eq_false_iff.1 (not_earlier .answers (by decide))), List.find?_cons_of_pos has]
  | blocks =>
    rw [allSources, List.find?_cons_of_neg (Bool.eq_false_iff.1 (not_earlier .answers (by decide))),
      List.find?_cons_of_neg (Bool.eq_false_iff.1 (not_earlier .notices (by decide))), List.find?_cons_of_pos has]

/-- R182. The waiting source of lowest class, the earlier among equals, is granted. -/
theorem State.grantee_eq {s : State} {x : Source} (waits : s.waits x = true)
    (lowest : ∀ y, s.waits y = true → (s.host.source x).cls ≤ (s.host.source y).cls)
    (first : ∀ y, s.waits y = true → (s.host.source y).cls = (s.host.source x).cls → allSources.idxOf x ≤ allSources.idxOf y)
    (classes : (s.host.source x).cls = 1 ∨ ∀ y, (s.host.source y).cls = 1 ∨ (s.host.source y).cls = 2) : s.grantee = some x := by
  unfold State.grantee
  dsimp only
  rw [List.find?_filter, List.head?_filter]
  by_cases one : (s.host.source x).cls = 1
  · rw [find_allSources (x := x)]
    · simp [waits, one]
    · intro y h
      obtain ⟨hy, cls⟩ := of_decide_eq_true h
      exact first y hy ((of_decide_eq_true cls).trans one.symm)
  · have classes := classes.resolve_left one
    have two := (classes x).resolve_left one
    have none_one : allSources.find? (fun y => decide (s.waits y = true ∧ decide ((s.host.source y).cls = 1) = true)) = none := by
      refine List.find?_eq_none.2 fun y _ h => ?_
      obtain ⟨hy, cls⟩ := of_decide_eq_true h
      have := lowest y hy
      rw [two, of_decide_eq_true cls] at this
      exact absurd this (by decide)
    rw [none_one]
    refine find_allSources waits fun y hy => first y hy ?_
    have := lowest y hy
    rcases classes y with h | h
    · omega
    · exact h.trans two.symm

theorem State.grantee_none {s : State} (silent : ∀ x, s.waits x = false) : s.grantee = none := by
  have empty : allSources.filter s.waits = [] := List.filter_eq_nil_iff.2 fun x _ => Bool.eq_false_iff.1 (silent x)
  rw [State.grantee, empty]
  rfl

/-! ## A grant -/

/-- Step 1 of a grant: the message leaves its source, and nothing else of the host link changes. -/
theorem State.takeMessage_spec {s u : State} {x : Source} {m : Message} (taken : s.takeMessage x = some (m, u)) :
    (∀ y, u.host.source y = s.host.source y) ∧ u.host.answers = (if x = .answers then s.host.answers.tail else s.host.answers)
      ∧ u.drain = (if x = .blocks then { s.drain with state := .sending } else s.drain) := by
  cases x with
  | answers =>
    cases queue : s.host.answers with
    | nil => simp [State.takeMessage, queue] at taken
    | cons a rest =>
      rw [State.takeMessage, queue] at taken
      cases taken
      exact ⟨fun y => by cases y <;> rfl, rfl, rfl⟩
  | notices =>
    cases queue : s.host.notices with
    | nil => simp [State.takeMessage, queue] at taken
    | cons n rest =>
      rw [State.takeMessage, queue] at taken
      cases taken
      exact ⟨fun y => by cases y <;> rfl, rfl, rfl⟩
  | blocks =>
    cases formed : s.drain.formed with
    | none => simp [State.takeMessage, formed] at taken
    | some b =>
      rw [State.takeMessage, formed] at taken
      cases taken
      exact ⟨fun y => by cases y <;> rfl, rfl, rfl⟩

/-- Steps 2 and 3 of a grant, and the message on the line. -/
def HostLink.serve (h : HostLink) (x : Source) (m : Message) (others : List Source) : HostLink :=
  { (h.removeSource x).setSource x (.granted others) with line := some m }

theorem HostLink.serve_source (h : HostLink) (x y : Source) (m : Message) (others : List Source) :
    (h.serve x m others).source y = if y = x then .granted others else (h.source y).remove x := by
  have line : ∀ (g : HostLink), HostLink.source { g with line := some m } y = g.source y := fun g => by cases y <;> rfl
  rw [HostLink.serve, line, HostLink.source_setSource, HostLink.source_removeSource]
  by_cases same : y = x
  · rw [if_pos same.symm, if_pos same]
  · rw [if_neg (Ne.symm same), if_neg same, if_neg same]

theorem HostLink.serve_answers (h : HostLink) (x : Source) (m : Message) (others : List Source) :
    (h.serve x m others).answers = h.answers := by
  cases x <;> rfl

theorem SourceState.remove_waits (v : SourceState) (x : Source) : (v.remove x).waits = v.waits.filter fun y => decide (y ≠ x) := by
  unfold SourceState.remove
  split
  · rfl
  · rename_i absent
    refine (List.filter_eq_self.2 fun y mem => decide_eq_true ?_).symm
    rintro rfl
    exact absent mem

theorem SourceState.remove_cls (v : SourceState) (x : Source) :
    (v.remove x).cls = if x ∈ v.waits ∧ (v.remove x).waits = [] then 1 else v.cls := by
  rw [SourceState.remove_waits]
  unfold SourceState.remove
  split
  · rename_i mem
    simp only [mem, true_and]
  · rename_i absent
    rw [if_neg fun h => absent h.1]

/-- A grant puts the message on the line; the notice queue is refilled after it, and the other parts stand as the steps left them. -/
theorem State.grantSource_spec {s u : State} {x : Source} {m : Message} (taken : s.takeMessage x = some (m, u)) :
    let h := u.host.serve x m (allSources.filter fun y => decide (y ≠ x) && u.waits y)
    (s.grantSource x).host.line = some m ∧ (∀ y, (s.grantSource x).host.source y = h.source y)
      ∧ (s.grantSource x).host.answers = u.host.answers ∧ (s.grantSource x).drain = u.drain := by
  intro h
  have granted : s.grantSource x = if x = .notices then State.movePending { u with host := h } else { u with host := h } := by
    rw [State.grantSource, taken]
    rfl
  have answers : h.answers = u.host.answers := HostLink.serve_answers ..
  have line : h.line = some m := rfl
  rw [granted]
  split
  · have moved : State.movePending { u with host := h } = { u with host := h.movePending } := rfl
    have fields := HostLink.fields_of_notices h.movePending_keeps
    rw [moved]
    generalize h.movePending = g at fields ⊢
    obtain ⟨-, -, -, -, -, hanswers, hline, sources⟩ := fields
    exact ⟨hline, sources, hanswers.trans answers, rfl⟩
  · exact ⟨line, fun _ => rfl, answers, rfl⟩

/-- A grant changes the host link, and of the drain at most its state. -/
theorem State.outboundGrant_drain (s : State) :
    s.outboundGrant.drain = s.drain ∨ s.outboundGrant.drain = { s.drain with state := .sending } := by
  unfold State.outboundGrant
  split
  · exact .inl rfl
  · split
    · exact .inl rfl
    · rename_i x _
      cases taken : s.takeMessage x with
      | none =>
        rw [State.grantSource, taken]
        exact .inl rfl
      | some e =>
        obtain ⟨-, -, drain⟩ := State.takeMessage_spec taken
        obtain ⟨-, -, -, gdrain⟩ := State.grantSource_spec taken
        rw [gdrain, drain]
        split
        · exact .inr rfl
        · exact .inl rfl

theorem State.outboundGrant_of_line {s : State} {m : Message} (line : s.host.line = some m) : s.outboundGrant = s := by
  rw [State.outboundGrant, line]

theorem State.outboundGrant_of_silent {s : State} (silent : ∀ x, s.waits x = false) : s.outboundGrant = s := by
  rw [State.outboundGrant, State.grantee_none silent]
  split <;> rfl

theorem exec_outboundGrant {s : State} (idle : s.host.requests = []) : exec .outboundGrant s = .next s.outboundGrant := by
  show Host.Outcome.next s.outboundGrant.handlerRun = _
  rw [State.handlerRun_idle _ ((Outbound.outboundGrant s).requests.trans idle)]

/-- Settles O9: the grantee, the classes, and what a grant leaves. -/
theorem outboundGrantServesTheLowestClass : Obligations.OutboundGrantServesTheLowestClass := by
  refine ⟨fun s x m u idle free taken waits lowest first classes => ?_, fun s idle => ⟨fun a line => ?_, fun n line => ?_,
    fun m line => ?_, fun silent => ?_⟩, fun s => ?_⟩
  · have granted : s.outboundGrant = s.grantSource x := by
      rw [State.outboundGrant, free, State.grantee_eq waits lowest first classes]
    obtain ⟨sources, answers, drain⟩ := State.takeMessage_spec taken
    obtain ⟨gline, gsources, ganswers, gdrain⟩ := State.grantSource_spec taken
    have self := (gsources x).trans ((HostLink.serve_source ..).trans (if_pos rfl))
    have other : ∀ y, y ≠ x → (s.grantSource x).host.source y = (s.host.source y).remove x := fun y hy => by
      rw [gsources y, HostLink.serve_source, if_neg hy, sources]
    refine ⟨s.grantSource x, (exec_outboundGrant idle).trans (congrArg _ granted), gline, ?_, ?_, fun y hy => ?_, fun y hy => ?_,
      ganswers.trans answers, gdrain.trans drain⟩
    · rw [self, SourceState.granted]
    · rw [self, SourceState.granted]
    · rw [other y hy, SourceState.remove_waits]
    · rw [other y hy]
      exact SourceState.remove_cls ..
  · show execMessageSent s = _
    rw [execMessageSent, line]
    exact congrArg Host.Outcome.next (State.pump_idle _ idle)
  · show execMessageSent s = _
    rw [execMessageSent, line]
    exact congrArg Host.Outcome.next (State.pump_idle _ idle)
  · rw [exec_outboundGrant idle, State.outboundGrant_of_line line]
  · rw [exec_outboundGrant idle, State.outboundGrant_of_silent silent]
  · have out := Outbound.outboundGrant s
    exact ⟨congrArg (fun u : State => { u with drain := s.drain }) out.rest, s.outboundGrant_drain, out.rx, out.lineErrors, out.requests,
      out.job, out.mask⟩

end Sys2Proof.Machine
end

section
/-!
PROOF. The checks of the exposure requests (R35 to R43), PLAN_PLACE (R37, R38) and PLAN_REF (R39).
-/

namespace Sys2Proof.Machine

/-! ## EXPOSURE_OPEN -/

theorem modeOf_isSome_iff (mode : Nat) : (modeOf mode).isSome ↔ mode ≤ 2 := by
  rcases mode with _ | _ | _ | mode <;> simp [modeOf]

theorem State.slotOf_isSome_iff {s : State} {exposure : Nat} (tag : exposure ≠ 0) :
    (s.slotOf exposure).isSome ↔ ∃ j, (s.slot j).state ≠ .free ∧ (s.slot j).exposure = exposure := by
  constructor
  · intro h
    obtain ⟨k, found⟩ := Option.isSome_iff_exists.1 h
    obtain ⟨-, used, carries⟩ := State.slotOf_spec found
    exact ⟨k, used, carries⟩
  · rintro ⟨j, used, carries⟩
    cases found : s.slotOf exposure with
    | some k => rfl
    | none => exact absurd carries (State.slotOf_none_spec tag found j used)

section
variable {s : State} {exposure mode : Nat} {initial : Option Nat} {lower upper attack decay quota nominal limit : Nat}

theorem State.exposureOpen_of_mode (wrong : modeOf mode = none) :
    s.exposureOpen exposure mode initial lower upper attack decay quota nominal limit = s.refuse .badField := by
  rw [State.exposureOpen, wrong]

theorem State.exposureOpen_of_fields
    (wrong : exposureFieldsOk exposure initial lower upper attack decay quota nominal limit = false) :
    s.exposureOpen exposure mode initial lower upper attack decay quota nominal limit = s.refuse .badField := by
  rw [State.exposureOpen]
  split
  · rfl
  · rw [if_pos wrong]

/-- R35. The checks that follow the fields' check, in order. -/
theorem State.exposureOpen_of_checked {m : Mode} (named : modeOf mode = some m)
    (fields : exposureFieldsOk exposure initial lower upper attack decay quota nominal limit = true) :
    let answer := s.exposureOpen exposure mode initial lower upper attack decay quota nominal limit
    (s.canvas.state ≠ .gathering → answer = s.refuse .wrongState)
    ∧ (s.canvas.state = .gathering → (s.slotOf exposure).isSome → answer = s.refuse .duplicateTag)
    ∧ (s.canvas.state = .gathering → ¬(s.slotOf exposure).isSome → s.freeSlot = none → answer = s.refuse .noSlot) := by
  dsimp only
  rw [State.exposureOpen, named]
  dsimp only
  rw [if_neg (by rw [fields]; decide)]
  refine ⟨fun shut => if_pos shut, fun gathering taken => ?_, fun gathering fresh full => ?_⟩
  · rw [if_neg (not_not.2 gathering), if_pos taken]
  · rw [if_neg (not_not.2 gathering), if_neg fresh, full]

end

theorem State.freeSlot_eq_none {s : State} (full : ∀ j, (s.slot j).state ≠ .free) : s.freeSlot = none :=
  List.find?_eq_none.2 fun j _ h => full j (of_decide_eq_true h)

/-- Settles O21: the open request's checks in order, and the tag and state checks of the requests on a slot. -/
theorem exposureRequestsAreChecked : Obligations.ExposureRequestsAreChecked := by
  refine ⟨fun s tag exposure mode initial lower upper attack decay quota nominal limit hs => ?_,
    fun s tag exposure segment weight ax ay value cx cy rx ry cells refs hs => ⟨fun missing => ?_, fun k slot shut => ?_⟩⟩
  · intro fields taken answer
    have refused : ∀ why, s.exposureOpen exposure mode initial lower upper attack decay quota nominal limit = s.refuse why →
        answer = .next (s.turnedAway tag 0x08 why) := fun why owner =>
      exec_of_refused (.exposureOpen exposure mode initial lower upper attack decay quota nominal limit) hs owner
    have checked : fields → (∃ m, modeOf mode = some m) ∧ exposure ≠ 0
        ∧ exposureFieldsOk exposure initial lower upper attack decay quota nominal limit = true := by
      rintro ⟨e0, e1, m2, hi, l0, lu, u1, ha, hd, q1, q2, n1, n2, hl⟩
      refine ⟨Option.isSome_iff_exists.1 ((modeOf_isSome_iff mode).2 m2), by omega, exposureFieldsOk_iff.2 ?_⟩
      exact ⟨⟨e0, e1⟩, hi, ⟨l0, by omega⟩, ⟨by omega, u1⟩, lu, ha, hd, ⟨q1, q2⟩, ⟨n1, n2⟩, hl⟩
    refine ⟨fun wrong => refused _ ?_, fun right shut => refused _ ?_, fun right gathering tagged => refused _ ?_,
      fun right gathering fresh full => refused _ ?_⟩
    · cases named : modeOf mode with
      | none => exact State.exposureOpen_of_mode named
      | some m =>
        refine State.exposureOpen_of_fields (Bool.eq_false_iff.2 fun ok => wrong ?_)
        have m2 : mode ≤ 2 := (modeOf_isSome_iff mode).1 (by rw [named]; rfl)
        obtain ⟨⟨e0, e1⟩, hi, ⟨l0, -⟩, ⟨-, u1⟩, lu, ha, hd, ⟨q1, q2⟩, ⟨n1, n2⟩, hl⟩ := exposureFieldsOk_iff.1 ok
        exact ⟨e0, e1, m2, hi, l0, lu, u1, ha, hd, q1, q2, n1, n2, hl⟩
    · obtain ⟨⟨m, named⟩, -, ok⟩ := checked right
      exact (State.exposureOpen_of_checked named ok).1 shut
    · obtain ⟨⟨m, named⟩, nonzero, ok⟩ := checked right
      exact (State.exposureOpen_of_checked named ok).2.1 gathering ((State.slotOf_isSome_iff nonzero).2 tagged)
    · obtain ⟨⟨m, named⟩, nonzero, ok⟩ := checked right
      exact (State.exposureOpen_of_checked named ok).2.2 gathering (fun h => fresh ((State.slotOf_isSome_iff nonzero).1 h))
        (State.freeSlot_eq_none full)
  · refine ⟨exec_of_refused (.planPlace exposure segment weight ax ay cx cy rx ry cells) hs ?_,
      exec_of_refused (.planRef exposure refs) hs ?_, exec_of_refused (.exposureCommit exposure) hs ?_,
      exec_of_refused (.exposureAbandon exposure) hs ?_, exec_of_refused (.exposureQuery exposure) hs ?_,
      exec_of_refused (.scaleSet exposure value) hs ?_⟩
    · rw [State.owner, State.planPlace, missing]
    · rw [State.owner, State.planRef, missing]
    · rw [State.owner, State.exposureCommit, missing]
    · rw [State.owner, State.exposureAbandon, missing]
    · rw [State.owner, State.exposureQuery, missing]
    · rw [State.owner, State.scaleSet, missing]
  · refine ⟨exec_of_refused (.planPlace exposure segment weight ax ay cx cy rx ry cells) hs ?_,
      exec_of_refused (.planRef exposure refs) hs ?_, exec_of_refused (.exposureCommit exposure) hs ?_⟩
    · rw [State.owner, State.planPlace, slot]
      exact if_pos shut
    · rw [State.owner, State.planRef, slot]
      exact if_pos shut
    · rw [State.owner, State.exposureCommit, slot]
      exact if_pos shut

/-! ## PLAN_PLACE -/

theorem mem_insertPlacement_self (p : Placement) : ∀ l : List Placement, p ∈ insertPlacement p l
  | [] => List.mem_singleton_self p
  | a :: l => by
    unfold insertPlacement
    split
    · exact List.mem_cons_self
    · split
      · exact List.mem_cons_self
      · exact List.mem_cons_of_mem _ (mem_insertPlacement_self p l)

/-- R38. In a list in segment order, the inserted record replaces the one for its segment. -/
theorem mem_insertPlacement_iff {p q : Placement} : ∀ {l : List Placement}, l.Pairwise (fun p q => p.segment < q.segment) →
    (q ∈ insertPlacement p l ↔ q = p ∨ (q ∈ l ∧ q.segment ≠ p.segment))
  | [], _ => by simp [insertPlacement]
  | a :: l, ordered => by
    obtain ⟨below, ordered⟩ := List.pairwise_cons.1 ordered
    unfold insertPlacement
    split
    · next before =>
      have others : ∀ r ∈ a :: l, r.segment ≠ p.segment := by
        intro r mem
        rcases List.mem_cons.1 mem with rfl | mem
        · exact ne_of_gt before
        · exact ne_of_gt (before.trans (below r mem))
      rw [List.mem_cons]
      exact or_congr_right ⟨fun mem => ⟨mem, others q mem⟩, And.left⟩
    · split
      · next same =>
        have others : ∀ r ∈ l, r.segment ≠ p.segment := fun r mem => ne_of_gt (same ▸ below r mem)
        rw [List.mem_cons, List.mem_cons]
        refine or_congr_right ⟨fun mem => ⟨.inr mem, others q mem⟩, fun ⟨mem, other⟩ => mem.resolve_left ?_⟩
        rintro rfl
        exact other same.symm
      · next after other =>
        rw [List.mem_cons, mem_insertPlacement_iff ordered, List.mem_cons]
        constructor
        · rintro (rfl | rfl | ⟨mem, h⟩)
          · exact .inr ⟨.inl rfl, fun h => other h.symm⟩
          · exact .inl rfl
          · exact .inr ⟨.inr mem, h⟩
        · rintro (rfl | ⟨rfl | mem, h⟩)
          · exact .inr (.inl rfl)
          · exact .inl rfl
          · exact .inr (.inr ⟨mem, h⟩)

theorem insertPlacement_ordered (p : Placement) : ∀ {l : List Placement}, l.Pairwise (fun p q => p.segment < q.segment) →
    (insertPlacement p l).Pairwise (fun p q => p.segment < q.segment)
  | [], _ => List.pairwise_singleton _ _
  | a :: l, ordered => by
    have tail := ordered
    obtain ⟨below, tail⟩ := List.pairwise_cons.1 tail
    unfold insertPlacement
    split
    · next before =>
      refine List.pairwise_cons.2 ⟨fun r mem => ?_, ordered⟩
      rcases List.mem_cons.1 mem with rfl | mem
      · exact before
      · exact before.trans (below r mem)
    · split
      · next same => exact List.pairwise_cons.2 ⟨fun r mem => same ▸ below r mem, tail⟩
      · next after other =>
        refine List.pairwise_cons.2 ⟨fun r mem => ?_, insertPlacement_ordered p tail⟩
        rcases (mem_insertPlacement_iff tail).1 mem with rfl | ⟨mem, -⟩
        · exact lt_of_le_of_ne (not_lt.1 after) (Ne.symm other)
        · exact below r mem

/-- R37, check 3, as ranges of the fields. -/
theorem Canvas.placeFieldsOk_iff {c : Canvas} {segment weight ax ay : Nat} {cx cy rx ry : Int} {cells : List Nat} :
    c.placeFieldsOk segment weight ax ay [cx, cy, rx, ry] cells = true ↔
      segment < 96 ∧ 1 ≤ weight ∧ weight ≤ 255 ∧ ax ≤ c.width * 65536 ∧ ay ≤ c.height * 65536
        ∧ (-262144 ≤ cx ∧ cx ≤ 262144) ∧ (-262144 ≤ cy ∧ cy ≤ 262144) ∧ (-262144 ≤ rx ∧ rx ≤ 262144)
        ∧ (-262144 ≤ ry ∧ ry ≤ 262144) ∧ 1 ≤ cells.length ∧ cells.length ≤ 16 ∧ (∀ i ∈ cells, i < c.width * c.height)
        ∧ cells.Nodup := by
  simp only [Canvas.placeFieldsOk, stepOk, List.all_cons, List.all_nil, List.all_eq_true, Bool.and_eq_true, decide_eq_true_eq,
    Bool.and_true, and_assoc]

/-- Settles O22: the field check, and the record at its place in segment order. -/
theorem planPlaceKeepsSegmentOrder : Obligations.PlanPlaceKeepsSegmentOrder := by
  intro s tag exposure segment weight ax ay cx cy rx ry cells k hs slot opened ordered inRange fields answer
  have owner : s.owner tag (.planPlace exposure segment weight ax ay cx cy rx ry cells)
      = s.planPlace exposure segment weight ax ay cx cy rx ry cells := rfl
  rw [State.planPlace, slot] at owner
  dsimp only at owner
  rw [if_neg (not_not.2 opened)] at owner
  refine ⟨fun wrong => exec_of_refused _ hs (owner.trans ?_), fun right => ?_⟩
  · by_cases inside : segment < 96
    · rw [dif_pos inside, if_pos]
      exact Bool.eq_false_iff.2 fun ok => wrong (Canvas.placeFieldsOk_iff.1 ok)
    · exact dif_neg inside
  · have inside : segment < 96 := right.1
    rw [dif_pos inside, if_neg (by rw [Canvas.placeFieldsOk_iff.2 right]; decide)] at owner
    have ⟨_, requests, _⟩ := hs
    refine ⟨_, _, rfl, rfl, rfl, rfl, rfl, rfl, rfl, rfl, rfl, fun q => mem_insertPlacement_iff ordered,
      insertPlacement_ordered _ ordered, exec_of_done _ hs owner requests⟩

/-! ## PLAN_REF -/

theorem refOk_iff {r : Nat × Nat × Nat × F32} :
    refOk r = true ↔ r.1 < 96 ∧ r.2.1 ≤ 1023 ∧ r.2.2.1 ≤ 2047 ∧ 0 < r.2.2.2.toNat ∧ r.2.2.2.toNat < 0x7F800000 := by
  simp [refOk, f32PositiveFinite, and_assoc]

/-- Settles O23: the field check, the room check, and the records appended in the order given. -/
theorem planRefAppendsReferences : Obligations.PlanRefAppendsReferences := by
  intro s tag exposure refs k hs slot opened fields answer x
  have owner : s.owner tag (.planRef exposure refs) = s.planRef exposure refs := rfl
  rw [State.planRef, slot] at owner
  dsimp only at owner
  rw [if_neg (not_not.2 opened)] at owner
  have checked : fields ↔ ¬(refs.length = 0 ∨ 8 < refs.length ∨ refs.all refOk = false) := by
    rw [not_or, not_or, Bool.not_eq_false, List.all_eq_true]
    constructor
    · rintro ⟨h1, h8, each⟩
      exact ⟨by omega, by omega, fun r mem => refOk_iff.2 (each r mem)⟩
    · rintro ⟨h1, h8, each⟩
      exact ⟨by omega, by omega, fun r mem => refOk_iff.1 (each r mem)⟩
  refine ⟨fun wrong => ?_, fun right full => ?_, fun right room => ?_⟩
  · exact exec_of_refused _ hs (owner.trans (if_pos (not_not.1 fun h => wrong (checked.2 h))))
  · rw [if_neg (checked.1 right)] at owner
    exact exec_of_refused _ hs (owner.trans (if_pos full))
  · rw [if_neg (checked.1 right), if_neg (Nat.not_lt.2 room)] at owner
    have ⟨_, requests, _⟩ := hs
    rw [List.length_append, List.length_map] at owner
    exact exec_of_done _ hs owner requests

end Sys2Proof.Machine
end

section
/-!
PROOF. The calibration requests: CAL_LOAD (R58, R59) and CAL_APPLY (R60 to R62).
-/

namespace Sys2Proof.Machine

/-! ## CAL_LOAD -/

theorem rectOk_iff {d : Nat × Nat × Nat × Nat} :
    rectOk d = true ↔ d.1 ≤ d.2.1 ∧ d.2.1 ≤ 1023 ∧ d.2.2.1 ≤ d.2.2.2 ∧ d.2.2.2 ≤ 2047 := decide_eq_true_iff

/-- R58, check 1, as ranges of the fields. -/
theorem calFieldsOk_iff {skip level gain : Nat} {flat : Option Nat} {saturation : Nat} {defects : List (Nat × Nat × Nat × Nat)} :
    calFieldsOk skip level gain flat saturation defects = true ↔
      skip ≤ 15 ∧ level ≤ 65535 ∧ (1024 ≤ gain ∧ gain ≤ 65536) ∧ (∀ f, flat = some f → f ≤ 23)
        ∧ (1 ≤ saturation ∧ saturation ≤ 65535) ∧ defects.length ≤ 16 ∧ ∀ d ∈ defects, rectOk d = true := by
  cases flat <;> simp [calFieldsOk, and_assoc]

theorem flatIndex_val (flat : Option (Fin 24)) : flatIndex (flat.map Fin.val) = flat := by
  cases flat with
  | none => rfl
  | some i => exact congrArg some (Fin.ofNat_val_eq_self i)

/-- R59. The record of CAL_LOAD's fields, for the link's configuration. -/
def calRecord (cfg : LinkConfig) (b : Bias) (gain : Nat) (flat : Option (Fin 24)) (saturation : Nat)
    (defects : List (Nat × Nat × Nat × Nat)) : CalRec :=
  { bias := b, gain := gain, flat := flat, saturation := saturation
    defects := defects.map fun d => ⟨d.1, d.2.1, d.2.2.1, d.2.2.2⟩
    columns := cfg.active, rows := cfg.rows }

section
variable {s : State} {skip level gain : Nat} {flat : Option Nat} {saturation : Nat} {defects : List (Nat × Nat × Nat × Nat)}

section
variable (g : Fin 96) {mode : Nat} {b : Bias} (named : biasFrom mode skip level = some b)
include named

theorem State.calLoad_of_fields (wrong : ¬calFieldsOk skip level gain flat saturation defects = true) :
    s.calLoad g.val mode skip level gain flat saturation defects = s.refuse .badField := by
  rw [State.calLoad, dif_pos g.isLt, named]
  exact if_pos (Bool.eq_false_iff.2 wrong)

theorem State.calLoad_of_refusal {why : RefuseReason} (right : calFieldsOk skip level gain flat saturation defects = true)
    (refusal : s.calRefusal (s.port (linkOf g)).cfg b (flatIndex flat) = some why) :
    s.calLoad g.val mode skip level gain flat saturation defects = s.refuse why := by
  rw [State.calLoad, dif_pos g.isLt, named]
  dsimp only
  rw [if_neg (by rw [right]; decide), refusal]

/-- R59. The record an accepted CAL_LOAD makes. -/
theorem State.calLoad_of_passed (right : calFieldsOk skip level gain flat saturation defects = true)
    (passes : s.calRefusal (s.port (linkOf g)).cfg b (flatIndex flat) = none) :
    s.calLoad g.val mode skip level gain flat saturation defects =
      State.done (s.setSegCal g { s.segCal g with
        holding := some (calRecord (s.port (linkOf g)).cfg b gain (flatIndex flat) saturation defects) }) [] := by
  rw [State.calLoad, dif_pos g.isLt, named]
  dsimp only
  rw [if_neg (by rw [right]; decide), passes]
  rfl

end

theorem State.calLoad_of_outside {segment mode : Nat}
    (wrong : 95 < segment ∨ 1 < mode ∨ ∃ f, flat = some f ∧ 23 < f) :
    s.calLoad segment mode skip level gain flat saturation defects = s.refuse .badField := by
  by_cases inside : segment < 96
  · cases named : biasFrom mode skip level with
    | none => rw [State.calLoad, dif_pos inside, named]
    | some b =>
      have small : ¬1 < mode := fun large => by
        rcases mode with _ | _ | mode
        · omega
        · omega
        · cases named
      obtain ⟨f, rfl, large⟩ := (wrong.resolve_left (by omega)).resolve_left small
      refine State.calLoad_of_fields ⟨segment, inside⟩ named fun ok => ?_
      obtain ⟨-, -, -, flats, -⟩ := calFieldsOk_iff.1 ok
      exact absurd (flats f rfl) (by omega)
  · exact dif_neg inside

end

/-- Settles O28: the checks in order, and the record the holding record becomes. -/
theorem calLoadReplacesTheHoldingRecord : Obligations.CalLoadReplacesTheHoldingRecord := by
  intro s tag g b skip level gain flat saturation defects hs cfg mode fits fields r answer shape
  have named : biasFrom mode skip level = some b := by rcases shape with rfl | rfl <;> rfl
  have checked : calFieldsOk skip level gain (flat.map Fin.val) saturation defects = true ↔ fields := by
    rw [calFieldsOk_iff]
    constructor
    · rintro ⟨h1, h2, ⟨h3, h4⟩, -, ⟨h5, h6⟩, h7, each⟩
      exact ⟨h1, h2, h3, h4, h5, h6, h7, fun d mem => rectOk_iff.1 (each d mem)⟩
    · rintro ⟨h1, h2, h3, h4, h5, h6, h7, each⟩
      refine ⟨h1, h2, ⟨h3, h4⟩, fun f named => ?_, ⟨h5, h6⟩, h7, fun d mem => rectOk_iff.2 (each d mem)⟩
      obtain ⟨i, -, rfl⟩ := Option.map_eq_some_iff.1 named
      omega
  have fitting : b.fits cfg.overscan = false ↔ ¬fits := by
    cases b with
    | overscan k => exact decide_eq_false_iff_not
    | fixed k => exact ⟨fun h => (nomatch h), fun h => absurd trivial h⟩
  have refused : fields → ∀ why, s.calRefusal cfg b flat = some why → answer = .next (s.turnedAway tag 0x0E why) := by
    intro right why refusal
    exact exec_of_refused (.calLoad g.val mode skip level gain (flat.map Fin.val) saturation defects) hs
      (State.calLoad_of_refusal g named (checked.2 right) (by rwa [flatIndex_val]))
  refine ⟨fun wrong => ?_, fun right i entry loading => refused right _ ?_, fun right valid mismatch => refused right _ ?_,
    fun right valid fit => ?_, fun n m f fl wrong => ?_⟩
  · exact exec_of_refused (.calLoad g.val mode skip level gain (flat.map Fin.val) saturation defects) hs
      (State.calLoad_of_fields g named fun ok => wrong (checked.1 ok))
  · subst entry
    exact if_pos loading
  · cases flat with
    | none =>
      have unfit := mismatch.resolve_left (by rintro ⟨i, named, -⟩; cases named)
      exact if_pos (fitting.2 unfit)
    | some i =>
      have other : (s.flat i).columns ≠ cfg.active ∨ (s.flat i).rows ≠ cfg.rows ∨ b.fits cfg.overscan = false := by
        rcases mismatch with ⟨j, named, shape⟩ | unfit
        · cases named
          exact shape.imp_right .inl
        · exact .inr (.inr (fitting.2 unfit))
      rw [State.calRefusal, if_neg (not_not.2 (valid i rfl)), if_pos other]
  · have passes : s.calRefusal cfg b flat = none := by
      have unfit : ¬b.fits cfg.overscan = false := fun h => fitting.1 h fit
      cases flat with
      | none => exact if_neg unfit
      | some i =>
        obtain ⟨loaded, columns, rows⟩ := valid i rfl
        rw [State.calRefusal, if_neg (not_not.2 loaded), if_neg]
        rintro (h | h | h)
        · exact h columns
        · exact h rows
        · exact unfit h
    have ⟨_, requests, _⟩ := hs
    have loaded := State.calLoad_of_passed g named (checked.2 right) (by rwa [flatIndex_val])
    rw [flatIndex_val] at loaded
    exact exec_of_done (.calLoad g.val mode skip level gain (flat.map Fin.val) saturation defects) hs loaded requests
  · exact exec_of_refused (.calLoad n m skip level gain fl saturation defects) hs
      (State.calLoad_of_outside (wrong.imp_right (.imp_right fun h => ⟨f, h⟩)))

/-! ## CAL_APPLY -/

theorem mem_named {segments : BitVec 96} {g : Fin 96} : g ∈ named segments ↔ segments.getLsbD g.val = true := by
  simp [named, allSegments, List.mem_finRange]

theorem named_eq_nil_iff {segments : BitVec 96} : named segments = [] ↔ segments = 0 := by
  constructor
  · intro none
    refine BitVec.eq_of_getLsbD_eq fun i inside => ?_
    have absent : ¬segments.getLsbD i = true := fun h => by
      have mem : (⟨i, inside⟩ : Fin 96) ∈ named segments := mem_named.2 h
      rw [none] at mem
      cases mem
    rw [Bool.eq_false_iff.2 absent]
    exact (BitVec.getLsbD_zero).symm
  · rintro rfl
    exact List.eq_nil_iff_forall_not_mem.2 fun g mem => by simpa using mem_named.1 mem

theorem State.any_holdingEmpty_iff {s : State} {segments : BitVec 96} :
    (named segments).any s.holdingEmpty = true ↔ ∃ g, segments.getLsbD g.val = true ∧ (s.segCal g).holding = none := by
  simp only [List.any_eq_true, mem_named, State.holdingEmpty, Option.isNone_iff_eq_none]

theorem State.any_applyBusy_iff {s : State} {segments : BitVec 96} :
    (named segments).any s.applyBusy = true ↔ ∃ g, segments.getLsbD g.val = true ∧ ((s.port (linkOf g)).state = .reading
      ∨ ∃ t, (s.tile t).state = .filling ∧ (s.tile t).segment = g) := by
  simp only [List.any_eq_true, mem_named, State.applyBusy, Bool.or_eq_true, decide_eq_true_eq, allTiles, List.mem_finRange, true_and]

/-- Each of some segments' records changed by one function. -/
def State.mapCal (f : SegCal → SegCal) (gs : List (Fin 96)) (s : State) : State := gs.foldl (fun s g => s.setSegCal g (f (s.segCal g))) s

/-- The records of the segments in the list are changed once each; nothing else is. -/
theorem State.mapCal_spec (f : SegCal → SegCal) : ∀ (gs : List (Fin 96)) (s : State), gs.Nodup → ∃ cal : Vector SegCal 96,
    s.mapCal f gs = { s with cal := cal } ∧ ∀ g : Fin 96, cal[g] = if g ∈ gs then f (s.segCal g) else s.segCal g
  | [], s, _ => ⟨s.cal, rfl, fun g => (if_neg List.not_mem_nil).symm⟩
  | h :: gs, s, distinct => by
    obtain ⟨unlisted, distinct⟩ := List.nodup_cons.1 distinct
    obtain ⟨cal, result, each⟩ := State.mapCal_spec f gs (s.setSegCal h (f (s.segCal h))) distinct
    refine ⟨cal, result, fun g => (each g).trans ?_⟩
    rw [State.segCal_setSegCal]
    by_cases same : h = g
    · subst same
      rw [if_neg unlisted, if_pos rfl, if_pos List.mem_cons_self]
    · have listed : g ∈ h :: gs ↔ g ∈ gs := List.mem_cons.trans (or_iff_right (Ne.symm same))
      rw [if_neg same, if_congr listed rfl rfl]

theorem named_nodup (segments : BitVec 96) : (named segments).Nodup := (List.nodup_finRange 96).filter _

theorem State.mapCal_named (f : SegCal → SegCal) (s : State) (segments : BitVec 96) : ∃ cal : Vector SegCal 96,
    s.mapCal f (named segments) = { s with cal := cal }
      ∧ ∀ g : Fin 96, cal[g] = if segments.getLsbD g.val = true then f (s.segCal g) else s.segCal g := by
  obtain ⟨cal, result, each⟩ := State.mapCal_spec f (named segments) s (named_nodup segments)
  exact ⟨cal, result, fun g => (each g).trans (if_congr mem_named rfl rfl)⟩

theorem wrapSucc16_eq (n : Nat) : wrapSucc16 n = (n + 1) % 65536 := rfl

/-- Settles O29: the checks of CAL_APPLY, and the records it transfers, arms or disarms. -/
theorem calApplyTransfersArmsAndDisarms : Obligations.CalApplyTransfersArmsAndDisarms := by
  refine ⟨fun s tag segments hs some_ => ?_, fun s tag segments hs => ?_⟩
  · intro isNamed empty busy
    have ⟨_, requests, _⟩ := hs
    have owner : s.owner tag (.calApply segments 0) = s.calApply segments 0 := rfl
    rw [State.calApply] at owner
    dsimp only at owner
    rw [if_neg (mt named_eq_nil_iff.1 some_)] at owner
    refine ⟨fun h => ?_, fun full h => ?_, fun full free => ?_⟩
    · exact exec_of_refused (.calApply segments 0) hs (owner.trans (if_pos (State.any_holdingEmpty_iff.2 h)))
    · rw [if_neg (mt State.any_holdingEmpty_iff.1 full)] at owner
      exact exec_of_refused (.calApply segments 0) hs (owner.trans (if_pos (State.any_applyBusy_iff.2 h)))
    · rw [if_neg (mt State.any_holdingEmpty_iff.1 full), if_neg (mt State.any_applyBusy_iff.1 free)] at owner
      obtain ⟨cal, moved, each⟩ := s.mapCal_named SegCal.transfer segments
      have transferred : s.transferAll (named segments) = { s with cal := cal } := moved
      rw [transferred] at owner
      exact ⟨cal, each, exec_of_done (.calApply segments 0) hs owner requests⟩
  · intro empty armed
    have ⟨_, requests, _⟩ := hs
    have armAll : ∀ b, ∃ cal, armed b cal ∧ s.armAll (named segments) b = { s with cal := cal } := fun b => by
      obtain ⟨cal, moved, each⟩ := s.mapCal_named (fun c => { c with armed := b }) segments
      exact ⟨cal, each, moved⟩
    refine ⟨fun some_ h => ?_, fun some_ full => ?_, fun some_ => ?_, fun c mem => ?_⟩
    · refine exec_of_refused (.calApply segments 1) hs ?_
      show s.calApply segments 1 = _
      rw [State.calApply, if_neg (mt named_eq_nil_iff.1 some_), if_pos (State.any_holdingEmpty_iff.2 h)]
    · obtain ⟨cal, each, arms⟩ := armAll true
      refine ⟨cal, each, exec_of_done (.calApply segments 1) hs ?_ requests⟩
      show s.calApply segments 1 = _
      rw [State.calApply, if_neg (mt named_eq_nil_iff.1 some_), if_neg (mt State.any_holdingEmpty_iff.1 full), arms]
    · obtain ⟨cal, each, disarms⟩ := armAll false
      refine ⟨cal, each, exec_of_done (.calApply segments 2) hs ?_ requests⟩
      show s.calApply segments 2 = _
      rw [State.calApply, if_neg (mt named_eq_nil_iff.1 some_), disarms]
    · have refused : ∀ when_, s.calApply 0 when_ = s.refuse .badField := fun when_ => by
        unfold State.calApply
        exact if_pos (named_eq_nil_iff.2 rfl)
      simp only [List.mem_cons, List.not_mem_nil, or_false] at mem
      rcases mem with rfl | rfl | rfl
      · exact exec_of_refused (.calApply 0 0) hs (refused 0)
      · exact exec_of_refused (.calApply 0 1) hs (refused 1)
      · exact exec_of_refused (.calApply 0 2) hs (refused 2)

end Sys2Proof.Machine
end

section
/-!
PROOF. The memory arbiter (R167 to R169): claims, what a grant chooses, and what it changes.
-/

namespace Sys2Proof.Machine

/-! ## Claims -/

theorem StoreCtl.holds_iff {st : StoreCtl} {c : Claim} : st.holds c = true ↔ st.access = some c ∨ c ∈ st.waiting := decide_eq_true_iff

theorem StoreCtl.holds_claim {st : StoreCtl} {c d : Claim} : (st.claim d).holds c = true ↔ c = d ∨ st.holds c = true := by
  unfold StoreCtl.claim
  split
  · next held => exact ⟨.inr, fun h => h.elim (fun same => same ▸ held) id⟩
  · rw [StoreCtl.holds_iff, StoreCtl.holds_iff, List.mem_append, List.mem_singleton]
    exact ⟨fun h => h.elim (.inr ∘ .inl) fun h => h.elim (.inr ∘ .inr) .inl,
      fun h => h.elim (.inr ∘ .inr) fun h => h.imp_right .inl⟩

theorem StoreCtl.not_holds_withdraw (st : StoreCtl) (c : Claim) : (st.withdraw c).holds c = false := by
  refine Bool.eq_false_iff.2 fun h => ?_
  rcases StoreCtl.holds_iff.1 h with access | waits
  · by_cases same : st.access = some c
    · rw [show (st.withdraw c).access = none from if_pos same] at access
      cases access
    · rw [show (st.withdraw c).access = st.access from if_neg same] at access
      exact same access
  · exact of_decide_eq_true (List.mem_filter.1 waits).2 rfl

theorem StoreCtl.holds_withdraw {st : StoreCtl} {c d : Claim} (other : c ≠ d) : (st.withdraw d).holds c = st.holds c := by
  refine Bool.eq_iff_iff.2 ((StoreCtl.holds_iff).trans (Iff.trans ?_ StoreCtl.holds_iff.symm))
  refine or_congr ?_ ?_
  · by_cases same : st.access = some d
    · rw [show (st.withdraw d).access = none from if_pos same, same]
      exact ⟨fun h => (nomatch h), fun h => absurd (Option.some.inj h) (Ne.symm other)⟩
    · rw [show (st.withdraw d).access = st.access from if_neg same]
  · exact (List.mem_filter).trans (and_iff_left (decide_eq_true other))

theorem State.holdsClaim_claim {s : State} {c d : Claim} : (s.claim d).holdsClaim c = true ↔ c = d ∨ s.holdsClaim c = true :=
  StoreCtl.holds_claim

theorem State.holdsClaim_claim_self (s : State) (c : Claim) : (s.claim c).holdsClaim c = true := StoreCtl.holds_claim.2 (.inl rfl)

theorem State.not_holdsClaim_withdraw (s : State) (c : Claim) : (s.withdraw c).holdsClaim c = false := s.store.not_holds_withdraw c

theorem State.holdsClaim_withdraw {s : State} {c d : Claim} (other : c ≠ d) : (s.withdraw d).holdsClaim c = s.holdsClaim c :=
  StoreCtl.holds_withdraw other

/-! ## The choice (R168) -/

theorem pickRotating_spec {waiting : List Claim} {k : RotKind} {c : Claim} :
    ∀ {rotation : List RotKind}, pickRotating waiting rotation = some (k, c) → c ∈ waiting ∧ c.rotKind = some k
  | [], h => nomatch h
  | j :: rest, h => by
    unfold pickRotating at h
    split at h
    · next found =>
      cases h
      have kind := List.find?_some found
      exact ⟨List.mem_of_find?_eq_some found, of_decide_eq_true kind⟩
    · exact pickRotating_spec h

/-- The first kind of the rotation with a claim waiting, and the longest waiting claim of that kind. -/
theorem pickRotating_of {waiting before after : List Claim} {c : Claim} {k : RotKind} {later : List RotKind}
    (order : waiting = before ++ c :: after) (kind : c.rotKind = some k) (longest : ∀ x ∈ before, x.rotKind ≠ some k) :
    ∀ {earlier : List RotKind}, (∀ x ∈ waiting, ∀ j ∈ earlier, x.rotKind ≠ some j) →
      pickRotating waiting (earlier ++ k :: later) = some (k, c)
  | [], _ => by
    have found : waiting.find? (fun x => decide (x.rotKind = some k)) = some c := by
      refine List.find?_eq_some_iff_append.2 ⟨decide_eq_true kind, before, after, order, fun x mem => ?_⟩
      rw [decide_eq_false (longest x mem)]
      rfl
    rw [List.nil_append, pickRotating, found]
  | j :: earlier, unclaimed => by
    have missing : waiting.find? (fun x => decide (x.rotKind = some j)) = none :=
      List.find?_eq_none.2 fun x mem h => unclaimed x mem j List.mem_cons_self (of_decide_eq_true h)
    rw [List.cons_append, pickRotating, missing]
    exact pickRotating_of order kind longest fun x mem i inside => unclaimed x mem i (List.mem_cons_of_mem _ inside)

theorem pickRotating_nil : ∀ rotation : List RotKind, pickRotating [] rotation = none
  | [] => rfl
  | _ :: rest => pickRotating_nil rest

section
variable {st : StoreCtl}

theorem StoreCtl.choose_of_owed (due : 6 ≤ st.owed) : st.choose = some (.refresh, st.rotation) := if_pos due

theorem StoreCtl.choose_of_intake {l : Fin 12} {before after : List Claim} (few : st.owed < 6)
    (order : st.waiting = before ++ .intake l :: after) (first : ∀ m, Claim.intake m ∉ before) :
    st.choose = some (.intake l, st.rotation) := by
  have found : st.waiting.find? Claim.isIntake = some (.intake l) := by
    refine List.find?_eq_some_iff_append.2 ⟨rfl, before, after, order, fun x mem => ?_⟩
    cases x with
    | intake m => exact absurd mem (first m)
    | _ => rfl
  rw [StoreCtl.choose, if_neg (show ¬Config.maxOwed ≤ st.owed from Nat.not_le.2 few), found]

theorem StoreCtl.choose_of_rotating {earlier later : List RotKind} {k : RotKind} {before after : List Claim} {c : Claim}
    (few : st.owed < 6) (no_intake : ∀ m, Claim.intake m ∉ st.waiting) (rotation : st.rotation = earlier ++ k :: later)
    (unclaimed : ∀ x ∈ st.waiting, ∀ j ∈ earlier, x.rotKind ≠ some j) (order : st.waiting = before ++ c :: after)
    (kind : c.rotKind = some k) (longest : ∀ x ∈ before, x.rotKind ≠ some k) :
    st.choose = some (c, st.rotation.filter (fun x => decide (x ≠ k)) ++ [k]) := by
  have missing : st.waiting.find? Claim.isIntake = none := by
    refine List.find?_eq_none.2 fun x mem h => ?_
    cases x with
    | intake m => exact no_intake m mem
    | _ => cases h
  have picked : pickRotating st.waiting st.rotation = some (k, c) := by
    rw [rotation]
    exact pickRotating_of order kind longest unclaimed
  rw [StoreCtl.choose, if_neg (show ¬Config.maxOwed ≤ st.owed from Nat.not_le.2 few), missing]
  dsimp only
  rw [picked]

theorem StoreCtl.choose_of_empty (idle : st.waiting = []) :
    st.choose = if 0 < st.owed then some (.refresh, st.rotation) else none := by
  unfold StoreCtl.choose
  split
  · next due => exact (if_pos (Nat.lt_of_lt_of_le (by decide) due)).symm
  · rw [idle, List.find?_nil]
    dsimp only
    rw [pickRotating_nil]

/-- What the arbiter chooses is a refresh, or a claim that waits. -/
theorem StoreCtl.choose_spec {c : Claim} {rotation : List RotKind} (chosen : st.choose = some (c, rotation)) :
    c = .refresh ∨ c ∈ st.waiting := by
  unfold StoreCtl.choose at chosen
  split at chosen
  · cases chosen
    exact .inl rfl
  · split at chosen
    · next found =>
      cases chosen
      exact .inr (List.mem_of_find?_eq_some found)
    · split at chosen
      · next k d picked =>
        cases chosen
        exact .inr (pickRotating_spec picked).1
      · split at chosen
        · cases chosen
          exact .inl rfl
        · cases chosen

/-! ## The grant (R167) -/

/-- The controller after the grant of a claim. -/
def StoreCtl.granted (st : StoreCtl) (c : Claim) (rotation : List RotKind) : StoreCtl :=
  { st with access := some c, waiting := st.waiting.filter (fun x => decide (x ≠ c)), rotation := rotation }

theorem StoreCtl.grant_of {c : Claim} {rotation : List RotKind} (ready : st.state = .ready) (free : st.access = none)
    (chosen : st.choose = some (c, rotation)) : st.grant = st.granted c rotation := by
  rw [StoreCtl.grant, if_pos ⟨ready, free⟩, chosen]
  rfl

theorem StoreCtl.grant_of_none (chosen : st.choose = none) : st.grant = st := by
  rw [StoreCtl.grant, chosen]
  exact ite_self _

theorem StoreCtl.grant_of_shut (shut : ¬(st.state = .ready ∧ st.access = none)) : st.grant = st := if_neg shut

theorem StoreCtl.grant_spec (st : StoreCtl) :
    st.grant = st
    ∨ ∃ c rotation, st.access = none ∧ st.state = .ready ∧ (c = .refresh ∨ c ∈ st.waiting) ∧ st.grant = st.granted c rotation := by
  by_cases open_ : st.state = .ready ∧ st.access = none
  · cases chosen : st.choose with
    | none => exact .inl (StoreCtl.grant_of_none chosen)
    | some e =>
      exact .inr ⟨e.1, e.2, open_.2, open_.1, StoreCtl.choose_spec chosen, StoreCtl.grant_of open_.1 open_.2 chosen⟩
  · exact .inl (StoreCtl.grant_of_shut open_)

/-- A grant drops no claim, and makes none but a refresh's. -/
theorem StoreCtl.holds_grant {c : Claim} (held : st.holds c = true) : st.grant.holds c = true := by
  rcases st.grant_spec with still | ⟨d, rotation, free, -, -, granted⟩
  · rwa [still]
  · rw [granted, StoreCtl.holds_iff]
    rcases StoreCtl.holds_iff.1 held with access | waits
    · rw [free] at access
      cases access
    · by_cases same : c = d
      · exact .inl (congrArg some same.symm)
      · exact .inr (List.mem_filter.2 ⟨waits, decide_eq_true same⟩)

theorem StoreCtl.holds_of_grant {c : Claim} (other : c ≠ .refresh) (held : st.grant.holds c = true) : st.holds c = true := by
  rcases st.grant_spec with still | ⟨d, rotation, -, -, chosen, granted⟩
  · rwa [still] at held
  · rw [granted] at held
    refine StoreCtl.holds_iff.2 (.inr ?_)
    rcases StoreCtl.holds_iff.1 held with access | waits
    · obtain rfl : d = c := Option.some.inj access
      exact chosen.resolve_left other
    · exact (List.mem_filter.1 waits).1

end

section
variable (s : State)

/-- A grant changes the store's controller and the placement context only. -/
theorem State.grant_rest : { s.grant with store := s.store, place := s.place } = s := by
  unfold State.grant State.markPlacement
  split
  · split <;> rfl
  · rfl

@[simp] theorem State.grant_store : s.grant.store = s.store.grant := by
  unfold State.grant State.markPlacement
  split
  · split <;> rfl
  · rfl

theorem State.grant_place_none (idle : s.place = none) : s.grant.place = none := by
  rw [State.grant, State.markPlacement, idle]

theorem State.grant_place_some {ctx : PlaceCtx} (place : s.place = some ctx) :
    s.grant.place = some { ctx with
      phase := if ctx.phase = .claiming ∧ s.store.grant.access = some .placement then .inFlight else ctx.phase } := by
  rw [State.grant, State.markPlacement, place]
  dsimp only
  split <;> rfl

/-- No grant, and no placement row in flight: nothing changes. -/
theorem State.grant_of_still (still : s.store.grant = s.store) (free : s.store.access ≠ some .placement) : s.grant = s := by
  rw [State.grant, still, State.markPlacement]
  split
  · exact if_neg fun h => free h.2
  · rfl

theorem State.holdsClaim_grant {c : Claim} (held : s.holdsClaim c = true) : s.grant.holdsClaim c = true := by
  rw [State.holdsClaim, State.grant_store]
  exact StoreCtl.holds_grant held

theorem State.holdsClaim_of_grant {c : Claim} (other : c ≠ .refresh) (held : s.grant.holdsClaim c = true) : s.holdsClaim c = true := by
  rw [State.holdsClaim, State.grant_store] at held
  exact StoreCtl.holds_of_grant other held

theorem State.grant_canvas_drain : s.grant.canvas = s.canvas ∧ s.grant.drain = s.drain ∧ s.grant.host = s.host :=
  ⟨(congrArg State.canvas s.grant_rest :), (congrArg State.drain s.grant_rest :), (congrArg State.host s.grant_rest :)⟩

end

/-- The state after a grant (R116, R167). -/
theorem exec_memoryGrant {s : State} {c : Claim} {rotation : List RotKind} (ready : s.store.state = .ready) (free : s.store.access = none)
    (chosen : s.store.choose = some (c, rotation)) :
    ∃ t, exec .memoryGrant s = .next t
      ∧ t.store = { s.store with access := some c, waiting := s.store.waiting.filter (fun x => decide (x ≠ c)), rotation := rotation }
      ∧ { t with store := s.store, place := s.place } = s
      ∧ (s.place = none → t.place = none)
      ∧ ∀ ctx, s.place = some ctx → t.place = some { ctx with
          phase := if c = .placement ∧ ctx.phase = .claiming then .inFlight else ctx.phase } := by
  have granted := StoreCtl.grant_of ready free chosen
  refine ⟨s.grant, rfl, (s.grant_store).trans granted, s.grant_rest, s.grant_place_none, fun ctx place => ?_⟩
  have access : s.store.grant.access = some .placement ↔ c = .placement := by
    rw [granted]
    exact Option.some_inj
  rw [s.grant_place_some place, if_congr (and_comm.trans (and_congr_left fun _ => access)) rfl rfl]

theorem exec_memoryGrant_still {s : State} (free : s.store.access = none) (still : s.store.grant = s.store) :
    exec .memoryGrant s = .next s :=
  congrArg Host.Outcome.next (s.grant_of_still still (by rw [free]; nofun))

/-- Settles O53: the order of the arbiter's choice, and the refreshes' counts. -/
theorem memoryIsGrantedInOrder : Obligations.MemoryIsGrantedInOrder := by
  intro s st granted
  refine ⟨fun ready free => ⟨fun due => ?_, fun before l after few order first => ?_,
    fun earlier k later before c after few no_intake rotation unclaimed order kind longest => ?_, fun idle owing => ?_,
    fun idle settled => ?_⟩, fun shut free => ?_, fun access => ?_, fun requests ready running => ⟨fun few => ?_, fun due => ?_⟩⟩
  · exact exec_memoryGrant ready free (StoreCtl.choose_of_owed due)
  · exact exec_memoryGrant ready free (StoreCtl.choose_of_intake few order first)
  · exact exec_memoryGrant ready free (StoreCtl.choose_of_rotating few no_intake rotation unclaimed order kind longest)
  · exact exec_memoryGrant ready free ((StoreCtl.choose_of_empty idle).trans (if_pos owing))
  · refine exec_memoryGrant_still free (StoreCtl.grant_of_none ((StoreCtl.choose_of_empty idle).trans (if_neg ?_)))
    rw [settled]
    decide
  · exact exec_memoryGrant_still free (StoreCtl.grant_of_shut fun h => shut h.1)
  · exact congrArg Host.Outcome.next (if_pos access)
  · show Host.Outcome.next s.refreshExpiry.pump = _
    rw [State.refreshExpiry, if_pos ⟨running, ready⟩, if_pos (show s.store.owed < Config.maxOwed from few), State.pump_idle]
    rw [(State.grant_canvas_drain _).2.2]
    exact requests
  · show Host.Outcome.next s.refreshExpiry.pump = _
    rw [State.refreshExpiry, if_pos ⟨running, ready⟩, if_neg (show ¬s.store.owed < Config.maxOwed from Nat.not_lt.2 due)]
    dsimp only
    rw [satAdd_eq_min, State.pump_idle]
    · rfl
    · exact (HostLink.raise_requests ..).trans requests

end Sys2Proof.Machine
end

section
/-!
PROOF. FLAT_DATA: its checks, the runs it is cut into (R167), and their writes (R72).
-/

namespace Sys2Proof.Machine

/-! ## Runs -/

/-- The rest of a row that begins at `offset` ends at a row boundary. -/
theorem rowRest_mod {columns : Nat} (some_ : 0 < columns) (offset : Nat) : (offset + (columns - offset % columns)) % columns = 0 := by
  have below := Nat.mod_lt offset some_
  have parts := Nat.mod_add_div offset columns
  have sum : offset + (columns - offset % columns) = columns * (offset / columns + 1) := by
    rw [Nat.mul_add, Nat.mul_one]
    omega
  rw [sum, Nat.mul_mod_right]

/-- What the n-th run of a cut is, from the place where its first value goes. -/
def RunLaw (columns offset : Nat) (before : List (Nat × List Nat)) (r : Nat × List Nat) (after : List (Nat × List Nat)) : Prop :=
  r.2 ≠ [] ∧ r.1 = offset + (before.flatMap Prod.snd).length ∧ r.1 % columns + r.2.length ≤ columns
    ∧ (after ≠ [] → (r.1 + r.2.length) % columns = 0)

theorem cutRuns_nil (columns : Nat) : ∀ n offset, cutRuns columns n offset [] = []
  | 0, _ => rfl
  | _ + 1, _ => rfl

/-- R167. The runs hold the values in order, and each stays within one row of the flat. -/
theorem cutRuns_spec {columns : Nat} (some_ : 0 < columns) : ∀ (n offset : Nat) (values : List Nat), values.length ≤ n →
    (cutRuns columns n offset values).flatMap Prod.snd = values
    ∧ ∀ before r after, cutRuns columns n offset values = before ++ r :: after → RunLaw columns offset before r after
  | 0, offset, values, short => by
    obtain rfl := List.length_eq_zero_iff.1 (Nat.le_zero.1 short)
    exact ⟨rfl, fun before r after split => absurd split (by simp [cutRuns])⟩
  | n + 1, offset, values, short => by
    by_cases empty : values = []
    · subst empty
      exact ⟨rfl, fun before r after split => absurd split (by simp [cutRuns])⟩
    · have cut : cutRuns columns (n + 1) offset values = (offset, values.take (columns - offset % columns))
          :: cutRuns columns n (offset + (columns - offset % columns)) (values.drop (columns - offset % columns)) := if_neg empty
      have below := Nat.mod_lt offset some_
      have boundary := rowRest_mod some_ offset
      have fill : offset % columns + (columns - offset % columns) = columns := by omega
      have progress : 0 < columns - offset % columns := by omega
      generalize columns - offset % columns = room at cut boundary fill progress
      have length : values.length ≠ 0 := mt List.length_eq_zero_iff.1 empty
      obtain ⟨content, law⟩ := cutRuns_spec some_ n (offset + room) (values.drop room) (by rw [List.length_drop]; omega)
      rw [cut]
      refine ⟨by rw [List.flatMap_cons, content, List.take_append_drop], fun before r after split => ?_⟩
      have full : after ≠ [] ∨ before ≠ [] → room < values.length := by
        intro more
        by_contra all
        rw [List.drop_of_length_le (by omega), cutRuns_nil] at split
        rcases before with _ | ⟨b, before⟩
        · exact more.elim (fun h => h (List.cons.inj split).2.symm) fun h => h rfl
        · exact absurd (List.cons.inj split).2.symm (by simp)
      rcases before with _ | ⟨b, before⟩
      · obtain ⟨rfl, -⟩ := List.cons.inj split
        refine ⟨?_, rfl, ?_, fun more => ?_⟩
        · exact List.length_pos_iff.1 (by rw [List.length_take]; omega)
        · show offset % columns + (values.take room).length ≤ columns
          rw [List.length_take]
          omega
        · have := full (.inl more)
          rw [List.length_take, Nat.min_eq_left (by omega)]
          exact boundary
      · obtain ⟨rfl, tail⟩ := List.cons.inj split
        obtain ⟨nonempty, place, row, last⟩ := law before r after tail
        have := full (.inr (List.cons_ne_nil _ _))
        refine ⟨nonempty, ?_, row, last⟩
        rw [place, List.flatMap_cons, List.length_append, List.length_take, Nat.min_eq_left (by omega), Nat.add_assoc]

/-! ## FLAT_DATA -/

/-- R72. The handler's job from an accepted FLAT_DATA. -/
def State.flatJob (s : State) (tag : Byte) (i : Fin 24) (offset : Nat) (values : List Nat) : FlatJob :=
  { tag := tag, index := i, values := values, runs := cutRuns (s.flat i).columns values.length offset values }

/-- The checks of FLAT_DATA in order, on a flat in the library. -/
theorem State.flatData_of (s : State) (tag : Byte) (i : Fin 24) (offset : Nat) (values : List Nat) :
    s.flatData tag i.val offset values =
      if values.length < 1 ∨ 2048 < values.length then s.refuse .badField
      else if (s.flat i).state ≠ .loading then s.refuse .wrongState
      else if offset ≠ (s.flat i).count then s.refuse .outOfOrder
      else if (s.flat i).columns * (s.flat i).rows < (s.flat i).count + values.length then s.refuse .noRoom
      else (State.grant (State.claim { s with host := { s.host with job := some (s.flatJob tag i offset values) } } .flatWrite), none) :=
  s.withFlat_of_lt i.isLt _

/-- A request its owner leaves unanswered. -/
theorem exec_of_pending {c : Instr} {tag : Byte} (r : Request) {s t : State} (hs : s.Ready) (owner : s.owner tag r = (t, none))
    (requests : t.host.requests = [])
    (command : requestOf c = some (tag, r) := by rfl) (named : ∀ k, r ≠ .unknown k := by nofun) : exec c s = .next t.outboundGrant := by
  have served : s.serve tag r = t := by rw [State.serve, State.reply_eq_owner hs, owner]
  obtain ⟨-, idle, free⟩ := hs
  rw [exec_arrive command named s, s.arrive_served tag r idle free (by rw [served]; exact requests), served]

@[simp] theorem State.outboundGrant_store (s : State) : s.outboundGrant.store = s.store :=
  (congrArg State.store (Outbound.outboundGrant s).rest :)

theorem State.outboundGrant_holdsClaim (s : State) (c : Claim) : s.outboundGrant.holdsClaim c = s.holdsClaim c := by
  rw [State.holdsClaim, State.outboundGrant_store, State.holdsClaim]

/-- R72. An accepted FLAT_DATA: the handler is BUSY with its runs, and their first write is claimed. -/
theorem exec_flatData {s : State} (tag : Byte) {i : Fin 24} {offset : Nat} {values : List Nat} (hs : s.Ready)
    (sized : 1 ≤ values.length ∧ values.length ≤ 2048) (loading : (s.flat i).state = .loading) (next : offset = (s.flat i).count)
    (room : (s.flat i).count + values.length ≤ (s.flat i).columns * (s.flat i).rows) :
    exec (.flatData tag i.val offset values) s = .next (State.outboundGrant (State.grant (State.claim
      { s with host := { s.host with job := some (s.flatJob tag i offset values) } } .flatWrite))) := by
  have owner : s.owner tag (.flatData i.val offset values) = s.flatData tag i.val offset values := rfl
  rw [s.flatData_of, if_neg (by omega), if_neg (not_not.2 loading), if_neg (not_not.2 next), if_neg (Nat.not_lt.2 room)] at owner
  refine exec_of_pending (.flatData i.val offset values) hs owner ?_
  rw [(State.grant_canvas_drain _).2.2]
  exact hs.2.1

theorem HostLink.handlerFree_of_job {h : HostLink} {j : FlatJob} (job : h.job = some j) : h.handlerFree = false := by
  refine Bool.eq_false_iff.2 fun free => ?_
  rw [(HostLink.handlerFree_iff.1 free).1] at job
  cases job

/-- The handler's job, and the claim of its first write, stand after the event that brings them. -/
theorem State.claimFlat_spec (s : State) (j : FlatJob) :
    let t := State.outboundGrant (State.grant (State.claim { s with host := { s.host with job := some j } } .flatWrite))
    t.host.job = some j ∧ t.flats = s.flats ∧ t.mem = s.mem ∧ t.holdsClaim .flatWrite = true := by
  intro t
  have claimed := State.holdsClaim_claim_self { s with host := { s.host with job := some j } } .flatWrite
  have rest := State.grant_rest (State.claim { s with host := { s.host with job := some j } } .flatWrite)
  have out := Outbound.outboundGrant (State.grant (State.claim { s with host := { s.host with job := some j } } .flatWrite))
  refine ⟨out.job.trans (congrArg (fun u : State => u.host.job) rest), ?_, ?_, ?_⟩
  · exact (congrArg State.flats out.rest :).trans (congrArg State.flats rest :)
  · exact (congrArg State.mem out.rest :).trans (congrArg State.mem rest :)
  · exact (State.outboundGrant_holdsClaim _ _).trans (State.holdsClaim_grant _ claimed)

/-! ## The memory of the flats -/

/-- A run reads back as it was written, and every other key as before. -/
theorem Region.read_writeRun {α : Type} [DecidableEq α] (d : α) (j : Nat) : ∀ (vs : List α) (m : List (Nat × α)) (key : Nat),
    Region.wf d m = true → Region.read d (Region.writeRun d m key vs) j =
      if key ≤ j then (vs[j - key]?).getD (Region.read d m j) else Region.read d m j
  | [], m, key, _ => by simp [Region.writeRun]
  | v :: rest, m, key, wf => by
    rw [Region.writeRun, Region.read_writeRun d j rest _ _ (Region.write_wf d m key v wf), Region.read_write d m key v j wf]
    rcases Nat.lt_trichotomy j key with below | rfl | above
    · rw [if_neg (by omega), if_neg (by omega), if_neg (by omega)]
    · rw [if_neg (by omega), if_pos rfl, if_pos (Nat.le_refl j), Nat.sub_self, List.getElem?_cons_zero, Option.getD_some]
    · rw [if_pos (by omega), if_neg (by omega), if_pos (by omega), show j - key = (j - (key + 1)) + 1 by omega,
        List.getElem?_cons_succ]

theorem Memory.flatValue_setFlatRun {m : Memory} (wf : m.wf = true) (i j : Fin 24) (place q : Nat) (vs : List Nat) :
    (m.setFlatRun i place vs).flatValue j q =
      if flatKey i place ≤ flatKey j q then (vs[flatKey j q - flatKey i place]?).getD (m.flatValue j q) else m.flatValue j q := by
  rw [Memory.wf, Bool.and_eq_true] at wf
  exact Region.read_writeRun 0 _ vs m.flats _ wf.2

/-- Settles O31: the checks, the runs and their writes, and what the memory then reads. -/
theorem flatDataIsWrittenInRuns : Obligations.FlatDataIsWrittenInRuns := by
  refine ⟨fun s tag i offset values hs => ?_, fun s j place vs requests access job => ?_, fun s tag n offset values hs above => ?_,
    fun m i place vs wf => ⟨fun n v at_ => ?_, fun j q apart => ?_, rfl, rfl⟩⟩
  · intro f sized answer
    have owner : s.owner tag (.flatData i.val offset values) = s.flatData tag i.val offset values := rfl
    rw [s.flatData_of] at owner
    refine ⟨fun wrong => ?_, fun right shut => ?_, fun right loading other => ?_, fun right loading next full => ?_,
      fun right loading next room => ?_⟩
    · exact exec_of_refused _ hs (owner.trans (if_pos (by omega)))
    · rw [if_neg (by omega)] at owner
      exact exec_of_refused _ hs (owner.trans (if_pos shut))
    · rw [if_neg (by omega), if_neg (not_not.2 loading)] at owner
      exact exec_of_refused _ hs (owner.trans (if_pos other))
    · rw [if_neg (by omega), if_neg (not_not.2 loading), if_neg (not_not.2 next)] at owner
      exact exec_of_refused _ hs (owner.trans (if_pos full))
    · have columns : 0 < f.columns := by
        refine Nat.pos_of_ne_zero fun zero => ?_
        rw [zero, Nat.zero_mul] at room
        omega
      obtain ⟨content, law⟩ := cutRuns_spec columns values.length offset values (Nat.le_refl _)
      obtain ⟨ghost, gflats, gmem, claims⟩ := s.claimFlat_spec (s.flatJob tag i offset values)
      have answered := exec_flatData tag hs right loading next room
      exact ⟨_, answered, ⟨_, ghost, rfl, rfl, rfl, content, law⟩, claims, gflats, gmem, HostLink.handlerFree_of_job ghost⟩
  · have done : exec .flatDataWriteDone s = .next s.freeStore.flatRunDone.grant.pump := if_pos access
    rw [done]
    have idle : ∀ u : State, u.host.requests = [] → u.grant.pump = u.grant.outboundGrant := fun u h =>
      State.pump_idle _ (by rw [(State.grant_canvas_drain u).2.2]; exact h)
    have running : s.freeStore.host.job = some j := job
    refine ⟨fun last => ?_, fun next rest more => ?_⟩
    · rw [State.flatRunDone, running]
      dsimp only
      rw [last]
      exact congrArg Host.Outcome.next (idle _ requests)
    · rw [State.flatRunDone, running]
      dsimp only
      rw [more]
      exact congrArg Host.Outcome.next (idle _ requests)
  · exact exec_of_refused (.flatData n offset values) hs (dif_neg (Nat.not_lt.2 above))
  · have read := Memory.flatValue_setFlatRun wf i i place (place + n) vs
    have key : flatKey i (place + n) = flatKey i place + n := (Nat.add_assoc ..).symm
    rw [key, if_pos (Nat.le_add_right ..), Nat.add_sub_cancel_left, at_] at read
    exact read
  · refine (Memory.flatValue_setFlatRun wf i j place q vs).trans ?_
    split
    · next above => 
      rw [List.getElem?_eq_none (by omega), Option.getD_none]
    · rfl

end Sys2Proof.Machine
end

section
/-!
PROOF. The drain (R152 to R161): its taking of a cell, its blocks, hold and resume, and CELL_RELEASE (R142).
-/

namespace Sys2Proof.Machine

/-! ## Taking a cell (R152 to R155) -/

/-- The drain may take a cell (R152). -/
def State.drainReady (s : State) : Prop :=
  s.drain.state = .idle ∧ s.drain.hold = false ∧ s.canvas.state ≠ .idle ∧ s.store.state = .ready

section
variable {s : State}

theorem State.drainTake_of_shut (shut : ¬s.drainReady) : s.drainTake = s := if_neg shut

theorem State.drainTake_of_ready (ready : s.drainReady) :
    s.drainTake = match s.drainCandidate with | some i => s.drainCell i | none => s := if_pos ready

theorem State.drainTake_of_none (none : s.drainCandidate = none) : s.drainTake = s := by
  unfold State.drainTake
  rw [none]
  exact ite_self _

theorem State.drainTake_of_some {i : Nat} (ready : s.drainReady) (named : s.drainCandidate = some i) : s.drainTake = s.drainCell i := by
  unfold State.drainTake
  rw [named]
  exact if_pos ready

theorem State.settle_of_shut (shut : ¬s.drainReady) : s.settle = s.grant := by
  rw [State.settle, State.drainTake_of_shut shut]

theorem State.settle_of_busy (busy : s.drain.state ≠ .idle) : s.settle = s.grant := State.settle_of_shut fun ready => busy ready.1

theorem State.settle_of_none (none : s.drainCandidate = none) : s.settle = s.grant := by
  rw [State.settle, State.drainTake_of_none none]

/-- The state after the drain has taken a cell (R155). -/
theorem State.drainCell_of {i : Nat} {c : Cell} (cell : s.cell? i = some c) : s.drainCell i = State.claim
    { s with
      canvas := { s.canvas with cells := s.canvas.cells.set i { c with state := .draining } }
      drain := { s.drain with state := .reading, cell := i, block := 1, queue := s.drain.queue.filter fun j => decide (j ≠ i) } }
    .drainRead := by
  rw [State.drainCell, cell]
  rfl

theorem State.settle_of_taken {i : Nat} {c : Cell} (ready : s.drainReady) (named : s.drainCandidate = some i) (cell : s.cell? i = some c) :
    s.settle = State.grant (State.claim
      { s with
        canvas := { s.canvas with cells := s.canvas.cells.set i { c with state := .draining } }
        drain := { s.drain with state := .reading, cell := i, block := 1, queue := s.drain.queue.filter fun j => decide (j ≠ i) } }
      .drainRead) := by
  rw [State.settle, State.drainTake_of_some ready named, State.drainCell_of cell]

theorem State.drainCandidate_arrival_nil (arrival : s.canvas.order = .arrival) (empty : s.drain.queue = []) : s.drainCandidate = none := by
  rw [State.drainCandidate, arrival, empty]

theorem State.drainCandidate_arrival {i : Nat} {rest : List Nat} {c : Cell} (arrival : s.canvas.order = .arrival)
    (queue : s.drain.queue = i :: rest) (cell : s.cell? i = some c) :
    s.drainCandidate = if c.zeroed = true then some i else none := by
  rw [State.drainCandidate, arrival, queue]
  dsimp only
  rw [cell]

/-- R154. The search for the lowest open cell passes the cells that are DRAINED or EXEMPT. -/
theorem lowestOpen_of {c : Cell} (open_ : ¬(c.state = .drained ∨ c.state = .exempt)) : ∀ {cells : List Cell} {i : Nat} (k : Nat),
    (∀ j, j < i → ∃ d, cells[j]? = some d ∧ (d.state = .drained ∨ d.state = .exempt)) → cells[i]? = some c →
    lowestOpen k cells = some (k + i, c)
  | [], _, _, _, at_ => nomatch at_
  | d :: cells, 0, k, _, at_ => by
    obtain rfl : d = c := Option.some.inj at_
    exact if_neg open_
  | d :: cells, i + 1, k, passed, at_ => by
    obtain ⟨e, first, done⟩ := passed 0 (Nat.succ_pos i)
    obtain rfl : d = e := Option.some.inj first
    rw [lowestOpen, if_pos done, lowestOpen_of open_ (k + 1) (fun j below => passed (j + 1) (Nat.succ_lt_succ below)) at_,
      Nat.add_assoc, Nat.add_comm 1 i]

theorem lowestOpen_none : ∀ {cells : List Cell} (k : Nat),
    (∀ j, j < cells.length → ∃ d, cells[j]? = some d ∧ (d.state = .drained ∨ d.state = .exempt)) → lowestOpen k cells = none
  | [], _, _ => rfl
  | d :: cells, k, passed => by
    obtain ⟨e, first, done⟩ := passed 0 (Nat.succ_pos _)
    obtain rfl : d = e := Option.some.inj first
    rw [lowestOpen, if_pos done]
    exact lowestOpen_none (k + 1) fun j below => passed (j + 1) (Nat.succ_lt_succ below)

theorem State.drainCandidate_ordered_none (ordered : s.canvas.order = .ordered)
    (passed : ∀ j, j < s.canvas.cells.length → ∃ c, s.cell? j = some c ∧ (c.state = .drained ∨ c.state = .exempt)) :
    s.drainCandidate = none := by
  rw [State.drainCandidate, ordered]
  dsimp only
  rw [lowestOpen_none 0 passed]

theorem State.drainCandidate_ordered {i : Nat} {c : Cell} (ordered : s.canvas.order = .ordered)
    (passed : ∀ j, j < i → ∃ d, s.cell? j = some d ∧ (d.state = .drained ∨ d.state = .exempt)) (cell : s.cell? i = some c)
    (open_ : ¬(c.state = .drained ∨ c.state = .exempt)) :
    s.drainCandidate = if c.state = .complete ∧ c.zeroed = true then some i else none := by
  rw [State.drainCandidate, ordered]
  dsimp only
  rw [lowestOpen_of open_ 0 passed cell, Nat.zero_add]

end

/-- An event whose effect leaves no request waiting ends with the outbound grant. -/
theorem State.settle_pump {s : State} (idle : s.host.requests = []) : s.settle.pump = s.settle.outboundGrant :=
  State.pump_idle _ (by rw [(Settled.settle s).host]; exact idle)

/-- Settles O49: the drain takes the cell its order names, when that is complete and zeroed. -/
theorem drainTakesTheCellItsOrderNames : Obligations.DrainTakesTheCellItsOrderNames := by
  intro s idle d ready taken left passed
  have took : exec .drainTake s = .next s.settle.outboundGrant := congrArg Host.Outcome.next (State.settle_pump idle)
  have leaves : s.settle = s.grant → exec .drainTake s = left := fun e => took.trans (by rw [e])
  have takes : ∀ {i c}, ready → s.drainCandidate = some i → s.cell? i = some c → exec .drainTake s = taken i c :=
    fun ready named cell => took.trans (by rw [State.settle_of_taken ready named cell])
  refine ⟨fun shut => leaves (State.settle_of_shut shut), fun ready arrival => ⟨fun empty => ?_, fun i rest c queue cell => ?_⟩,
    fun ready ordered => ⟨fun all => ?_, fun i c before cell h1 h2 => ?_⟩⟩
  · exact leaves (State.settle_of_none (State.drainCandidate_arrival_nil arrival empty))
  · have named := State.drainCandidate_arrival arrival queue cell
    refine ⟨fun zeroed => takes ready (named.trans (if_pos zeroed)) cell, fun raw => ?_⟩
    exact leaves (State.settle_of_none (named.trans (if_neg (by rw [raw]; decide))))
  · exact leaves (State.settle_of_none (State.drainCandidate_ordered_none ordered all))
  · have named := State.drainCandidate_ordered ordered before cell (not_or.2 ⟨h1, h2⟩)
    refine ⟨fun complete zeroed => takes ready (named.trans (if_pos ⟨complete, zeroed⟩)) cell, fun unfit => ?_⟩
    refine leaves (State.settle_of_none (named.trans (if_neg ?_)))
    rintro ⟨complete, zeroed⟩
    rcases unfit with other | raw
    · exact other complete
    · rw [raw] at zeroed
      cases zeroed

/-! ## Blocks (R156 to R158) -/

/-- Settles O50: the end of a read, and the block it forms. -/
theorem blockReadsFormBlocks : Obligations.BlockReadsFormBlocks := by
  refine ⟨fun s idle access => ?_, fun p => rfl⟩
  intro d after
  have done : exec .drainBlockReadDone s = .next s.freeStore.drainReadDone.settle.outboundGrant := by
    refine (if_pos access : execDrainBlockReadDone s = _).trans (congrArg Host.Outcome.next (State.settle_pump ?_))
    unfold State.drainReadDone
    split
    · exact idle
    · split <;> exact idle
  refine ⟨fun ended => ?_, fun live hold => ?_, fun live free => ?_⟩
  · have read : s.freeStore.drainReadDone = after { Drain.reset with hold := d.hold } := if_pos ended
    rw [done, read]
  · have read : s.freeStore.drainReadDone = after { d with state := .stopped } :=
      (if_neg (Bool.eq_false_iff.1 live)).trans (if_pos hold)
    rw [done, read, State.settle_of_busy (s := after { d with state := .stopped }) nofun]
  · have read : s.freeStore.drainReadDone = after { d with state := .offered, formed := some s.formBlock } :=
      (if_neg (Bool.eq_false_iff.1 live)).trans (if_neg (Bool.eq_false_iff.1 free))
    refine ⟨s.formBlock, rfl, rfl, decide_eq_true_iff, fun c cell => ?_, ?_, fun i below => ?_, ?_⟩
    · rw [State.formBlock, cell]
    · rw [State.formBlock, List.length_map, List.length_range]
    · rw [State.formBlock, List.getElem?_map, List.getElem?_range below, Option.map_some]
    · rw [done, read, State.settle_of_busy (s := after { d with state := .offered, formed := some s.formBlock }) nofun]

theorem exec_pictureBlockEmitted {s : State} {b : Block} (line : s.host.line = some (.block b)) :
    exec .pictureBlockEmitted s = .next (
      let u : State := { s with host := { s.host with line := none } }
      if u.drain.state = .sending then u.blockEmitted.settle.pump else u.pump) := by
  show execPictureBlockEmitted s = _
  rw [execPictureBlockEmitted, line]

/-- Settles O51: the end of an emission, by the drain's position. -/
theorem emittedBlocksMoveTheDrainOn : Obligations.EmittedBlocksMoveTheDrainOn := by
  intro s b idle line d after next
  have emitted := exec_pictureBlockEmitted line
  dsimp only at emitted
  have sent : d.state = .sending → exec .pictureBlockEmitted s = .next (State.blockEmitted (after d)).settle.outboundGrant := fun sending =>
    emitted.trans (congrArg Host.Outcome.next ((if_pos sending).trans (State.settle_pump ((Cascade.blockEmitted (after d)).requests.trans idle))))
  refine ⟨fun other => ?_, fun sending ended => ?_, fun sending live more hold => ?_, fun sending live more free => ?_,
    fun sending live last c cell => ?_⟩
  · exact emitted.trans (congrArg Host.Outcome.next ((if_neg other).trans (State.pump_idle _ idle)))
  · have moved : State.blockEmitted (after d) = after { Drain.reset with hold := d.hold } := if_pos ended
    exact (sent sending).trans (by rw [moved])
  · have moved : State.blockEmitted (after d) = after { d with state := .stopped, block := d.block + 1, formed := none } :=
      (if_neg (Bool.eq_false_iff.1 live)).trans ((if_neg more).trans (if_pos hold))
    refine (sent sending).trans ?_
    rw [moved, State.settle_of_busy (s := after { d with state := .stopped, block := d.block + 1, formed := none }) nofun]
  · have moved : State.blockEmitted (after d)
        = State.claim (after { d with state := .reading, block := d.block + 1, formed := none }) .drainRead :=
      (if_neg (Bool.eq_false_iff.1 live)).trans ((if_neg more).trans (if_neg (Bool.eq_false_iff.1 free)))
    refine (sent sending).trans ?_
    rw [moved, State.settle_of_busy (s := State.claim (after { d with state := .reading, block := d.block + 1, formed := none }) .drainRead) nofun]
  · have moved : State.blockEmitted (after d) = State.finishTest (State.setCell
        (after { d with state := .idle, cell := 0, block := 0, formed := none }) d.cell { c with state := .drained }) := by
      refine (if_neg (Bool.eq_false_iff.1 live)).trans ((if_pos last).trans ?_)
      unfold State.cellEmitted
      have found : State.cell? (after d) (after d).drain.cell = some c := cell
      dsimp only
      rw [found]
      rfl
    refine (sent sending).trans ?_
    rw [moved]

end Sys2Proof.Machine
end

section
/-!
PROOF. DRAIN_HOLD and DRAIN_RESUME (R160, R161), and CELL_RELEASE (R142).
-/

namespace Sys2Proof.Machine

/-! ## Hold and resume -/

section
variable {s : State} (tag : Byte)

theorem exec_drainHold_of {t : State} (hs : s.Ready) (owner : s.drainHold = t.drainAnswer false) (idle : t.host.requests = []) :
    exec (.drainHold tag) s = .next (t.answered tag 0x1D (code8 t.drain.state.code ++ code8 0)) :=
  exec_of_done .drainHold hs owner idle

theorem exec_drainResume_of {t : State} (hs : s.Ready) (owner : s.drainResume = t.drainAnswer true) (idle : t.host.requests = []) :
    exec (.drainResume tag) s = .next (t.answered tag 0x1E (code8 t.drain.state.code ++ code8 1)) :=
  exec_of_done .drainResume hs owner idle

end

theorem State.grant_requests {s : State} (idle : s.host.requests = []) : s.grant.host.requests = [] := by
  rw [s.grant_canvas_drain.2.2]
  exact idle

theorem State.grant_drain (s : State) : s.grant.drain = s.drain := s.grant_canvas_drain.2.1

section
variable {s : State}

/-- R160. A hold that stops nothing. -/
theorem State.drainHold_of_still (free : s.drain.hold = false)
    (still : s.drain.state ∈ [.idle, .sending, .stopped] ∨ s.drain.state = .reading ∧ s.store.access = some .drainRead) :
    s.drainHold = State.drainAnswer { s with drain := { s.drain with hold := true } } false := by
  unfold State.drainHold
  rw [if_neg (Bool.eq_false_iff.1 free)]
  dsimp only
  split
  · next reading => exact if_pos (still.elim (fun mem => absurd mem (by rw [reading]; decide)) And.right)
  · next offered => exact absurd still (by rw [offered]; simp)
  · rfl
  · rfl
  · rfl

/-- R160. A hold stops a block whose read is not yet in flight. -/
theorem State.drainHold_of_reading (free : s.drain.hold = false) (reading : s.drain.state = .reading)
    (waiting : s.store.access ≠ some .drainRead) : s.drainHold = State.drainAnswer
      (State.grant (State.withdraw { s with drain := { s.drain with hold := true, state := .stopped } } .drainRead)) false := by
  unfold State.drainHold
  rw [if_neg (Bool.eq_false_iff.1 free)]
  dsimp only
  rw [reading]
  dsimp only
  rw [if_neg waiting, State.settle_of_busy]
  nofun

/-- R160. A hold takes back a block that is offered. -/
theorem State.drainHold_of_offered (free : s.drain.hold = false) (offered : s.drain.state = .offered) :
    s.drainHold = State.drainAnswer
      (State.removeSource { s with drain := { s.drain with hold := true, state := .stopped, formed := none } } .blocks) false := by
  unfold State.drainHold
  rw [if_neg (Bool.eq_false_iff.1 free)]
  dsimp only
  rw [offered]

/-- R161. A resume that starts nothing. -/
theorem State.drainResume_of_still (hold : s.drain.hold = true) (still : s.drain.state ∈ [.reading, .offered, .sending]) :
    s.drainResume = State.drainAnswer { s with drain := { s.drain with hold := false } } true := by
  unfold State.drainResume
  rw [if_neg (by rw [hold]; decide)]
  dsimp only
  split
  · next stopped => exact absurd still (by rw [stopped]; decide)
  · next idle => exact absurd still (by rw [idle]; decide)
  · rfl
  · rfl
  · rfl

/-- R161. A resume reads on. -/
theorem State.drainResume_of_stopped (hold : s.drain.hold = true) (stopped : s.drain.state = .stopped) :
    s.drainResume = State.drainAnswer
      (State.grant (State.claim { s with drain := { s.drain with hold := false, state := .reading } } .drainRead)) true := by
  unfold State.drainResume
  rw [if_neg (by rw [hold]; decide)]
  dsimp only
  rw [stopped]
  dsimp only
  rw [State.settle_of_busy]
  nofun

/-- R161. A resume of an idle drain may take a cell. -/
theorem State.drainResume_of_idle (hold : s.drain.hold = true) (idle : s.drain.state = .idle) :
    s.drainResume = State.drainAnswer (State.settle { s with drain := { s.drain with hold := false } }) true := by
  unfold State.drainResume
  rw [if_neg (by rw [hold]; decide)]
  dsimp only
  split
  · next stopped =>
    rw [idle] at stopped
    cases stopped
  · rfl
  all_goals
    next other =>
      rw [idle] at other
      cases other

end

/-- Settles O48: hold and resume, by the drain's state. -/
theorem holdAndResumeStopAndStartTheDrain : Obligations.HoldAndResumeStopAndStartTheDrain := by
  intro s tag hs d held resumed
  have ⟨_, idle, _⟩ := hs
  refine ⟨fun hold => ?_, fun free still => ?_, fun free reading waiting => ?_, fun free offered => ?_, fun free => ?_,
    fun hold still => ?_, fun hold stopped => ?_, fun hold rests => ?_⟩
  · exact exec_of_read .drainHold hs (if_pos hold)
  · exact exec_drainHold_of tag hs (State.drainHold_of_still free still) idle
  · refine (exec_drainHold_of tag hs (State.drainHold_of_reading free reading waiting) (State.grant_requests idle)).trans ?_
    rw [State.grant_drain]
    rfl
  · refine (exec_drainHold_of tag hs (State.drainHold_of_offered free offered) idle).trans ?_
    rw [State.removeSource_drain]
    rfl
  · exact exec_of_read .drainResume hs (if_pos free)
  · exact exec_drainResume_of tag hs (State.drainResume_of_still hold still) idle
  · refine (exec_drainResume_of tag hs (State.drainResume_of_stopped hold stopped) (State.grant_requests idle)).trans ?_
    rw [State.grant_drain]
    rfl
  · exact exec_drainResume_of tag hs (State.drainResume_of_idle hold rests) (by rw [(Settled.settle _).host]; exact idle)

/-! ## CELL_RELEASE -/

/-- The end of a wait changes the placement context and the claims only. -/
theorem State.leaveWait_rest (s : State) (i : Nat) : { s.leaveWait i with place := s.place, store := s.store } = s := by
  unfold State.leaveWait
  split
  · rfl
  · split
    · dsimp only
      split <;> rfl
    · rfl

/-- R142. The state after a PENDING cell is forced, but for the wait it ends. -/
theorem State.completeCell_rest (s : State) (i : Nat) (c : Cell) :
    { s.completeCell i c with place := s.place, store := s.store }
      = { s with canvas := { s.canvas with cells := s.canvas.cells.set i { c with state := .complete } }
                 drain := { s.drain with queue := s.drain.queue ++ [i] } } :=
  State.leaveWait_rest _ i

theorem exec_cellRelease_of {s : State} (tag : Byte) {i : Nat} {t : State} {payload : List Byte} (hs : s.Ready) (owner : s.cellRelease i = t.done payload) :
    exec (.cellRelease tag i) s = .next (t.answered tag 0x1A payload) := by
  have ⟨_, idle, _⟩ := hs
  have requests := (Cascade.cellRelease s i).requests
  rw [owner] at requests
  exact exec_of_done (.cellRelease i) hs owner (requests.trans idle)

/-- Settles O46: the checks of CELL_RELEASE, and what it makes of the cell. -/
theorem cellReleaseForcesPendingCells : Obligations.CellReleaseForcesPendingCells := by
  intro s tag i hs shaped answer
  refine ⟨fun above => ?_, fun inTable idle => ?_, fun inTable open_ outside => ?_, fun c inTable open_ cell => ?_⟩
  · exact exec_of_refused (.cellRelease i) hs (State.withCell_of_above above _)
  · exact exec_of_refused (.cellRelease i) hs (State.withCell_of_idle inTable idle _)
  · exact exec_of_refused (.cellRelease i) hs (State.withCell_of_outside inTable open_ shaped outside _)
  · have owner : s.cellRelease i = _ := State.withCell_of inTable open_ cell _
    refine ⟨fun pending => ?_, fun untouched => ?_, fun other => ?_⟩
    · rw [if_pos pending] at owner
      have rest := s.completeCell_rest i { c with owed := 0, forced := true }
      generalize s.completeCell i { c with owed := 0, forced := true } = t at owner rest
      refine ⟨_, ?_, ?_, ?_, exec_cellRelease_of tag hs owner⟩
      · exact congrArg (fun x : State => { x.canvas with released := x.canvas.released + 1 }) rest
      · exact congrArg State.drain rest
      · exact congrArg (fun x : State => { x with canvas := s.canvas, drain := s.drain }) rest
    · rw [if_neg (by rw [untouched]; decide), if_pos untouched] at owner
      exact exec_cellRelease_of tag hs owner
    · rw [if_neg (fun h => absurd other (by rw [h]; decide)), if_neg (fun h => absurd other (by rw [h]; decide))] at owner
      exact exec_cellRelease_of tag hs owner

end Sys2Proof.Machine
end

section
/-!
PROOF. The detections over all links (R3), entry to READY (R165, R166, R172), and the general clear (R185).
-/

namespace Sys2Proof.Machine

/-! ## Every link in turn -/

/-- Each link in turn is given its own port; the ports of the others stay. `P` is what the turns keep. -/
theorem foldl_links_port {P : State → Prop} {f : State → Fin 12 → State} {g : Port → Port} (keeps : ∀ s l, P s → P (f s l))
    (self : ∀ s l, P s → (f s l).port l = g (s.port l)) (other : ∀ s l j, P s → j ≠ l → (f s l).port j = s.port j) :
    ∀ (links : List (Fin 12)) (s : State), P s → links.Nodup →
      ∀ j, (links.foldl f s).port j = if j ∈ links then g (s.port j) else s.port j
  | [], s, _, _, j => (if_neg List.not_mem_nil).symm
  | l :: links, s, holds, distinct, j => by
    obtain ⟨unlisted, distinct⟩ := List.nodup_cons.1 distinct
    rw [List.foldl_cons, foldl_links_port keeps self other links (f s l) (keeps s l holds) distinct j]
    by_cases same : j = l
    · subst same
      rw [if_neg unlisted, if_pos List.mem_cons_self, self s j holds]
    · rw [other s l j holds same]
      exact if_congr (List.mem_cons.trans (or_iff_right same)).symm rfl rfl

theorem foldl_allLinks_port {P : State → Prop} {f : State → Fin 12 → State} {g : Port → Port} (keeps : ∀ s l, P s → P (f s l))
    (self : ∀ s l, P s → (f s l).port l = g (s.port l)) (other : ∀ s l j, P s → j ≠ l → (f s l).port j = s.port j)
    {s : State} (holds : P s) (j : Fin 12) : (allLinks.foldl f s).port j = g (s.port j) :=
  (foldl_links_port keeps self other allLinks s holds (List.nodup_finRange 12) j).trans (if_pos (List.mem_finRange j))

/-! ## What a notice leaves of the queue and of the pending table -/

/-- Nothing leaves the notice queue, and the other kinds' pending entries stay. -/
structure HostLink.Noted (k : NoticeKind) (h u : HostLink) : Prop where
  queue : ∃ later, u.notices = h.notices ++ later
  pending : ∀ j, j ≠ k → u.pendingOf j = h.pendingOf j

theorem HostLink.Noted.refl (k : NoticeKind) (h : HostLink) : HostLink.Noted k h h := ⟨⟨[], (List.append_nil _).symm⟩, fun _ _ => rfl⟩

theorem HostLink.Noted.trans {k : NoticeKind} {h u v : HostLink} (a : HostLink.Noted k h u) (b : HostLink.Noted k u v) :
    HostLink.Noted k h v := by
  obtain ⟨l, hl⟩ := a.queue
  obtain ⟨m, hm⟩ := b.queue
  exact ⟨⟨l ++ m, by rw [hm, hl, List.append_assoc]⟩, fun j hj => (b.pending j hj).trans (a.pending j hj)⟩

theorem HostLink.Noted.raise (h : HostLink) (k : NoticeKind) (c : List Byte) : HostLink.Noted k h (h.raise k c) := by
  rcases h.raise_spec k c with ⟨-, e⟩ | ⟨-, e⟩ <;> rw [e]
  · exact ⟨⟨_, rfl⟩, fun _ _ => rfl⟩
  · exact ⟨⟨[], (List.append_nil _).symm⟩, fun j hj => (h.pendingOf_setPending k j _).trans (if_neg (Ne.symm hj))⟩

/-- A notice at the head of the queue stays there. -/
theorem HostLink.Noted.head {k : NoticeKind} {h u : HostLink} (a : HostLink.Noted k h u) {n : Notice}
    (head : h.notices.head? = some n) : u.notices.head? = some n := by
  obtain ⟨later, queue⟩ := a.queue
  rw [queue, List.head?_append, head]
  rfl

theorem HostLink.raise_head {h : HostLink} {k : NoticeKind} (c : List Byte) (unmasked : h.masked k = false) (empty : h.notices = []) :
    (h.raise k c).notices.head? = some { kind := k, content := c, folded := 1 } := by
  have takes : h.takes k = true := HostLink.takes_iff.2 ⟨unmasked, by rw [empty]; decide⟩
  rw [HostLink.raise, if_pos takes, empty]
  rfl

theorem HostLink.raise_pendingOf {h : HostLink} {k : NoticeKind} (c : List Byte) (masked : h.masked k = true)
    (absent : h.pendingOf k = none) : (h.raise k c).pendingOf k = some { content := c, folded := 1 } := by
  have shut : ¬h.takes k = true := fun takes => by
    rw [(HostLink.takes_iff.1 takes).1] at masked
    cases masked
  rw [HostLink.raise, if_neg shut, HostLink.pendingOf_setPending, if_pos rfl, absent]
  rfl

/-! ## Detections -/

/-- R3. The port after a detection, in a store of state `st`. -/
def Port.detected (p : Port) (st : StoreState) : Port :=
  if p.state = .down ∧ p.signal = true ∧ st = .ready then { p.woken with state := .waking, reason := none } else p

theorem State.detect_eq (s : State) (l : Fin 12) :
    ∃ h, s.detect l = s.onPort l ((s.port l).detected s.store.state) h ∧ HostLink.Noted .linkState s.host h := by
  unfold Port.detected
  split
  · next found =>
    obtain ⟨down, signal, ready⟩ := found
    rw [State.detect_of down signal ready, State.modPort_eq_onPort, State.setPortState_eq, State.onPort_onPort, State.onPort_port_self,
      State.onPort_host]
    refine ⟨_, rfl, ?_⟩
    unfold HostLink.told
    split
    · exact .refl _ _
    · exact .raise _ _ _
  · next still =>
    have stays : s.detect l = s := if_neg still
    exact ⟨s.host, stays.trans (s.onPort_self l).symm, .refl _ _⟩

/-- R3. After the detections over all links. -/
structure State.Detected (s t : State) : Prop where
  side : PortSide s t
  port : ∀ l, t.port l = (s.port l).detected s.store.state
  noted : HostLink.Noted .linkState s.host t.host

theorem State.detected (s : State) : s.Detected (allLinks.foldl State.detect s) where
  side := PortSide.foldl (fun s l => .detect s l) _ _
  port := by
    refine foldl_allLinks_port (P := fun t => t.store.state = s.store.state) (f := State.detect) (g := (Port.detected · s.store.state))
      (fun t l h => ?_) (fun t l h => ?_) (fun t l j _ hj => ?_) rfl
    · exact (congrArg StoreCtl.state (PortSide.detect t l).store).trans h
    · obtain ⟨_, e, -⟩ := t.detect_eq l
      rw [e, State.onPort_port_self, h]
    · obtain ⟨_, e, -⟩ := t.detect_eq l
      rw [e, State.onPort_port_ne _ _ _ _ hj]
  noted := by
    generalize allLinks = links
    induction links generalizing s with
    | nil => exact .refl _ _
    | cons l links ih =>
      obtain ⟨h, e, noted⟩ := s.detect_eq l
      rw [List.foldl_cons]
      refine HostLink.Noted.trans ?_ (ih _)
      rw [e]
      exact noted

theorem PortSide.linkFrame {s t : State} (h : PortSide s t) : s.LinkFrame t :=
  (congrArg (fun x : State => ({ x with canvas := s.canvas, drain := s.drain, store := s.store, place := s.place } : State)) h.rest :)

/-! ## Entry to READY -/

/-- The store once READY is entered, with its notice raised and a zeroing job claimed (R165). -/
def State.readied (s : State) (wake : Bool) : State :=
  let s := { s with store := { s.store with state := .ready, interval := true } }
  let s := s.raise .ready (code8 wake.toNat ++ code8 s.store.owed)
  if s.store.zeroQueue = [] then s else s.claim .zeroing

theorem State.enterReady_eq (s : State) (wake : Bool) :
    s.enterReady wake = (allLinks.foldl State.detect (s.readied wake).grant).settle := rfl

theorem State.readied_store (s : State) (wake : Bool) : ∃ waiting, (s.readied wake).store =
    { s.store with state := .ready, interval := true, waiting := waiting } := by
  unfold State.readied
  dsimp only
  split
  · exact ⟨_, rfl⟩
  · show ∃ waiting, StoreCtl.claim _ _ = _
    unfold StoreCtl.claim
    split <;> exact ⟨_, rfl⟩

theorem State.readied_rest (s : State) (wake : Bool) :
    { s.readied wake with store := s.store, host := s.host } = s := by
  unfold State.readied
  dsimp only
  split <;> rfl

theorem State.readied_host (s : State) (wake : Bool) :
    (s.readied wake).host = s.host.raise .ready (code8 wake.toNat ++ code8 s.store.owed) := by
  unfold State.readied
  dsimp only
  split <;> rfl

theorem State.readied_holds (s : State) (wake : Bool) (jobs : s.store.zeroQueue ≠ []) : (s.readied wake).holdsClaim .zeroing = true := by
  unfold State.readied
  dsimp only
  rw [if_neg (by exact jobs)]
  exact State.holdsClaim_claim_self _ _

/-- The drain's taking of a cell drops no claim. -/
theorem State.holdsClaim_drainTake {s : State} {c : Claim} (held : s.holdsClaim c = true) : s.drainTake.holdsClaim c = true := by
  unfold State.drainTake
  split
  · split
    · unfold State.drainCell
      refine State.holdsClaim_claim.2 (.inr ?_)
      split <;> exact held
    · exact held
  · exact held

theorem State.holdsClaim_settle {s : State} {c : Claim} (held : s.holdsClaim c = true) : s.settle.holdsClaim c = true :=
  State.holdsClaim_grant _ (State.holdsClaim_drainTake held)

/-- R165. What entry to READY makes of the part. -/
theorem State.enterReady_spec (s : State) (wake : Bool) :
    let u := s.enterReady wake
    u.store.state = .ready ∧ u.store.interval = true ∧ u.store.owed = s.store.owed ∧ u.store.late = s.store.late
      ∧ (s.store.zeroQueue ≠ [] → u.holdsClaim .zeroing = true)
      ∧ (∀ l, u.port l = (s.port l).detected .ready)
      ∧ (s.host.masked .ready = false → s.host.notices = [] →
          u.host.notices.head? = some { kind := .ready, content := code8 wake.toNat ++ code8 s.store.owed, folded := 1 })
      ∧ s.LinkFrame u ∧ u.host.requests = s.host.requests := by
  intro u
  obtain ⟨waiting, store⟩ := s.readied_store wake
  have detections := (s.readied wake).grant.detected
  have keeps : Cascade (s.readied wake) u := (Cascade.grant _).trans ((Cascade.foldl _ .detect allLinks _).trans (.settle _))
  have granted : (s.readied wake).grant.store.state = .ready := by
    rw [(Cascade.grant _).storeState, store]
  have settled : u = (allLinks.foldl State.detect (s.readied wake).grant).settle := s.enterReady_eq wake
  have frame : s.LinkFrame (s.readied wake) :=
    (congrArg (fun x : State => ({ x with ports := s.ports, canvas := s.canvas, drain := s.drain, place := s.place } : State))
      (s.readied_rest wake) :)
  refine ⟨?_, ?_, ?_, ?_, fun jobs => ?_, fun l => ?_, fun unmasked empty => ?_, ?_, ?_⟩
  · rw [keeps.storeState, store]
  · rw [keeps.interval, store]
  · rw [keeps.owed, store]
  · rw [keeps.late, store]
  · rw [settled]
    refine State.holdsClaim_settle ?_
    rw [State.holdsClaim, detections.side.store]
    exact State.holdsClaim_grant _ (s.readied_holds wake jobs)
  · have same : (s.readied wake).grant.port l = s.port l := by
      rw [State.port, (Settled.grant _).ports, (congrArg State.ports (s.readied_rest wake) :)]
      rfl
    rw [settled, (Settled.settle _).port, detections.port, granted, same]
  · rw [settled, (Settled.settle _).host]
    refine detections.noted.head ?_
    rw [(Settled.grant _).host, s.readied_host wake]
    exact HostLink.raise_head _ unmasked empty
  · have after : (s.readied wake).grant.LinkFrame u := by
      rw [settled]
      exact detections.side.linkFrame.trans (Settled.settle _).linkFrame
    exact (frame.trans (Settled.grant _).linkFrame).trans after
  · rw [keeps.requests, s.readied_host wake, HostLink.raise_requests]

/-- Settles O54: initialisation and wake enter READY. -/
theorem storeBecomesReady : Obligations.StoreBecomesReady := by
  intro s idle ready
  have entered : ∀ (c : Instr) (wake : Bool), exec c s = .next (s.enterReady wake).pump → ready c wake.toNat := fun c wake ran => by
    obtain ⟨state, interval, owed, late, jobs, ports, notice, frame, requests⟩ := s.enterReady_spec wake
    refine ⟨s.enterReady wake, ran.trans (congrArg _ (State.pump_idle _ (requests.trans idle))), state, interval, owed, late, jobs,
      fun l => (ports l).trans ?_, notice, frame⟩
    exact if_congr ⟨fun h => ⟨h.1, h.2.1⟩, fun h => ⟨h.1, h.2, rfl⟩⟩ rfl rfl
  refine ⟨fun starting => entered .initComplete false ?_, fun waking => entered .wakeComplete true ?_⟩
  · show Host.Outcome.next s.initDone.pump = _
    rw [State.initDone, if_pos starting]
  · show Host.Outcome.next s.wakeDone.pump = _
    rw [State.wakeDone, if_pos waking]

end Sys2Proof.Machine
end

section
/-!
PROOF. The general clear (R22, R55, R77, R94, R127, R149, R163, R173, R185).
-/

namespace Sys2Proof.Machine

/-! ## The commands that clear -/

/-- A request the store's state lets through and its owner leaves unanswered. -/
theorem exec_of_passed_pending {c : Instr} {tag : Byte} (r : Request) {s t : State} (idle : s.host.requests = [])
    (free : s.host.handlerFree = true) (passed : s.store.state.refusal r.kind = none)
    (owner : s.owner tag r = (t, none)) (requests : t.host.requests = [])
    (command : requestOf c = some (tag, r) := by rfl) (named : ∀ k, r ≠ .unknown k := by nofun) :
    exec c s = .next t.outboundGrant := by
  have served : s.serve tag r = t := by
    rw [State.serve, State.reply_of_passed tag named passed, owner]
  rw [exec_arrive command named s, s.arrive_served tag r idle free (by rw [served]; exact requests), served]

/-- A request the store's state refuses. -/
theorem exec_of_shut {c : Instr} {tag : Byte} (r : Request) {s : State} {why : RefuseReason} (idle : s.host.requests = [])
    (free : s.host.handlerFree = true) (refused : s.store.state.refusal r.kind = some why)
    (command : requestOf c = some (tag, r) := by rfl) (named : ∀ k, r ≠ .unknown k := by nofun) :
    exec c s = .next (s.turnedAway tag r.kind why) := by
  have served : s.serve tag r = s.queueAnswer tag r.kind (.refused why) := by
    rw [State.serve, State.reply_of_refused tag named refused]
    rfl
  rw [exec_arrive command named s, s.arrive_served tag r idle free (by rw [served]; exact idle), served]
  rfl

theorem State.generalClear_requests {s : State} (tag : Option Byte) (idle : s.host.requests = []) :
    (s.generalClear tag).host.requests = [] := (Cascade.generalClear s tag).requests.trans idle

theorem exec_clearSequence {s : State} (idle : s.host.requests = []) : exec .clearSequence s
    = .next (State.outboundGrant (State.generalClear { s with host := { s.host with rx := .hunting } } none)) :=
  congrArg Host.Outcome.next (State.pump_idle _ (State.generalClear_requests none idle))

/-- The receiver with some clear-sequence pairs counted (R176). -/
def Receiver.paired (n : Nat) : Receiver := { Receiver.hunting with pairs := n }

/-- R176. A pair 7Dh C1h, but for the fourth, is counted. -/
theorem State.rxBytes_pair (s : State) {n : Nat} (few : n + 1 ≠ 4) (rest : List Byte) :
    (s.receiving (.paired n)).rxBytes (0x7D :: 0xC1 :: rest) = (s.receiving (.paired (n + 1))).rxBytes rest := by
  have held : (Receiver.paired n).byte 0x7D = ({ Receiver.paired n with escaped := true }, none) := rfl
  have counted : ({ Receiver.paired n with escaped := true } : Receiver).byte 0xC1 = (.paired (n + 1), none) := by
    rw [Receiver.byte, if_pos rfl, Receiver.escapedByte, if_pos rfl, Receiver.addPair]
    exact if_neg few
  rw [State.rxBytes_cons, s.rxByte_quiet held, State.rxBytes_cons, s.rxByte_quiet counted]

/-- R176. The fourth pair makes the clear sequence. -/
theorem State.rxBytes_lastPair (s : State) :
    (s.receiving (.paired 3)).rxBytes [0x7D, 0xC1] = ((s.receiving .hunting).generalClear none).pump := by
  have held : (Receiver.paired 3).byte 0x7D = ({ Receiver.paired 3 with escaped := true }, none) := rfl
  have counted : ({ Receiver.paired 3 with escaped := true } : Receiver).byte 0xC1 = (.hunting, some .clearSequence) := rfl
  rw [State.rxBytes_cons, s.rxByte_quiet held, State.rxBytes_singleton, s.rxByte_event counted]
  rfl

theorem exec_fourPairs {s : State} (hunting : s.host.rx = .hunting) :
    exec (.hostFrame [0x7D, 0xC1, 0x7D, 0xC1, 0x7D, 0xC1, 0x7D, 0xC1]) s = exec .clearSequence s := by
  have begins : s = s.receiving (.paired 0) := by
    show s = { s with host := { s.host with rx := Receiver.hunting } }
    rw [← hunting]
  show Host.Outcome.next (s.rxBytes _) = .next (State.generalClear (s.receiving .hunting) none).pump
  conv_lhs => rw [begins]
  rw [State.rxBytes_pair _ (by decide), State.rxBytes_pair _ (by decide), State.rxBytes_pair _ (by decide), State.rxBytes_lastPair]

/-! ## What a general clear leaves -/

section
variable (s : State)

theorem State.clearBlocks_port (l : Fin 12) : s.clearBlocks.port l = (s.port l).clear := by
  simp [State.port, State.clearBlocks]

theorem State.clearBlocks_segCal (g : Fin 96) : s.clearBlocks.segCal g = (s.segCal g).clear := by
  simp [State.segCal, State.clearBlocks]

theorem State.clearBlocks_flat (i : Fin 24) : s.clearBlocks.flat i = (s.flat i).clear := by
  simp [State.flat, State.clearBlocks]

variable (source : Option Byte)

/-- A general clear is the blocks' parts, CLEAR_DONE, the detections, and the grant. -/
theorem State.generalClear_steps : ∃ u, s.generalClear source = u.grant
    ∧ (s.clearBlocks.raise .clearDone (clearContent source s.clearBlocks.store.state)).Detected u := ⟨_, rfl, State.detected _⟩

/-- What a general clear leaves of the blocks' own parts. -/
theorem State.generalClear_rest :
    { s.generalClear source with ports := s.clearBlocks.ports, host := s.clearBlocks.host, store := s.clearBlocks.store
                                 place := s.clearBlocks.place } = s.clearBlocks := by
  obtain ⟨u, e, after⟩ := s.generalClear_steps source
  have side := (PortSide.raise ..).trans after.side
  have granted := u.grant_rest
  rw [e]
  generalize s.clearBlocks = b at side ⊢
  have both := congrArg (fun x : State => ({ x with ports := b.ports, host := b.host, store := b.store, place := b.place } : State))
    granted
  exact (both :).trans (congrArg (fun x : State => ({ x with store := b.store, place := b.place } : State)) side.rest :)

theorem State.generalClear_store : (s.generalClear source).store = s.clearBlocks.store.grant := by
  obtain ⟨u, e, after⟩ := s.generalClear_steps source
  rw [e, State.grant_store, after.side.store]
  rfl

theorem State.generalClear_place : (s.generalClear source).place = none := by
  obtain ⟨u, e, after⟩ := s.generalClear_steps source
  have place := congrArg State.place after.side.rest
  rw [e]
  exact u.grant_place_none place

theorem State.generalClear_port (l : Fin 12) :
    (s.generalClear source).port l = ((s.port l).clear).detected s.clearBlocks.store.state := by
  obtain ⟨u, e, after⟩ := s.generalClear_steps source
  rw [e, (Settled.grant _).port, after.port, ← s.clearBlocks_port l]
  generalize s.clearBlocks = b
  rfl

/-- CLEAR_DONE heads the queue a general clear has emptied, or is its kind's pending entry. -/
theorem State.generalClear_notice : HostLink.Noted .linkState
    (s.clearBlocks.host.raise .clearDone (clearContent source s.clearBlocks.store.state)) (s.generalClear source).host := by
  obtain ⟨u, e, after⟩ := s.generalClear_steps source
  rw [e, (Settled.grant _).host]
  exact after.noted

theorem State.clearBlocks_ready : s.clearBlocks.store.state = .ready ↔ s.store.state = .ready := by
  show (if s.store.state = .parked then StoreState.waking else s.store.state) = .ready ↔ _
  split
  · next parked =>
    rw [parked]
    exact ⟨nofun, nofun⟩
  · rfl

end

/-- R22, R3. The port after a general clear and the detection that follows it. -/
theorem Port.clear_detected (p : Port) (st : StoreState) :
    let q := p.clear.detected st
    q.state = (if p.state = .off then .off else if p.signal = true ∧ st = .ready then .waking else .down)
      ∧ q.reason = none ∧ q.goodRun = 0 ∧ q.badRun = 0 ∧ q.buffer = [] ∧ q.ctx = none ∧ q.hkPart = [] ∧ q.hk = none
      ∧ q.good = 0 ∧ q.bad = 0 ∧ q.stale = 0 ∧ q.overflow = 0 ∧ q.capture = none ∧ q.cfg = p.cfg ∧ q.tap = p.tap
      ∧ q.relay.phase = .idle ∧ q.relay.number = 0 ∧ q.relay.acked = 0 ∧ q.relay.reply = [] ∧ q.relay.abortOwed = false := by
  intro q
  have state : p.clear.state = if p.state = .off then .off else .down := rfl
  have signal : p.clear.signal = p.signal := rfl
  by_cases found : p.clear.state = .down ∧ p.clear.signal = true ∧ st = .ready
  · have e : q = { p.clear.woken with state := .waking, reason := none } := if_pos found
    rw [e]
    refine ⟨?_, rfl, rfl, rfl, rfl, rfl, rfl, rfl, rfl, rfl, rfl, rfl, rfl, rfl, rfl, rfl, rfl, rfl, rfl, rfl⟩
    obtain ⟨down, lit, ready⟩ := found
    have on : p.state ≠ .off := fun off => by
      rw [state, if_pos off] at down
      cases down
    rw [if_neg on, if_pos ⟨lit, ready⟩]
  · have e : q = p.clear := if_neg found
    rw [e]
    refine ⟨?_, rfl, rfl, rfl, rfl, rfl, rfl, rfl, rfl, rfl, rfl, rfl, rfl, rfl, rfl, rfl, rfl, rfl, rfl, rfl⟩
    rw [state]
    split
    · rfl
    · next on =>
      exact (if_neg fun lit => found ⟨state.trans (if_neg on), lit⟩).symm

/-- R173. The cleared controller grants a refresh, where one is owed, and nothing else. -/
theorem StoreCtl.clear_grant (st : StoreCtl) :
    let u := st.clear.grant
    u.zeroQueue = [] ∧ u.waiting = [] ∧ u.rotation = [.zeroing, .placement, .drain, .flat, .box]
      ∧ u.access = (if st.access = some .refresh ∨ (st.state = .ready ∧ 0 < st.owed) then some .refresh else none) := by
  intro u
  have access : st.clear.access = if st.access = some .refresh then some .refresh else none := rfl
  have ready : st.clear.state = .ready ↔ st.state = .ready := by
    show (if st.state = .parked then StoreState.waking else st.state) = .ready ↔ _
    split
    · next parked =>
      rw [parked]
      exact ⟨nofun, nofun⟩
    · rfl
  have chosen : st.clear.choose = if 0 < st.owed then some (.refresh, st.clear.rotation) else none := StoreCtl.choose_of_empty rfl
  by_cases flight : st.access = some .refresh
  · have still : u = st.clear := StoreCtl.grant_of_shut fun h => by
      rw [access, if_pos flight] at h
      cases h.2
    rw [still]
    exact ⟨rfl, rfl, rfl, (access.trans (if_pos flight)).trans (if_pos (.inl flight)).symm⟩
  · have free : st.clear.access = none := access.trans (if_neg flight)
    by_cases due : st.state = .ready ∧ 0 < st.owed
    · have granted : u = st.clear.granted .refresh st.clear.rotation :=
        StoreCtl.grant_of (ready.2 due.1) free (chosen.trans (if_pos due.2))
      rw [granted]
      exact ⟨rfl, rfl, rfl, (if_pos (.inr due)).symm⟩
    · have still : u = st.clear := by
        by_cases open_ : st.state = .ready
        · exact StoreCtl.grant_of_none (chosen.trans (if_neg fun owed => due ⟨open_, owed⟩))
        · exact StoreCtl.grant_of_shut fun h => open_ (ready.1 h.1)
      rw [still]
      exact ⟨rfl, rfl, rfl, free.trans (if_neg (not_or.2 ⟨flight, due⟩)).symm⟩

theorem HostLink.clear_pendingOf (h : HostLink) (k : NoticeKind) : h.clear.pendingOf k = none := by
  simp [HostLink.pendingOf, HostLink.clear]

theorem clearContent_eq (source : Option Byte) (st : StoreState) :
    clearContent source st = (match source with | some tag => [0, 1, tag] | none => [1, 0]) ++ code8 st.code := by
  cases source <;> rfl

/-- The parts of the state `t` that a general clear makes of `s`. -/
structure State.Cleared (s : State) (source : Option Byte) (t : State) : Prop where
  rest : { t with ports := s.clearBlocks.ports, host := s.clearBlocks.host, store := s.clearBlocks.store
                  place := s.clearBlocks.place } = s.clearBlocks
  store : t.store = s.store.clear.grant
  place : t.place = none
  port : ∀ l, t.port l = ((s.port l).clear).detected s.clearBlocks.store.state
  noted : HostLink.Noted .linkState (s.host.clear.raise .clearDone (clearContent source s.clearBlocks.store.state)) t.host
  keeps : Cascade s.clearBlocks t

theorem State.generalClear_cleared (s : State) (source : Option Byte) : s.Cleared source (s.generalClear source) where
  rest := s.generalClear_rest source
  store := s.generalClear_store source
  place := s.generalClear_place source
  port := s.generalClear_port source
  noted := s.generalClear_notice source
  keeps := Cascade.generalClear s source

section
variable {s t : State} {source : Option Byte} (cleared : s.Cleared source t)
include cleared

theorem State.Cleared.blocks : (∀ k, (t.slot k).state = .free) ∧ t.carry = 4096 ∧ (∀ n, (t.tile n).state = .free) ∧ t.tiles.queue = []
    ∧ t.tiles.holdCounter = 0 ∧ t.canvas = .idle ∧ t.drain = .reset ∧ t.mem = s.mem := by
  have slots : t.slots = State.reset.slots := (congrArg State.slots cleared.rest :)
  have tiles : t.tiles = State.reset.tiles := (congrArg State.tiles cleared.rest :)
  refine ⟨fun k => ?_, (congrArg State.carry cleared.rest :), fun n => ?_, ?_, ?_, (congrArg State.canvas cleared.rest :),
    (congrArg State.drain cleared.rest :), (congrArg State.mem cleared.rest :)⟩
  · rw [State.slot, slots]
    simp [State.reset, ExpSlot.empty]
  · rw [State.tile, tiles]
    simp [State.reset, Tile.empty]
  · rw [tiles]
    rfl
  · rw [tiles]
    rfl

theorem State.Cleared.calibration : (∀ g, t.segCal g = { s.segCal g with active := none, armed := false })
    ∧ (∀ i, t.flat i = (s.flat i).clear) := by
  have cal : t.cal = s.clearBlocks.cal := (congrArg State.cal cleared.rest :)
  have flats : t.flats = s.clearBlocks.flats := (congrArg State.flats cleared.rest :)
  refine ⟨fun g => ?_, fun i => ?_⟩
  · rw [State.segCal, cal]
    exact s.clearBlocks_segCal g
  · rw [State.flat, flats]
    exact s.clearBlocks_flat i

theorem State.Cleared.storeState : t.store.state = if s.store.state = .parked then .waking else s.store.state :=
  cleared.keeps.storeState

theorem State.Cleared.hostLink : t.host.lineErrors = 0 ∧ t.host.requests = s.host.requests ∧ t.host.job = none ∧ t.host.answers = []
    ∧ t.host.mask = s.host.mask ∧ t.host.line = s.host.line ∧ t.host.rx = s.host.rx
    ∧ ∀ x, t.host.source x = { cls := 1, waits := [] } := by
  refine ⟨cleared.keeps.lineErrors, cleared.keeps.requests, cleared.keeps.job, cleared.keeps.answers, cleared.keeps.mask,
    cleared.keeps.line, cleared.keeps.rx, fun x => (cleared.keeps.sources x).trans ?_⟩
  cases x <;> rfl

/-- CLEAR_DONE heads the emptied queue where its kind is unmasked, and else is its kind's pending entry. -/
theorem State.Cleared.notice {content : List Byte} (said : clearContent source t.store.state = content) :
    (s.host.masked .clearDone = false → t.host.notices.head? = some { kind := .clearDone, content := content, folded := 1 })
    ∧ (s.host.masked .clearDone = true → t.host.pendingOf .clearDone = some { content := content, folded := 1 }) := by
  have noted := cleared.noted
  rw [← cleared.keeps.storeState, said] at noted
  refine ⟨fun unmasked => noted.head (HostLink.raise_head content unmasked rfl), fun masked => ?_⟩
  rw [noted.pending .clearDone (by decide)]
  exact HostLink.raise_pendingOf content masked (s.host.clear_pendingOf _)

end

/-- Settles O56: the commands that clear, and every block after a general clear. -/
theorem generalClearResetsEveryBlock : Obligations.GeneralClearResetsEveryBlock := by
  refine ⟨fun s tag idle => ⟨fun free open_ => ?_, fun free shut => ?_, exec_clearSequence idle, exec_fourPairs⟩, fun s source => ?_⟩
  · have passed : s.store.state.refusal Request.clear.kind = none := by rcases open_ with e | e <;> rw [e] <;> rfl
    exact exec_of_passed_pending .clear idle free passed rfl (State.generalClear_requests _ idle)
  · have refused : s.store.state.refusal Request.clear.kind = some .notReady := by rcases shut with e | e <;> rw [e] <;> rfl
    exact exec_of_shut .clear idle free refused
  · intro t content
    have cleared : s.Cleared source t := s.generalClear_cleared source
    clear_value t
    obtain ⟨slots, carry, tiles, queue, counter, canvas, drain, mem⟩ := cleared.blocks
    obtain ⟨segCal, flat⟩ := cleared.calibration
    obtain ⟨lineErrors, requests, job, answers, mask, line, rx, sources⟩ := cleared.hostLink
    obtain ⟨zeroQueue, waiting, rotation, access⟩ := s.store.clear_grant
    rw [← cleared.store] at zeroQueue waiting rotation access
    obtain ⟨head, pending⟩ := cleared.notice (content := content) (clearContent_eq source t.store.state)
    refine ⟨fun l => ?_, segCal, fun i other => (flat i).trans (if_neg other), fun i loading => ?_, slots, carry, tiles, queue, counter,
      cleared.place, canvas, by rw [drain]; rfl, by rw [drain]; rfl, by rw [drain]; rfl, mem, cleared.storeState, cleared.keeps.owed,
      cleared.keeps.late, zeroQueue, waiting, rotation, access, lineErrors, requests, job, answers, mask, line, rx, sources, head,
      pending⟩
    · rw [cleared.port l]
      obtain ⟨state, others⟩ := (s.port l).clear_detected s.clearBlocks.store.state
      refine ⟨state.trans ?_, others⟩
      rw [if_congr (and_congr_right fun _ => s.clearBlocks_ready) rfl rfl]
    · rw [flat i, FlatEntry.clear, if_pos loading]
      rfl

end Sys2Proof.Machine
end

section
/-!
PROOF. PARK and UNPARK (R171, R172), and the zeroing of a cell (R134, R170).
-/

namespace Sys2Proof.Machine

/-! ## PARK -/

section
variable {s : State} {l : Fin 12} (st : PortState) (cause : LinkCause) (o : RelayOutcome) (f : Port → Port)

/-- The end of a link with no open tile: one port, the host link and the link's row write claim. -/
theorem State.loseLink_of_bare (bare : s.openTiles l = []) :
    ∃ h, s.loseLink l st cause o f = (s.withdraw (.intake l)).onPort l (f ((s.port l).lost st)) h := by
  obtain ⟨h, e⟩ := s.loseLink_eq l st cause o f
  have closed : (s.unbuffered l st cause).closeTiles l true = s.unbuffered l st cause := by
    rw [State.closeTiles, (TilesSame.unbuffered s l st cause).openTiles, bare]
    rfl
  rw [closed, State.unbuffered_eq] at e
  refine ⟨h, e.trans ?_⟩
  exact State.onPort_onPort (s.withdraw (.intake l)) l _ _ _ _

end

/-- What the ends of links without open tiles change: the ports, the host link and the row write claims. -/
structure State.Unlinked (s t : State) : Prop where
  rest : { t with ports := s.ports, host := s.host, store := s.store } = s
  store : { t.store with waiting := s.store.waiting, access := s.store.access } = s.store
  claims : ∀ c, t.holdsClaim c = true → s.holdsClaim c = true

theorem State.Unlinked.refl (s : State) : s.Unlinked s := ⟨rfl, rfl, fun _ h => h⟩

theorem State.Unlinked.trans {s t u : State} (a : s.Unlinked t) (b : t.Unlinked u) : s.Unlinked u where
  rest := (congrArg (fun x : State => ({ x with ports := s.ports, host := s.host, store := s.store } : State)) b.rest).trans a.rest
  store := (congrArg (fun x : StoreCtl => ({ x with waiting := s.store.waiting, access := s.store.access } : StoreCtl))
    b.store).trans a.store
  claims c h := a.claims c (b.claims c h)

theorem State.Unlinked.tilesSame {s t : State} (h : s.Unlinked t) : TilesSame s t :=
  ⟨(congrArg State.tiles h.rest :), (congrArg State.slots h.rest :), (congrArg State.measuring h.rest :)⟩

theorem State.Unlinked.withdraw (s : State) (c : Claim) : s.Unlinked (s.withdraw c) := by
  refine ⟨rfl, rfl, fun d h => ?_⟩
  by_cases same : d = c
  · subst same
    rw [s.not_holdsClaim_withdraw d] at h
    cases h
  · rwa [State.holdsClaim_withdraw same] at h

theorem State.Unlinked.onPort (s : State) (l : Fin 12) (p : Port) (h : HostLink) : s.Unlinked (s.onPort l p h) := ⟨rfl, rfl, fun _ h => h⟩

theorem State.openTiles_of_free {s : State} (free : ∀ n, (s.tile n).state = .free) (l : Fin 12) : s.openTiles l = [] := by
  refine List.eq_nil_iff_forall_not_mem.2 fun n mem => ?_
  obtain ⟨filling, -⟩ := State.openTiles_spec mem
  rw [free n] at filling
  cases filling

theorem State.Unlinked.parkPort {s : State} (free : ∀ n, (s.tile n).state = .free) (l : Fin 12) : s.Unlinked (s.parkPort l) := by
  unfold State.parkPort
  split
  · exact .refl s
  · obtain ⟨h, e⟩ := State.loseLink_of_bare .down .park .linkLost Port.dropped (State.openTiles_of_free free l)
    rw [e]
    exact (Unlinked.withdraw s _).trans (.onPort _ l _ h)

theorem State.Unlinked.parkPorts : ∀ (links : List (Fin 12)) {s : State}, (∀ n, (s.tile n).state = .free) →
    s.Unlinked (links.foldl State.parkPort s)
  | [], s, _ => .refl s
  | l :: links, s, free => by
    have first := State.Unlinked.parkPort free l
    exact first.trans (State.Unlinked.parkPorts links fun n => by rw [first.tilesSame.tile]; exact free n)

/-- R21. The port after PARK. -/
def Port.parked (p : Port) : Port := if p.state = .off then p else (p.lost .down).dropped

theorem State.parkPort_port_self (s : State) (l : Fin 12) : (s.parkPort l).port l = (s.port l).parked := by
  unfold State.parkPort Port.parked
  split
  · rfl
  · exact s.loseLink_port_self ..

theorem State.parkPort_port_ne (s : State) {l j : Fin 12} (other : j ≠ l) : (s.parkPort l).port j = s.port j := by
  unfold State.parkPort
  split
  · rfl
  · exact s.loseLink_port_ne _ _ _ _ _ other

theorem State.parkPorts_port (s : State) (l : Fin 12) : (allLinks.foldl State.parkPort s).port l = (s.port l).parked :=
  foldl_allLinks_port (P := fun _ => True) (f := State.parkPort) (fun _ _ _ => trivial) (fun t j _ => t.parkPort_port_self j)
    (fun t _ _ _ other => t.parkPort_port_ne other) trivial l

theorem State.parkBusy_iff {s : State} : s.parkBusy = true ↔ (∃ k, (s.slot k).state ≠ .free) ∨ (∃ n, (s.tile n).state ≠ .free)
    ∨ (∃ c ∈ s.canvas.cells, c.state = .draining) ∨ (∃ i, (s.flat i).state = .loading) ∨ s.drain.state ≠ .idle := by
  simp only [State.parkBusy, Bool.or_eq_true, List.any_eq_true, decide_eq_true_eq, allSlots, allTiles, allFlats, List.mem_finRange,
    true_and, or_assoc]

/-- R171. The state PARK leaves before the ports go down. -/
def State.shutStore (s : State) : State :=
  let u := (s.withdraw .zeroing).withdraw .refresh
  { u with store := { u.store with state := .parked, interval := false } }

theorem State.shutStore_holds (s : State) : s.shutStore.holdsClaim .zeroing = false ∧ s.shutStore.holdsClaim .refresh = false := by
  have zeroing : ((s.withdraw .zeroing).withdraw .refresh).holdsClaim .zeroing = false := by
    rw [State.holdsClaim_withdraw (by decide)]
    exact s.not_holdsClaim_withdraw _
  exact ⟨zeroing, State.not_holdsClaim_withdraw _ _⟩

theorem exec_park_of_busy {s : State} (tag : Byte) (hs : s.Ready) (busy : s.parkBusy = true) :
    exec (.park tag) s = .next (s.turnedAway tag 0x1F .busy) := exec_of_refused .park hs (if_pos busy)

theorem exec_park_of_free {s : State} (tag : Byte) (hs : s.Ready) (free : ¬s.parkBusy = true) :
    exec (.park tag) s = .next (State.answered (allLinks.foldl State.parkPort s.shutStore) tag 0x1F []) := by
  refine exec_of_done .park hs (if_neg free) ?_
  rw [(Cascade.foldl State.parkPort Cascade.parkPort allLinks _).requests]
  exact hs.2.1

/-- Settles O55: PARK refused and accepted, and UNPARK. -/
theorem parkAndUnpark : Obligations.ParkAndUnpark := by
  intro s tag busy
  refine ⟨fun hs held => exec_park_of_busy tag hs (State.parkBusy_iff.2 held), fun hs free => ?_, fun idle free parked => ?_, fun hs => ?_⟩
  · have tiles : ∀ n, (s.shutStore.tile n).state = .free := fun n => by
      by_contra used
      exact free (.inr (.inl ⟨n, used⟩))
    have ended := State.Unlinked.parkPorts allLinks tiles
    have ports := s.shutStore.parkPorts_port
    have answered := exec_park_of_free tag hs (mt State.parkBusy_iff.1 free)
    generalize allLinks.foldl State.parkPort s.shutStore = u at ended ports answered
    obtain ⟨zeroing, refresh⟩ := s.shutStore_holds
    have claims : ∀ c, s.shutStore.holdsClaim c = false → u.holdsClaim c = false := fun c absent =>
      Bool.eq_false_iff.2 fun held => Bool.eq_false_iff.1 absent (ended.claims c held)
    refine ⟨u, answered, (congrArg StoreCtl.state ended.store :), (congrArg StoreCtl.interval ended.store :),
      (congrArg StoreCtl.owed ended.store :), (congrArg StoreCtl.zeroQueue ended.store :), claims _ zeroing, claims _ refresh,
      fun l off => (ports l).trans (if_pos off), fun l on => ?_, (congrArg State.canvas ended.rest :), (congrArg State.drain ended.rest :),
      (congrArg State.slots ended.rest :), (congrArg State.tiles ended.rest :), (congrArg State.cal ended.rest :),
      (congrArg State.flats ended.rest :), (congrArg State.mem ended.rest :)⟩
    have port : u.port l = ((s.port l).lost .down).dropped := (ports l).trans (if_neg on)
    rw [port]
    exact ⟨rfl, rfl, rfl, rfl, rfl, (s.port l).relay.cut_phase, rfl, rfl, rfl⟩
  · have passed : s.store.state.refusal Request.unpark.kind = none := by rw [parked]; rfl
    exact exec_of_passed .unpark idle free passed (if_pos parked) idle
  · refine exec_of_refused .unpark hs (if_neg fun parked => ?_)
    rw [hs.1] at parked
    cases parked

end Sys2Proof.Machine
end

section
/-!
PROOF. The zeroing of a cell (R134, R170), and the end of a wait on it (R117).
-/

namespace Sys2Proof.Machine

/-! ## The zeroing queue -/

@[simp] theorem StoreCtl.claim_zeroQueue (st : StoreCtl) (c : Claim) : (st.claim c).zeroQueue = st.zeroQueue := by
  unfold StoreCtl.claim
  split <;> rfl

@[simp] theorem StoreCtl.grant_zeroQueue (st : StoreCtl) : st.grant.zeroQueue = st.zeroQueue := by
  rcases st.grant_spec with still | ⟨c, rotation, -, -, -, granted⟩
  · rw [still]
  · rw [granted]
    rfl

theorem State.claim_zeroQueue (s : State) (c : Claim) : (s.claim c).store.zeroQueue = s.store.zeroQueue := s.store.claim_zeroQueue c

theorem State.drainTake_zeroQueue (s : State) : s.drainTake.store.zeroQueue = s.store.zeroQueue := by
  unfold State.drainTake
  split
  · split
    · unfold State.drainCell
      refine (State.claim_zeroQueue _ _).trans ?_
      split <;> rfl
    · rfl
  · rfl

theorem State.settle_zeroQueue (s : State) : s.settle.store.zeroQueue = s.store.zeroQueue := by
  rw [State.settle, State.grant_store, StoreCtl.grant_zeroQueue, State.drainTake_zeroQueue]

theorem State.leaveWait_zeroQueue (s : State) (i : Nat) : (s.leaveWait i).store.zeroQueue = s.store.zeroQueue := by
  unfold State.leaveWait
  split
  · rfl
  · split
    · dsimp only
      split
      · exact State.claim_zeroQueue _ _
      · rfl
    · rfl

/-! ## Cells and the placement context after the drain's taking -/

/-- The drain's taking of a cell leaves each cell's zeroed mark. -/
theorem State.drainTake_zeroed {s : State} {i : Nat} {c : Cell} (cell : s.cell? i = some c) :
    ∃ e, s.drainTake.cell? i = some e ∧ e.zeroed = c.zeroed := by
  unfold State.drainTake
  split
  · split
    · next j _ =>
      cases taken : s.cell? j with
      | none =>
        have still : (s.drainCell j).canvas = s.canvas := by
          rw [State.drainCell, taken]
          rfl
        exact ⟨c, by rw [State.cell?, still]; exact cell, rfl⟩
      | some d =>
        rw [State.drainCell_of taken]
        show ∃ e, (s.canvas.cells.set j { d with state := .draining })[i]? = some e ∧ _
        rw [List.getElem?_set]
        have inside : j < s.canvas.cells.length := (List.getElem?_eq_some_iff.1 taken).1
        split
        · next same =>
          subst same
          obtain rfl : d = c := Option.some.inj (taken.symm.trans cell)
          exact ⟨_, rfl, rfl⟩
        · exact ⟨c, cell, rfl⟩
    · exact ⟨c, cell, rfl⟩
  · exact ⟨c, cell, rfl⟩

theorem State.settle_zeroed {s : State} {i : Nat} {c : Cell} (cell : s.cell? i = some c) :
    ∃ e, s.settle.cell? i = some e ∧ e.zeroed = c.zeroed := by
  obtain ⟨e, at_, zeroed⟩ := State.drainTake_zeroed cell
  refine ⟨e, ?_, zeroed⟩
  rw [State.settle, State.cell?, (State.grant_canvas_drain _).1]
  exact at_

theorem State.drainTake_place (s : State) : s.drainTake.place = s.place := by
  unfold State.drainTake
  split
  · split
    · unfold State.drainCell
      dsimp only
      split <;> rfl
    · rfl
  · rfl

/-- The end of an event changes at most the phase of the placement context. -/
theorem State.settle_place {s : State} {ctx : PlaceCtx} (place : s.place = some ctx) :
    ∃ phase, s.settle.place = some { ctx with phase := phase } :=
  ⟨_, State.grant_place_some _ ((s.drainTake_place).trans place)⟩

/-! ## The wait on a cell (R117) -/

theorem State.leaveWait_mem {s : State} {i : Nat} {ctx : PlaceCtx} (place : s.place = some ctx)
    (waiting : ctx.phase = .waitingZero) (mem : i ∈ ctx.waitSet) : s.leaveWait i =
      if (ctx.waitSet.filter fun j => decide (j ≠ i)) = [] then s.claimRow ctx
      else { s with place := some { ctx with waitSet := ctx.waitSet.filter fun j => decide (j ≠ i) } } := by
  rw [State.leaveWait, place]
  exact if_pos ⟨waiting, mem⟩

theorem State.leaveWait_of_absent {s : State} {i : Nat} {ctx : PlaceCtx} (place : s.place = some ctx) (absent : i ∉ ctx.waitSet) :
    s.leaveWait i = s := by
  rw [State.leaveWait, place]
  exact if_neg fun h => absent h.2

/-- A waiting row whose cell is zeroed waits on the others, and its access is claimed once there is none. -/
theorem State.leaveWait_place {s : State} {ctx : PlaceCtx} (i : Nat) (place : s.place = some ctx) (waiting : ctx.phase = .waitingZero) :
    ∃ e, (s.leaveWait i).place = some e ∧ e.tile = ctx.tile ∧ e.row = ctx.row
      ∧ (i ∈ ctx.waitSet → e.waitSet = ctx.waitSet.filter fun j => decide (j ≠ i))
      ∧ (ctx.waitSet = [i] → (s.leaveWait i).holdsClaim .placement = true) := by
  by_cases mem : i ∈ ctx.waitSet
  · rw [State.leaveWait_mem place waiting mem]
    split
    · next last => exact ⟨_, rfl, rfl, rfl, fun _ => last.symm, fun _ => State.holdsClaim_claim_self _ _⟩
    · next more =>
      refine ⟨_, rfl, rfl, rfl, fun _ => rfl, fun only => absurd ?_ more⟩
      rw [only]
      simp
  · rw [State.leaveWait_of_absent place mem]
    refine ⟨ctx, place, rfl, rfl, fun h => absurd h mem, fun only => absurd ?_ mem⟩
    rw [only]
    exact List.mem_singleton_self i

/-! ## ZEROING_DONE -/

section
variable (s : State) (i : Nat) (rest : List Nat)

/-- The part with the head job done, before the cell and the wait on it learn of it. -/
def State.jobDone : State :=
  { s.freeStore with mem := s.mem.zeroCell i, store := { s.freeStore.store with zeroQueue := rest } }

/-- The state a completed job leaves before its event settles. -/
def State.zeroedCell : State :=
  let y := ((s.jobDone i rest).cellZeroed i).leaveWait i
  if rest = [] then y else y.claim .zeroing

variable {s i rest}

theorem exec_zeroingDone (idle : s.host.requests = []) (access : s.store.access = some .zeroing) (queue : s.store.zeroQueue = i :: rest) :
    exec .zeroingDone s = .next (s.zeroedCell i rest).settle.outboundGrant := by
  have done : s.zeroed = (s.zeroedCell i rest).settle := by
    rw [State.zeroed, queue]
    rfl
  refine (if_pos access : execZeroingDone s = _).trans (congrArg Host.Outcome.next ?_)
  rw [done]
  refine State.settle_pump ?_
  have keeps := ((Cascade.cellZeroed (s.jobDone i rest) i).trans (.leaveWait _ i))
  unfold State.zeroedCell
  dsimp only
  split
  · exact keeps.requests.trans idle
  · exact ((keeps.trans (.claim _ _)).requests).trans idle

variable (s i rest)

theorem State.zeroedCell_side : CanvasSide (s.jobDone i rest) (s.zeroedCell i rest) := by
  unfold State.zeroedCell
  dsimp only
  split
  · exact (CanvasSide.cellZeroed _ i).trans (.leaveWait _ i)
  · exact ((CanvasSide.cellZeroed _ i).trans (.leaveWait _ i)).trans (.claim _ _)

theorem State.zeroedCell_cells : (s.zeroedCell i rest).canvas = ((s.jobDone i rest).cellZeroed i).canvas := by
  have wait := congrArg State.canvas (State.leaveWait_rest ((s.jobDone i rest).cellZeroed i) i)
  unfold State.zeroedCell
  dsimp only
  split
  · exact wait
  · exact wait

theorem State.cellZeroed_store (u : State) (i : Nat) : (u.cellZeroed i).store = u.store ∧ (u.cellZeroed i).place = u.place := by
  unfold State.cellZeroed
  split
  · exact ⟨rfl, rfl⟩
  · split <;> exact ⟨rfl, rfl⟩

theorem State.zeroedCell_zeroQueue : (s.zeroedCell i rest).store.zeroQueue = rest := by
  have wait := State.leaveWait_zeroQueue ((s.jobDone i rest).cellZeroed i) i
  rw [(State.cellZeroed_store _ i).1] at wait
  unfold State.zeroedCell
  dsimp only
  split
  · exact wait
  · exact (State.claim_zeroQueue _ _).trans wait

theorem State.zeroedCell_holds (c : Claim)
    (held : (((s.jobDone i rest).cellZeroed i).leaveWait i).holdsClaim c = true) : (s.zeroedCell i rest).holdsClaim c = true := by
  unfold State.zeroedCell
  dsimp only
  split
  · exact held
  · exact State.holdsClaim_claim.2 (.inr held)

/-- R134. A job's end marks its cell zeroed where the cell is PENDING or COMPLETE. -/
theorem State.cellZeroed_cell {u : State} {i : Nat} {c : Cell} (cell : u.cell? i = some c) :
    ∃ e, (u.cellZeroed i).cell? i = some e
      ∧ e.zeroed = if c.state = .pending ∨ c.state = .complete then true else c.zeroed := by
  rw [State.cellZeroed, cell]
  dsimp only
  have inside : i < u.canvas.cells.length := (List.getElem?_eq_some_iff.1 cell).1
  split
  · exact ⟨_, List.getElem?_set_self inside, rfl⟩
  · exact ⟨c, cell, rfl⟩

end

/-- Settles O52: the zeroed area, the mark, the queue and the wait. -/
theorem zeroingClearsTheHeadCell : Obligations.ZeroingClearsTheHeadCell := by
  intro s i rest idle access queue
  have side := s.zeroedCell_side i rest
  have settled := Settled.settle (s.zeroedCell i rest)
  have out := Outbound.outboundGrant (s.zeroedCell i rest).settle
  have mem : (s.zeroedCell i rest).settle.outboundGrant.mem = s.mem.zeroCell i := by
    rw [(congrArg State.mem out.rest :), (congrArg State.mem settled.rest :), (congrArg State.mem side.rest :)]
    rfl
  have cells : ∀ c, s.cell? i = some c → ∃ e, (s.zeroedCell i rest).settle.outboundGrant.cell? i = some e
      ∧ e.zeroed = if c.state = .pending ∨ c.state = .complete then true else c.zeroed := fun c cell => by
    obtain ⟨d, at_, marked⟩ := State.cellZeroed_cell (u := s.jobDone i rest) cell
    have there : (s.zeroedCell i rest).cell? i = some d := by
      rw [State.cell?, s.zeroedCell_cells i rest]
      exact at_
    obtain ⟨e, settled, same⟩ := State.settle_zeroed there
    refine ⟨e, ?_, same.trans marked⟩
    rw [State.cell?, (congrArg State.canvas out.rest :)]
    exact settled
  refine ⟨_, exec_zeroingDone idle access queue, ?_, fun more => ?_, fun q below => ?_, fun j q other below => ?_, ?_, ?_,
    fun c cell live => ?_, fun c cell h1 h2 => ?_, fun ctx place waiting => ?_, ?_, ?_, ?_, ?_⟩
  · rw [State.outboundGrant_store, State.settle_zeroQueue, State.zeroedCell_zeroQueue]
  · rw [State.outboundGrant_holdsClaim]
    refine State.holdsClaim_settle ?_
    unfold State.zeroedCell
    dsimp only
    rw [if_neg more]
    exact State.holdsClaim_claim_self _ _
  · rw [mem, Memory.canvasPixel_zeroCell _ _ _ _ below, if_pos rfl]
    rfl
  · rw [mem, Memory.canvasPixel_zeroCell _ _ _ _ below, if_neg other]
  · rw [mem]
    rfl
  · rw [mem]
    rfl
  · obtain ⟨e, at_, zeroed⟩ := cells c cell
    exact ⟨e, at_, zeroed.trans (if_pos live)⟩
  · obtain ⟨e, at_, zeroed⟩ := cells c cell
    exact ⟨e, at_, zeroed.trans (if_neg (not_or.2 ⟨h1, h2⟩))⟩
  · have jobPlace : ((s.jobDone i rest).cellZeroed i).place = some ctx := (State.cellZeroed_store _ i).2.trans place
    obtain ⟨e, left, tile, row, waits, claims⟩ := State.leaveWait_place i jobPlace waiting
    have there : (s.zeroedCell i rest).place = some e := by
      unfold State.zeroedCell
      dsimp only
      split <;> exact left
    obtain ⟨phase, placed⟩ := State.settle_place there
    refine ⟨{ e with phase := phase }, ?_, tile, row, waits, fun only => ?_⟩
    · rw [(congrArg State.place out.rest :)]
      exact placed
    · rw [State.outboundGrant_holdsClaim]
      exact State.holdsClaim_settle (s.zeroedCell_holds i rest _ (claims only))
  · rw [(congrArg State.tiles out.rest :), (congrArg State.tiles settled.rest :), (congrArg State.tiles side.rest :)]
    rfl
  · rw [(congrArg State.slots out.rest :), (congrArg State.slots settled.rest :), (congrArg State.slots side.rest :)]
    rfl
  · rw [(congrArg State.ports out.rest :), (congrArg State.ports settled.rest :), (congrArg State.ports side.rest :)]
    rfl
  · rw [(congrArg State.cal out.rest :), (congrArg State.cal settled.rest :), (congrArg State.cal side.rest :)]
    rfl

end Sys2Proof.Machine
end

section
/-!
PROOF. CANVAS_CLOSE (R140, R141) and the finish of a canvas (R145, R146).
-/

namespace Sys2Proof.Machine

/-! ## The close, cell by cell -/

/-- R141. A PENDING cell with nothing owed, which the close completes. -/
def Cell.ripe (c : Cell) : Bool := decide (c.state = .pending ∧ c.owed = 0)

/-- R141. A cell after the close. -/
def Cell.closed (c : Cell) : Cell :=
  { c with state := if c.state = .untouched then .exempt else if c.ripe then .complete else c.state }

theorem Cell.closed_of_untouched {c : Cell} (untouched : c.state = .untouched) : c.closed = { c with state := .exempt } := by
  rw [Cell.closed, if_pos untouched]

theorem Cell.closed_of_ripe {c : Cell} (ripe : c.ripe = true) : c.closed = { c with state := .complete } := by
  have pending : c.state = .pending := (of_decide_eq_true ripe).1
  rw [Cell.closed, if_neg (by rw [pending]; decide), if_pos ripe]

theorem Cell.closed_of_other {c : Cell} (touched : c.state ≠ .untouched) (unripe : ¬c.ripe = true) : c.closed = c := by
  rw [Cell.closed, if_neg touched, if_neg unripe]

/-- The cell of the table at an index is ripe. -/
def ripeAt (cells : List Cell) (i : Nat) : Bool :=
  match cells[i]? with
  | some c => c.ripe
  | none => false

theorem ripeAt_of {cells : List Cell} {i : Nat} {c : Cell} (cell : cells[i]? = some c) : ripeAt cells i = c.ripe := by
  rw [ripeAt, cell]

/-- The part after the close of the first `m` cells. -/
structure State.ClosedTo (s : State) (m : Nat) (t : State) : Prop where
  rest : { t with canvas := s.canvas, drain := s.drain, place := s.place, store := s.store } = s
  grid : { t.canvas with cells := s.canvas.cells } = s.canvas
  cells : ∀ j, t.canvas.cells[j]? = (s.canvas.cells[j]?).map fun c => if j < m then c.closed else c
  drain : t.drain = { s.drain with queue := s.drain.queue ++ (List.range m).filter (ripeAt s.canvas.cells) }

theorem State.ClosedTo.zero (s : State) : s.ClosedTo 0 s where
  rest := rfl
  grid := rfl
  cells j := by
    simp only [Nat.not_lt_zero, if_false]
    exact Option.map_id'.symm
  drain := by
    rw [List.range_zero, List.filter_nil, List.append_nil]

theorem List.getElem?_map_set {cells : List Cell} {m : Nat} {c : Cell} {f : Nat → Cell → Cell} {l : List Cell}
    (at_ : cells[m]? = some c) (each : ∀ j, l[j]? = (cells[j]?).map (f j)) (d : Cell) (j : Nat) :
    (l.set m d)[j]? = (cells[j]?).map fun x => if j = m then d else f j x := by
  have inside : m < l.length := by
    refine (List.getElem?_eq_some_iff (a := f m c)).1 ?_ |>.1
    rw [each m, at_]
    rfl
  rw [List.getElem?_set, each j]
  by_cases same : m = j
  · subst same
    rw [if_pos rfl, if_pos inside, at_]
    simp
  · rw [if_neg same]
    exact congrArg (Option.map · _) (funext fun x => (if_neg (Ne.symm same)).symm)

theorem CanvasSide.restWith {t u : State} (h : CanvasSide t u) (s : State) :
    { u with canvas := s.canvas, drain := s.drain, place := s.place, store := s.store }
      = { t with canvas := s.canvas, drain := s.drain, place := s.place, store := s.store } :=
  (congrArg (fun x : State => ({ x with canvas := s.canvas, drain := s.drain, place := s.place, store := s.store } : State)) h.rest :)

theorem State.ClosedTo.succ {s t : State} {m : Nat} {c : Cell} (before : s.ClosedTo m t) (cell : s.canvas.cells[m]? = some c) :
    s.ClosedTo (m + 1) (t.closeCell m) := by
  have here : t.cell? m = some c := by
    rw [State.cell?, before.cells m, cell, Option.map_some, if_neg (Nat.lt_irrefl m)]
  have range : (List.range (m + 1)).filter (ripeAt s.canvas.cells)
      = (List.range m).filter (ripeAt s.canvas.cells) ++ if c.ripe then [m] else [] := by
    rw [List.range_succ, List.filter_append, List.filter_singleton, ripeAt_of cell]
    cases c.ripe <;> rfl
  have pointwise : ∀ d, d = c.closed → ∀ j, (t.canvas.cells.set m d)[j]?
      = (s.canvas.cells[j]?).map fun c => if j < m + 1 then c.closed else c := fun d hd j => by
    rw [List.getElem?_map_set cell before.cells d j]
    by_cases same : j = m
    · subst same
      rw [cell, Option.map_some, Option.map_some, if_pos rfl, if_pos (Nat.lt_succ_self j), hd]
    · refine congrArg (Option.map · _) (funext fun x => (if_neg same).trans (if_congr ?_ rfl rfl))
      omega
  rw [State.closeCell, here]
  dsimp only
  split
  · next untouched =>
    have unripe : c.ripe = false := decide_eq_false fun h => by
      rw [untouched] at h
      cases h.1
    refine ⟨before.rest, before.grid, pointwise _ (Cell.closed_of_untouched untouched).symm, before.drain.trans ?_⟩
    rw [range, unripe, if_neg Bool.false_ne_true, List.append_nil]
  · next touched =>
    split
    · next ripe =>
      have completed := t.completeCell_rest m c
      have ripe : c.ripe = true := decide_eq_true ripe
      have canvas : (t.completeCell m c).canvas = { t.canvas with cells := t.canvas.cells.set m { c with state := .complete } } :=
        (congrArg State.canvas completed :)
      have drain : (t.completeCell m c).drain = { t.drain with queue := t.drain.queue ++ [m] } := (congrArg State.drain completed :)
      refine ⟨((CanvasSide.completeCell t m c).restWith s).trans before.rest, ?_, fun j => ?_, drain.trans ?_⟩
      · rw [canvas]
        exact before.grid
      · rw [canvas]
        exact pointwise _ (Cell.closed_of_ripe ripe).symm j
      · rw [before.drain, range, if_pos ripe, List.append_assoc]
    · next unripe =>
      have unripe : ¬c.ripe = true := fun h => unripe (of_decide_eq_true h)
      refine ⟨before.rest, before.grid, fun j => (before.cells j).trans ?_, before.drain.trans ?_⟩
      · by_cases same : j = m
        · subst same
          rw [cell, Option.map_some, Option.map_some, if_neg (Nat.lt_irrefl j), if_pos (Nat.lt_succ_self j),
            Cell.closed_of_other touched unripe]
        · refine congrArg (Option.map · _) (funext fun x => if_congr ?_ rfl rfl)
          omega
      · rw [range, if_neg unripe, List.append_nil]

theorem State.ClosedTo.range (s : State) : ∀ m, m ≤ s.canvas.cells.length →
    s.ClosedTo m ((List.range m).foldl State.closeCell s)
  | 0, _ => .zero s
  | m + 1, inside => by
    rw [List.range_succ, List.foldl_append]
    exact (State.ClosedTo.range s m (Nat.le_of_lt inside)).succ (List.getElem?_eq_getElem inside)

/-- R141. The whole table after the close. -/
theorem State.closeCells_spec (s : State) :
    let t := (List.range s.canvas.cells.length).foldl State.closeCell s
    t.canvas = { s.canvas with cells := s.canvas.cells.map Cell.closed }
      ∧ t.drain = { s.drain with queue := s.drain.queue ++ (List.range s.canvas.cells.length).filter (ripeAt s.canvas.cells) }
      ∧ { t with canvas := s.canvas, drain := s.drain, place := s.place, store := s.store } = s := by
  intro t
  have closed := State.ClosedTo.range s s.canvas.cells.length (Nat.le_refl _)
  refine ⟨?_, closed.drain, closed.rest⟩
  have cells : t.canvas.cells = s.canvas.cells.map Cell.closed := by
    refine List.ext_getElem? fun j => ?_
    rw [closed.cells j, List.getElem?_map]
    by_cases inside : j < s.canvas.cells.length
    · exact congrArg (Option.map · _) (funext fun c => if_pos inside)
    · rw [List.getElem?_eq_none (Nat.not_lt.1 inside)]
      rfl
  have grid := congrArg (fun c : Canvas => { c with cells := t.canvas.cells }) closed.grid
  rw [← cells]
  exact grid

/-- The PENDING cells the close leaves are those with something owed. -/
theorem countP_closed_pending (cells : List Cell) : (cells.map Cell.closed).countP (fun c => decide (c.state = .pending))
    = cells.countP fun c => decide (c.state = .pending ∧ c.owed ≠ 0) := by
  rw [List.countP_map]
  refine List.countP_congr fun c _ => ?_
  rw [Function.comp_apply, decide_eq_true_iff, decide_eq_true_iff]
  by_cases untouched : c.state = .untouched
  · rw [Cell.closed_of_untouched untouched, untouched]
    exact ⟨nofun, nofun⟩
  · by_cases ripe : c.ripe = true
    · rw [Cell.closed_of_ripe ripe]
      exact ⟨nofun, fun h => absurd (of_decide_eq_true ripe).2 h.2⟩
    · rw [Cell.closed_of_other untouched ripe]
      exact ⟨fun pending => ⟨pending, fun owed => ripe (decide_eq_true ⟨pending, owed⟩)⟩, And.left⟩

/-! ## CANVAS_CLOSE -/

/-- R140, R141. An accepted close. -/
theorem exec_canvasClose {s : State} (tag : Byte) (hs : s.Ready) (gathering : s.canvas.state = .gathering)
    (settled : ∀ k, (s.slot k).state ≠ .opened) :
    let t := (List.range s.canvas.cells.length).foldl State.closeCell s
    exec (.canvasClose tag) s = .next (State.answered
      (State.finishTest { t with canvas := { t.canvas with state := .closed } }).settle tag 0x19
      (code16 (s.canvas.count .untouched) ++ code16 (s.canvas.cells.countP Cell.ripe) ++ code16 (t.canvas.count .pending))) := by
  intro t
  have ⟨_, idle, _⟩ := hs
  have plans : ¬allSlots.any (fun k => decide ((s.slot k).state = .opened)) = true := fun h => by
    obtain ⟨k, -, opened⟩ := List.any_eq_true.1 h
    exact settled k (of_decide_eq_true opened)
  have owner : s.canvasClose = _ := (if_neg (not_not.2 gathering)).trans (if_neg plans)
  have requests := (Cascade.canvasClose s).requests
  rw [owner] at requests
  exact exec_of_done .canvasClose hs owner (requests.trans idle)

theorem Canvas.sum_eq (c : Canvas) (f : Cell → Nat) : c.sum f = c.cells.foldl (fun acc x => min 4294967295 (acc + f x)) 0 := by
  have step : (fun acc x => satAdd Config.sat32 acc (f x)) = fun acc x => min 4294967295 (acc + f x) := by
    funext acc x
    exact satAdd_eq_min ..
  rw [Canvas.sum, step]

theorem Canvas.allDrained_iff {c : Canvas} : c.allDrained = true ↔ ∀ x ∈ c.cells, x.state = .drained ∨ x.state = .exempt := by
  simp [Canvas.allDrained]

/-- R125. The end of the canvas marks a placement under way, and changes its claim at most. -/
theorem State.endPlacementCanvas_spec (s : State) : { s.endPlacementCanvas with place := s.place, store := s.store } = s
    ∧ ∀ ctx, s.endPlacementCanvas.place = some ctx → ctx.ended = true := by
  unfold State.endPlacementCanvas
  split
  · next idle =>
    refine ⟨rfl, fun ctx place => ?_⟩
    rw [idle] at place
    cases place
  · dsimp only
    split
    · refine ⟨rfl, fun ctx place => ?_⟩
      cases place
      rfl
    · refine ⟨rfl, fun ctx place => ?_⟩
      cases place
      rfl

/-- Settles O45: the close, and the finish test. -/
theorem canvasCloseSortsTheCells : Obligations.CanvasCloseSortsTheCells := by
  refine ⟨fun s tag hs => ?_, fun u => ?_⟩
  · intro ripe n answer
    refine ⟨fun shut => ?_, fun gathering planned => ?_, fun gathering settled => ?_⟩
    · exact exec_of_refused .canvasClose hs (if_pos shut)
    · obtain ⟨k, opened⟩ := planned
      refine exec_of_refused .canvasClose hs ((if_neg (not_not.2 gathering)).trans (if_pos ?_))
      exact List.any_eq_true.2 ⟨k, List.mem_finRange k, decide_eq_true opened⟩
    · have closed := exec_canvasClose tag hs gathering settled
      obtain ⟨canvas, drain, rest⟩ := s.closeCells_spec
      dsimp only at closed canvas drain rest
      generalize (List.range s.canvas.cells.length).foldl State.closeCell s = t at closed canvas drain rest
      have left : t.canvas.count .pending = s.canvas.cells.countP fun c => decide (c.state = .pending ∧ c.owed ≠ 0) := by
        rw [canvas]
        exact countP_closed_pending _
      rw [left] at closed
      refine ⟨{ t with canvas := { t.canvas with state := .closed } }, ?_, drain, rest, closed⟩
      exact congrArg (fun c : Canvas => { c with state := .closed }) canvas
  · intro c finished sum
    refine ⟨fun going => if_neg fun h => going ⟨h.1, Canvas.allDrained_iff.1 h.2⟩, fun done => ?_⟩
    have ends : u.finishTest = (u.raise .canvasDone (u.canvas.doneContent none)).canvasToIdle :=
      if_pos ⟨done.1, Canvas.allDrained_iff.2 done.2⟩
    obtain ⟨rest, marked⟩ := State.endPlacementCanvas_spec { u.raise .canvasDone (u.canvas.doneContent none) with canvas := .idle }
    have sums : ∀ f, c.sum f = sum f := c.sum_eq
    rw [ends]
    refine ⟨(congrArg State.canvas rest :), (congrArg State.host rest :).trans ?_, (congrArg State.slots rest :),
      (congrArg State.tiles rest :), (congrArg State.drain rest :), (congrArg State.mem rest :), marked⟩
    rw [← sums, ← sums, ← sums]
    rfl

end Sys2Proof.Machine
end

section
/-!
PROOF. Pixels: their calibration (R67 to R69), their judgement (R118), and what they add to the canvas (R119, R120).
-/

namespace Sys2Proof.Machine

/-! ## Calibration -/

theorem CalRec.defective_iff {r : CalRec} {flat row col : Nat} : r.defective flat row col = true ↔
    flat = 0 ∨ ∃ d ∈ r.defects, d.firstCol ≤ col ∧ col ≤ d.lastCol ∧ d.firstRow ≤ row ∧ row ≤ d.lastRow := by
  simp only [CalRec.defective, Rect.covers, Bool.or_eq_true, List.any_eq_true, decide_eq_true_eq]
  exact or_comm

theorem CalRec.pixel_of_flagged {r : CalRec} {bias : Nat × Nat} {flat time row col raw : Nat}
    (flagged : r.saturates raw = true ∨ r.defective flat row col = true) :
    r.pixel bias flat time row col raw = .flagged (r.defective flat row col) (r.saturates raw) := by
  rw [CalRec.pixel]
  exact if_pos (Bool.or_eq_true_iff.2 flagged)

theorem CalRec.pixel_of_good {r : CalRec} {bias : Nat × Nat} {flat time row col raw : Nat}
    (unsaturated : ¬r.saturates raw = true) (sound : ¬r.defective flat row col = true) :
    r.pixel bias flat time row col raw = .value (pixelValue raw bias r.gain flat time) := by
  rw [CalRec.pixel]
  exact if_neg fun h => (Bool.or_eq_true_iff.1 h).elim unsaturated sound

/-- R67. The bias fraction is the mean of the overscan values after the skipped ones, or the fixed level. -/
theorem CalRec.biasOf_cast (r : CalRec) (overscan : List Nat) (enough : ∀ k, r.bias = .overscan k → k < overscan.length) :
    0 < (r.biasOf overscan).2 ∧ ((r.biasOf overscan).1 : ℚ) / (r.biasOf overscan).2 =
      match r.bias with
      | .fixed level => (level : ℚ)
      | .overscan k => ((overscan.drop k).sum : ℚ) / ((overscan.length : ℚ) - k) := by
  unfold CalRec.biasOf
  cases bias : r.bias with
  | fixed level => exact ⟨Nat.one_pos, by simp⟩
  | overscan k =>
    have inside := enough k bias
    have length : ((overscan.drop k).length : ℚ) = (overscan.length : ℚ) - k := by
      rw [List.length_drop, Nat.cast_sub (Nat.le_of_lt inside)]
    have sum : (overscan.drop k).foldl (· + ·) 0 = (overscan.drop k).sum := List.sum_eq_foldl.symm
    refine ⟨List.length_pos_iff.2 fun empty => ?_, ?_⟩
    · have := List.drop_eq_nil_iff.1 empty
      omega
    show (((overscan.drop k).foldl (· + ·) 0 : Nat) : ℚ) / ((overscan.drop k).length : ℚ) = _
    rw [length, sum]

/-- R68. The fraction that is rounded: `(D − B) × gain ÷ (F × t)`. -/
theorem pixelValue_fraction {raw b1 b2 gain flat time : Nat} (some_ : 0 < b2) (lit : flat ≠ 0) (timed : 1 ≤ time) :
    0 < b2 * 4096 * flat * time
    ∧ ((((raw : Int) * b2 - b1) * gain * 16384 * 1000 : Int) : ℚ) / ((b2 * 4096 * flat * time : Nat) : ℚ)
      = (raw - (b1 : ℚ) / b2) * (gain / 4096) / ((flat / 16384) * (time / 1000)) := by
  have flat_pos : 0 < flat := Nat.pos_of_ne_zero lit
  refine ⟨by positivity, ?_⟩
  have hb : (b2 : ℚ) ≠ 0 := by positivity
  have hf : (flat : ℚ) ≠ 0 := by positivity
  have ht : (time : ℚ) ≠ 0 := by positivity
  push_cast
  field_simp

/-- Settles O32: the bias, the flags, and the value. -/
theorem pixelsAreCalibrated : Obligations.PixelsAreCalibrated := by
  intro r overscan flat time row col raw timed enough bias saturated defect px
  have some_ : 0 < (r.biasOf overscan).2 := (r.biasOf_cast overscan enough).1
  have mean : ((r.biasOf overscan).1 : ℚ) / (r.biasOf overscan).2 = bias := (r.biasOf_cast overscan enough).2
  have saturates : r.saturates raw = true ↔ saturated := decide_eq_true_iff
  have defective : r.defective flat row col = true ↔ defect := CalRec.defective_iff
  refine ⟨mean, fun flagged => ?_, fun unsaturated sound => ?_⟩
  · exact ⟨_, _, CalRec.pixel_of_flagged (flagged.imp saturates.2 defective.2), defective, saturates⟩
  · have lit : flat ≠ 0 := fun dark => sound (.inl dark)
    obtain ⟨positive, fraction⟩ := pixelValue_fraction (raw := raw) (b1 := (r.biasOf overscan).1) (gain := r.gain) some_ lit timed
    refine ⟨_, _, positive, fraction.trans ?_, CalRec.pixel_of_good (mt saturates.1 unsaturated) (mt defective.1 sound)⟩
    rw [mean]

/-! ## Targets -/

/-- Settles O40: what a value and a flagged pixel add to a canvas pixel. -/
theorem pixelsAddToTheirTarget : Obligations.PixelsAddToTheirTarget := by
  intro ctx p ceiling
  refine ⟨fun v => ?_, fun d st => rfl, fun px => ?_⟩
  · intro a
    show p.add v ctx.scale ctx.weight ctx.warm ctx.nominal = _
    rw [CanvasPixel.add, satAdd_eq_min]
    rfl
  · cases px with
    | value v =>
      show p.weight + min ctx.weight (65535 - p.weight) ≤ 65535
      omega
    | flagged d st => exact ceiling

section
variable {s : State} {ctx : PlaceCtx} {col : Nat}

theorem State.lateInTile_eq (s : State) (n : Fin 40) :
    s.lateInTile n = s.modTile n fun x => { x with late := min 4294967295 (x.late + 1) } := by
  rw [State.lateInTile]
  simp only [satAdd_eq_min]
  rfl

theorem State.spillInTile_eq (s : State) (n : Fin 40) :
    s.spillInTile n = s.modTile n fun x => { x with spill := min 4294967295 (x.spill + 1) } := by
  rw [State.spillInTile]
  simp only [satAdd_eq_min]
  rfl

theorem State.judgePixel_of_ended (ended : ctx.ended = true) : s.judgePixel ctx col = s.lateInTile ctx.tile := if_pos ended

theorem State.judgePixel_of_outside (live : ctx.ended = false) (outside : ctx.target col ctx.row = none) :
    s.judgePixel ctx col = s.spillInTile ctx.tile := by
  rw [State.judgePixel, if_neg (by rw [live]; decide), outside]

variable {i place : Nat}

theorem State.judgePixel_of_unlisted (live : ctx.ended = false) (target : ctx.target col ctx.row = some (i, place))
    (unlisted : i ∉ ctx.plan.cells) : s.judgePixel ctx col = s.spillInTile ctx.tile := by
  rw [State.judgePixel, if_neg (by rw [live]; decide), target]
  exact if_neg unlisted

theorem State.judgePixel_of_late {c : Cell} (live : ctx.ended = false) (target : ctx.target col ctx.row = some (i, place))
    (listed : i ∈ ctx.plan.cells) (cell : s.cell? i = some c) (late : c.state ≠ .pending) :
    s.judgePixel ctx col = (s.setCell i { c with late := satAdd Config.sat32 c.late 1 }).lateInTile ctx.tile := by
  rw [State.judgePixel, if_neg (by rw [live]; decide), target]
  dsimp only
  rw [if_pos listed, cell]
  exact if_neg late

theorem State.judgePixel_of_pending {c : Cell} (live : ctx.ended = false) (target : ctx.target col ctx.row = some (i, place))
    (listed : i ∈ ctx.plan.cells) (cell : s.cell? i = some c) (pending : c.state = .pending) :
    s.judgePixel ctx col = { s with
      mem := s.mem.setCanvasPixel i place (ctx.mark (s.mem.tilePixel ctx.tile ctx.row col) (s.mem.canvasPixel i place)) } := by
  rw [State.judgePixel, if_neg (by rw [live]; decide), target]
  dsimp only
  rw [if_pos listed, cell]
  exact if_pos pending

end

/-- Settles O41: the four judgements of a pixel. -/
theorem eachPixelIsJudgedOnce : Obligations.EachPixelIsJudgedOnce := by
  intro s ctx col spill late tgt
  refine ⟨fun ended => ?_, fun live outside => ?_, fun live i place target unlisted => ?_,
    fun live i place c target listed cell other => ?_, fun live i place c target listed cell pending wf => ?_⟩
  · rw [State.judgePixel_of_ended ended, State.lateInTile_eq]
  · rw [State.judgePixel_of_outside live outside, State.spillInTile_eq]
  · rw [State.judgePixel_of_unlisted live target unlisted, State.spillInTile_eq]
  · rw [State.judgePixel_of_late live target listed cell other, State.lateInTile_eq, satAdd_eq_min]
    rfl
  · refine ⟨_, State.judgePixel_of_pending live target listed cell pending, ?_, fun j q apart => ?_, rfl, rfl⟩
    · rw [Memory.canvasPixel_setCanvasPixel _ _ _ _ _ _ wf, if_pos rfl]
    · rw [Memory.canvasPixel_setCanvasPixel _ _ _ _ _ _ wf, if_neg apart]

end Sys2Proof.Machine
end

section
/-!
PROOF. Rounding to single precision is to the nearest (R68, R98, R119, R157): the patterns' magnitudes, the nearest multiple of the last
digit's unit, and the coarser and finer patterns around it.
-/

namespace Sys2Proof.Machine

/-! ## Magnitudes -/

/-- The magnitude of a pattern with the sign bit clear, in units of 2^-149. -/
def magOf (b : Nat) : Nat := if b / 2 ^ 23 = 0 then b % 2 ^ 23 else (2 ^ 23 + b % 2 ^ 23) * 2 ^ (b / 2 ^ 23 - 1)

theorem f32Exact_eq (f : F32) :
    f32Exact f = if f.msb then -(magOf (f.toNat % 2 ^ 31) : Int) else (magOf (f.toNat % 2 ^ 31) : Int) := by
  have high : f.toNat / 2 ^ 23 % 256 = f.toNat % 2 ^ 31 / 2 ^ 23 := by omega
  have low : f.toNat % 2 ^ 23 = f.toNat % 2 ^ 31 % 2 ^ 23 := by omega
  rw [f32Exact, magOf, high, low]

/-- A pattern is a whole number of the units of its own exponent. -/
theorem magOf_pattern {k m : Nat} (fits : m ≤ 2 ^ 24) (normal : k = 0 ∨ 2 ^ 23 ≤ m) : magOf (k * 2 ^ 23 + m) = m * 2 ^ k := by
  have cases_ : m < 2 ^ 23 ∨ (2 ^ 23 ≤ m ∧ m < 2 ^ 24) ∨ m = 2 ^ 24 := by omega
  rcases cases_ with small | ⟨large, below⟩ | rfl
  · obtain rfl : k = 0 := by omega
    have digit : (0 * 2 ^ 23 + m) / 2 ^ 23 = 0 := by omega
    have rest : (0 * 2 ^ 23 + m) % 2 ^ 23 = m := by omega
    rw [magOf, digit, rest, if_pos rfl, pow_zero, Nat.mul_one]
  · have digit : (k * 2 ^ 23 + m) / 2 ^ 23 = k + 1 := by omega
    have rest : 2 ^ 23 + (k * 2 ^ 23 + m) % 2 ^ 23 = m := by omega
    rw [magOf, digit, rest, if_neg (Nat.succ_ne_zero k), Nat.add_sub_cancel]
  · have digit : (k * 2 ^ 23 + 2 ^ 24) / 2 ^ 23 = k + 2 := by omega
    have rest : 2 ^ 23 + (k * 2 ^ 23 + 2 ^ 24) % 2 ^ 23 = 2 ^ 23 := by omega
    rw [magOf, digit, rest, if_neg (Nat.succ_ne_zero _), show k + 2 - 1 = k + 1 from rfl, pow_succ 2 k]
    ring

/-- A magnitude is a whole number of units 2^k, or lies below the least pattern of that unit. -/
theorem magOf_multiple_or_small (b k : Nat) : (∃ j, magOf b = j * 2 ^ k) ∨ (0 < k ∧ magOf b ≤ 2 ^ 23 * 2 ^ k) := by
  unfold magOf
  have digits : b % 2 ^ 23 < 2 ^ 23 := Nat.mod_lt _ (by decide)
  split
  · rcases Nat.eq_zero_or_pos k with rfl | positive
    · exact .inl ⟨b % 2 ^ 23, by rw [pow_zero, Nat.mul_one]⟩
    · exact .inr ⟨positive, digits.le.trans (Nat.le_mul_of_pos_right _ (Nat.two_pow_pos k))⟩
  · generalize b / 2 ^ 23 - 1 = e
    rcases Nat.lt_or_ge e k with finer | coarser
    · refine .inr ⟨by omega, ?_⟩
      have doubled : 2 ^ (e + 1) ≤ 2 ^ k := Nat.pow_le_pow_right (by decide) finer
      calc (2 ^ 23 + b % 2 ^ 23) * 2 ^ e ≤ 2 ^ 24 * 2 ^ e := Nat.mul_le_mul_right _ (by omega)
        _ = 2 ^ 23 * 2 ^ (e + 1) := by rw [pow_succ 2 e]; ring
        _ ≤ 2 ^ 23 * 2 ^ k := Nat.mul_le_mul_left _ doubled
    · refine .inl ⟨(2 ^ 23 + b % 2 ^ 23) * 2 ^ (e - k), ?_⟩
      rw [Nat.mul_assoc, ← pow_add, Nat.sub_add_cancel coarser]

/-! ## The nearest multiple -/

/-- The whole number of `d` nearest `n`, a tie to the even one. -/
def nearest (n d : Nat) : Nat := if 2 * (n % d) > d ∨ (2 * (n % d) = d ∧ n / d % 2 = 1) then n / d + 1 else n / d

theorem nearest_bounds (n d : Nat) : n / d ≤ nearest n d ∧ nearest n d ≤ n / d + 1 := by
  unfold nearest
  split <;> omega

/-- No multiple of `d` is nearer `n` than the nearest. -/
theorem nearest_spec {d : Nat} (some_ : 0 < d) (n j : Nat) :
    (((nearest n d * d : Nat) : Int) - n).natAbs ≤ (((j * d : Nat) : Int) - n).natAbs := by
  have parts : d * (n / d) + n % d = n := Nat.div_add_mod n d
  have below : n % d < d := Nat.mod_lt n some_
  have side : j * d ≤ (n / d) * d ∨ (n / d) * d + d ≤ j * d := by
    rcases Nat.lt_or_ge (n / d) j with above | under
    · exact .inr (by rw [← Nat.succ_mul]; exact Nat.mul_le_mul_right d above)
    · exact .inl (Nat.mul_le_mul_right d under)
  have swap : d * (n / d) = n / d * d := Nat.mul_comm _ _
  have up : (n / d + 1) * d = n / d * d + d := Nat.succ_mul _ _
  unfold nearest
  split
  · rw [up]
    generalize n / d * d = q at parts side swap ⊢
    generalize j * d = p at side ⊢
    omega
  · generalize n / d * d = q at parts side swap ⊢
    generalize j * d = p at side ⊢
    omega

/-! ## The rounded magnitude -/

/-- The exponent of the last digit's unit. -/
def unitExp (u : Nat) : Nat := if u < 2 ^ 24 then 0 else Nat.log2 u - 23

/-- In units of the last digit the whole part has 24 digits, or fewer where the unit is the least. -/
theorem unitExp_spec (u : Nat) : u / 2 ^ unitExp u < 2 ^ 24 ∧ (unitExp u = 0 ∨ 2 ^ 23 ≤ u / 2 ^ unitExp u) := by
  unfold unitExp
  split
  · next small => exact ⟨by rwa [pow_zero, Nat.div_one], .inl rfl⟩
  · next large =>
    have positive : u ≠ 0 := by omega
    have lower : 2 ^ u.log2 ≤ u := Nat.log2_self_le positive
    have upper : u < 2 ^ (u.log2 + 1) := Nat.lt_log2_self
    have high : 23 ≤ u.log2 := by
      by_contra low
      have : u < 2 ^ 24 := upper.trans_le (Nat.pow_le_pow_right (by decide) (by omega))
      exact large this
    refine ⟨Nat.div_lt_of_lt_mul ?_, .inr ((Nat.le_div_iff_mul_le (Nat.two_pow_pos _)).2 ?_)⟩
    · rw [← pow_add, show u.log2 - 23 + 24 = u.log2 + 1 by omega]
      exact upper
    · rw [← pow_add, show 23 + (u.log2 - 23) = u.log2 by omega]
      exact lower

section
variable (num den : Nat)

/-- The exponent a fraction is rounded at. -/
def roundExp : Nat := unitExp (num * f32Unit / den)

/-- The digits of the rounded fraction. -/
def roundDigits : Nat := nearest (num * f32Unit) (den * 2 ^ roundExp num den)

theorem f32RoundMag_eq : f32RoundMag num den =
    if roundExp num den * 2 ^ 23 + roundDigits num den < 0x7F800000 then roundExp num den * 2 ^ 23 + roundDigits num den
    else 0x7F800000 := rfl

theorem roundDigits_spec : roundDigits num den ≤ 2 ^ 24 ∧ (roundExp num den = 0 ∨ 2 ^ 23 ≤ roundDigits num den)
    ∧ (roundExp num den = 0 ∨ 2 ^ 23 ≤ num * f32Unit / (den * 2 ^ roundExp num den)) := by
  obtain ⟨below, normal⟩ := unitExp_spec (num * f32Unit / den)
  have quotient : num * f32Unit / (den * 2 ^ roundExp num den) = num * f32Unit / den / 2 ^ roundExp num den :=
    (Nat.div_div_eq_div_mul ..).symm
  obtain ⟨low, high⟩ := nearest_bounds (num * f32Unit) (den * 2 ^ roundExp num den)
  rw [quotient] at low high
  rw [quotient]
  refine ⟨high.trans below, normal.imp_right fun h => le_trans h low, normal⟩

/-- R68. No pattern's magnitude is nearer the fraction than the rounded one. -/
theorem f32RoundMag_nearest (some_ : 0 < den) (finite : f32RoundMag num den < 0x7F800000) (b : Nat) :
    (((magOf (f32RoundMag num den) * den : Nat) : Int) - (num * f32Unit : Nat)).natAbs
      ≤ (((magOf b * den : Nat) : Int) - (num * f32Unit : Nat)).natAbs := by
  obtain ⟨fits, normal, whole⟩ := roundDigits_spec num den
  have bits : f32RoundMag num den = roundExp num den * 2 ^ 23 + roundDigits num den := by
    rw [f32RoundMag_eq] at finite ⊢
    split at finite
    · next h => exact if_pos h
    · exact absurd finite (lt_irrefl _)
  have unit : 0 < den * 2 ^ roundExp num den := Nat.mul_pos some_ (Nat.two_pow_pos _)
  have scaled : ∀ j, j * 2 ^ roundExp num den * den = j * (den * 2 ^ roundExp num den) := fun j => by ring
  have near := nearest_spec unit (num * f32Unit)
  rw [bits, magOf_pattern fits normal, scaled]
  rcases magOf_multiple_or_small b (roundExp num den) with ⟨j, multiple⟩ | ⟨positive, small⟩
  · rw [multiple, scaled]
    exact near j
  · refine (near (2 ^ 23)).trans ?_
    have reach : 2 ^ 23 * (den * 2 ^ roundExp num den) ≤ num * f32Unit :=
      (Nat.le_div_iff_mul_le unit).1 (whole.resolve_left (Nat.pos_iff_ne_zero.1 positive))
    have under : magOf b * den ≤ 2 ^ 23 * (den * 2 ^ roundExp num den) := by
      rw [← scaled]
      exact Nat.mul_le_mul_right den small
    generalize 2 ^ 23 * (den * 2 ^ roundExp num den) = p at reach under ⊢
    generalize magOf b * den = q at under ⊢
    generalize num * f32Unit = n at reach ⊢
    omega

end

/-! ## The rounded number -/

theorem magOf_zero : magOf 0 = 0 := rfl

/-- The exact value of a finite rounded number has the fraction's sign and the rounded magnitude. -/
theorem f32OfRatio_exact (num : Int) (den : Nat) (finite : (f32OfRatio num den).toNat % 2 ^ 31 < 0x7F800000) :
    f32RoundMag num.natAbs den < 0x7F800000
    ∧ f32Exact (f32OfRatio num den) = if num < 0 then -(magOf (f32RoundMag num.natAbs den) : Int)
        else (magOf (f32RoundMag num.natAbs den) : Int) := by
  have top : f32RoundMag num.natAbs den ≤ 0x7F800000 := by
    rw [f32RoundMag_eq]
    split <;> omega
  generalize mag : f32RoundMag num.natAbs den = b at top
  have shape : f32OfRatio num den = if b = 0 then 0 else if num < 0 then BitVec.ofNat 32 (0x80000000 + b) else BitVec.ofNat 32 b := by
    rw [f32OfRatio, mag]
  rw [shape] at finite ⊢
  rw [f32Exact_eq]
  by_cases zero : b = 0
  · subst zero
    refine ⟨by decide, ?_⟩
    simp [magOf_zero]
  · rw [if_neg zero] at finite ⊢
    split
    · next negative =>
      rw [if_pos negative] at finite
      have value : (BitVec.ofNat 32 (0x80000000 + b)).toNat = 0x80000000 + b := by
        rw [BitVec.toNat_ofNat, Nat.mod_eq_of_lt (by omega)]
      have sign : (BitVec.ofNat 32 (0x80000000 + b)).msb = true := by
        rw [BitVec.msb_eq_decide, value, decide_eq_true_iff]
        omega
      have digits : (0x80000000 + b) % 2 ^ 31 = b := by omega
      rw [value, digits] at finite
      rw [value, digits, sign, if_pos rfl]
      exact ⟨finite, rfl⟩
    · next positive =>
      rw [if_neg positive] at finite
      have value : (BitVec.ofNat 32 b).toNat = b := by rw [BitVec.toNat_ofNat, Nat.mod_eq_of_lt (by omega)]
      have sign : (BitVec.ofNat 32 b).msb = false := by
        rw [BitVec.msb_eq_decide, value, decide_eq_false_iff_not]
        omega
      have digits : b % 2 ^ 31 = b := by omega
      rw [value, digits] at finite
      rw [value, digits, sign]
      exact ⟨finite, rfl⟩

/-- R68. In units of 2^-149, no finite number is nearer the fraction than the rounded one: one of its sign is no nearer by the
magnitudes, and one of the other sign is no nearer than zero is. -/
theorem f32OfRatio_nearest {num : Int} {den : Nat} (some_ : 0 < den) (finite : (f32OfRatio num den).toNat % 2 ^ 31 < 0x7F800000)
    (g : F32) : (f32Exact (f32OfRatio num den) * den - num * f32Unit).natAbs ≤ (f32Exact g * den - num * f32Unit).natAbs := by
  obtain ⟨bits, exact_⟩ := f32OfRatio_exact num den finite
  have own := f32RoundMag_nearest num.natAbs den some_ bits (g.toNat % 2 ^ 31)
  have origin := f32RoundMag_nearest num.natAbs den some_ bits 0
  rw [magOf_zero, Nat.zero_mul] at origin
  have sign : (num < 0 ∧ num * f32Unit = -((num.natAbs * f32Unit : Nat) : Int)) ∨ (¬num < 0 ∧ num * f32Unit = ((num.natAbs * f32Unit : Nat) : Int)) := by
    rcases lt_or_ge num 0 with negative | positive
    · exact .inl ⟨negative, by rw [Nat.cast_mul, Int.ofNat_natAbs_of_nonpos negative.le, neg_mul, neg_neg]⟩
    · exact .inr ⟨not_lt.2 positive, by rw [Nat.cast_mul, Int.natAbs_of_nonneg positive]⟩
  rw [exact_, f32Exact_eq g]
  have scaled : ∀ a : Nat, (a : Int) * den = ((a * den : Nat) : Int) := fun a => (Nat.cast_mul ..).symm
  generalize magOf (g.toNat % 2 ^ 31) = x at own ⊢
  generalize magOf (f32RoundMag num.natAbs den) = y at own origin ⊢
  generalize num * (f32Unit : Int) = z at sign ⊢
  generalize num.natAbs * f32Unit = n at own origin sign
  rcases sign with ⟨negative, value⟩ | ⟨positive, value⟩
  · rw [if_pos negative, value]
    split
    · rw [neg_mul, neg_mul, scaled, scaled]
      omega
    · rw [neg_mul, scaled, scaled]
      omega
  · rw [if_neg positive, value]
    split
    · rw [neg_mul, scaled, scaled]
      omega
    · rw [scaled, scaled]
      omega

/-- Settles O33: the rounded number is at least as near as any other finite number. -/
theorem roundingIsToTheNearest : Obligations.RoundingIsToTheNearest := by
  intro num den some_ finite g _
  have near := f32OfRatio_nearest some_ finite g
  have denom : (0 : ℚ) < den := Nat.cast_pos.2 some_
  have unit : (0 : ℚ) < f32Unit := Nat.cast_pos.2 (Nat.two_pow_pos 149)
  have distance : ∀ f : F32, |(f32Exact f : ℚ) / f32Unit - num / den|
      = ((f32Exact f * den - num * f32Unit).natAbs : ℚ) / (f32Unit * den) := fun f => by
    rw [div_sub_div _ _ unit.ne' denom.ne', abs_div, abs_of_pos (mul_pos unit denom), Nat.cast_natAbs, Int.cast_abs]
    push_cast
    rw [mul_comm (f32Unit : ℚ) (num : ℚ)]
  rw [distance, distance]
  exact div_le_div_of_nonneg_right (Nat.cast_le.2 near) (mul_pos unit denom).le

end Sys2Proof.Machine
end

section
/-!
PROOF. The placement unit: the taking of a tile, its rows, and its leaving (R112 to R124).
-/

namespace Sys2Proof.Machine

/-! ## The cells a row waits on (R116) -/

theorem State.mem_waitSet {s : State} {ctx : PlaceCtx} {columns row i : Nat} :
    i ∈ s.waitSet ctx columns row ↔ i ∈ ctx.plan.cells ∧ (∃ c, s.cell? i = some c ∧ c.state = .pending ∧ c.zeroed = false)
      ∧ ∃ col, col < columns ∧ ∃ place, ctx.target col row = some (i, place) := by
  rw [State.waitSet, List.mem_filter, Bool.and_eq_true]
  refine and_congr_right fun _ => and_congr ?_ ?_
  · cases s.cell? i <;> simp
  · simp [Option.map_eq_some_iff]

/-- The cells a begun row waits on; none once the canvas has ended. -/
def State.rowWaits (s : State) (ctx : PlaceCtx) (row : Nat) : List Nat :=
  if ctx.ended then [] else s.waitSet { ctx with row := row } (s.tile ctx.tile).columns row

/-- The context of a begun row. -/
def State.rowContext (s : State) (ctx : PlaceCtx) (row : Nat) : PlaceCtx :=
  { ctx with
    row := row
    phase := if s.rowWaits ctx row = [] then .claiming else .waitingZero
    waitSet := s.rowWaits ctx row }

section
variable (s : State) (ctx : PlaceCtx) (row : Nat)

theorem State.startRow_eq : s.startRow ctx row =
    if s.rowWaits ctx row = [] then
      (s.setTile ctx.tile { s.tile ctx.tile with reached := row }).claimRow { ctx with row := row }
    else
      { s.setTile ctx.tile { s.tile ctx.tile with reached := row } with place := some { ctx with
          row := row, phase := .waitingZero, waitSet := s.rowWaits ctx row } } := rfl

/-- R115, R116. A row begun: the tile's count of rows, the context, and the claim where there is nothing to wait on. -/
theorem State.startRow_spec :
    (s.startRow ctx row).place = some (s.rowContext ctx row)
    ∧ { s.startRow ctx row with place := s.place, store := s.store } = s.setTile ctx.tile { s.tile ctx.tile with reached := row }
    ∧ (s.rowWaits ctx row = [] → (s.startRow ctx row).holdsClaim .placement = true) := by
  rw [State.startRow_eq]
  by_cases free : s.rowWaits ctx row = []
  · rw [if_pos free]
    refine ⟨?_, rfl, fun _ => State.holdsClaim_claim_self _ _⟩
    rw [State.rowContext, if_pos free, free]
    rfl
  · rw [if_neg free]
    refine ⟨?_, rfl, fun h => absurd h free⟩
    rw [State.rowContext, if_neg free]

variable {s ctx row}

theorem State.nextRow_of_held {r : Nat} (held : (s.tile ctx.tile).nextHeld row = some r) :
    s.nextRow ctx row = s.startRow ctx r := by
  rw [State.nextRow, held]

theorem State.nextRow_of_done (done : (s.tile ctx.tile).nextHeld row = none) :
    s.nextRow ctx row = s.completePlacement ctx.tile := by
  rw [State.nextRow, done]

end

/-! ## Taking (R87, R112) -/

theorem State.takeTiles_of_placing {s : State} {ctx : PlaceCtx} (place : s.place = some ctx) (fuel : Nat) :
    s.takeTiles fuel = s := by
  cases fuel with
  | zero => rfl
  | succ fuel => rw [State.takeTiles, place]

theorem State.take_of_placing {s : State} {ctx : PlaceCtx} (place : s.place = some ctx) : s.take = s :=
  State.takeTiles_of_placing place 41

theorem State.takeTile_of_listed {s : State} {n : Fin 40} {k : Fin 4} {p : Placement} (owner : (s.tile n).owner = some k)
    (listed : (s.slot k).placementFor (s.tile n).segment = some p) :
    s.takeTile n = State.nextRow { s.setTile n { s.tile n with state := .placing } with
      place := some (s.placeContext n (s.tile n) (s.slot k) p) } (s.placeContext n (s.tile n) (s.slot k) p) 0 := by
  unfold State.takeTile
  dsimp only
  split
  · next none =>
    rw [owner] at none
    cases none
  · next j some =>
    obtain rfl : j = k := Option.some.inj (some.symm.trans owner)
    split
    · next none =>
      rw [listed] at none
      cases none
    · next q some =>
      obtain rfl : q = p := Option.some.inj (some.symm.trans listed)
      rfl

/-- A taken tile whose next row is held is the one tile taken. -/
theorem State.take_of_started {s : State} {n : Fin 40} {rest : List (Fin 40)} {k : Fin 4} {p : Placement} {r : Nat}
    (place : s.place = none) (queue : s.tiles.queue = n :: rest) (owner : (s.tile n).owner = some k)
    (listed : (s.slot k).placementFor (s.tile n).segment = some p) (held : (s.tile n).nextHeld 0 = some r) :
    let u : State := { s with tiles := { s.tiles with queue := rest } }
    let ctx := u.placeContext n (s.tile n) (s.slot k) p
    s.take = State.startRow { u.setTile n { s.tile n with state := .placing } with place := some ctx } ctx r := by
  intro u ctx
  have taken : u.takeTile n = State.startRow { u.setTile n { s.tile n with state := .placing } with place := some ctx } ctx r := by
    refine (State.takeTile_of_listed (s := u) owner listed).trans (State.nextRow_of_held ?_)
    show ((u.setTile n { s.tile n with state := .placing }).tile n).nextHeld 0 = some r
    rw [State.tile_setTile, if_pos rfl]
    exact held
  have step : s.take = (u.takeTile n).takeTiles 40 := by
    rw [State.take, State.takeTiles]
    simp only [place, queue, u]
  rw [step, taken, State.takeTiles_of_placing (State.startRow_spec _ _ _).1]

/-! ## The end of the event -/

theorem State.outboundGrant_place (s : State) : s.outboundGrant.place = s.place := (congrArg State.place (Outbound.outboundGrant s).rest :)
theorem State.outboundGrant_mem (s : State) : s.outboundGrant.mem = s.mem := (congrArg State.mem (Outbound.outboundGrant s).rest :)
theorem State.settle_mem (s : State) : s.settle.mem = s.mem := (congrArg State.mem (Settled.settle s).rest :)

/-- A placement context whose row waits on a cell still does after the grants of the event's end, and no other does. -/
theorem State.settled_granted_place {s : State} {ctx : PlaceCtx} (place : s.place = some ctx) :
    ∃ phase, s.settle.outboundGrant.place = some { ctx with phase := phase } ∧ (phase = .waitingZero ↔ ctx.phase = .waitingZero) := by
  refine ⟨_, (State.outboundGrant_place _).trans (State.grant_place_some _ ((s.drainTake_place).trans place)), ?_⟩
  split
  · next claimed => exact ⟨nofun, fun h => by rw [claimed.1] at h; cases h⟩
  · exact Iff.rfl

theorem State.settled_granted_idle {s : State} (place : s.place = none) : s.settle.outboundGrant.place = none :=
  (State.outboundGrant_place _).trans (State.grant_place_none _ ((s.drainTake_place).trans place))

theorem State.settled_granted_mem (s : State) : s.settle.outboundGrant.mem = s.mem :=
  (State.outboundGrant_mem _).trans s.settle_mem

/-! ## TILE_TAKE -/

theorem exec_tileTake {s : State} (idle : s.host.requests = []) : exec .tileTake s = .next s.take.settle.outboundGrant :=
  congrArg Host.Outcome.next (State.settle_pump ((Cascade.take s).requests.trans idle))

/-- Settles O42: the context of the taken tile, and its first held row. -/
theorem tileTakeFormsThePlacementContext : Obligations.TileTakeFormsThePlacementContext := by
  intro s n rest k p r idle place queue owner listed canvas held x factor
  have taken := State.take_of_started place queue owner listed held
  dsimp only at taken
  generalize hu : ({ ({ s with tiles := { s.tiles with queue := rest } } : State).setTile n { s.tile n with state := .placing } with
    place := some (({ s with tiles := { s.tiles with queue := rest } } : State).placeContext n (s.tile n) (s.slot k) p) } : State)
    = u at taken
  generalize hctx : ({ s with tiles := { s.tiles with queue := rest } } : State).placeContext n (s.tile n) (s.slot k) p = ctx at taken
  obtain ⟨started, after, claims⟩ := u.startRow_spec ctx r
  obtain ⟨phase, final, waiting⟩ := State.settled_granted_place started
  have same := TilesSame.settled_granted (u.startRow ctx r)
  have live : ctx.ended = false := by
    rw [← hctx]
    exact decide_eq_false canvas
  have tile : u.tile n = { x with state := .placing } := by
    rw [← hu]
    exact (State.tile_setTile ..).trans (if_pos rfl)
  have on : ctx.tile = n := by rw [← hctx]; rfl
  have waits : u.rowWaits ctx r = u.waitSet { ctx with row := r } x.columns r := by
    rw [State.rowWaits, live, on, tile]
    rfl
  have tiles : (u.startRow ctx r).tiles = (u.setTile n { x with state := .placing, reached := r }).tiles := by
    refine (congrArg State.tiles after :).trans ?_
    rw [on, tile]
  refine ⟨_, { u.rowContext ctx r with phase := phase }, (exec_tileTake idle).trans (by rw [taken]), final, on, ?_, ?_, ?_, ?_, ?_,
    ?_, ?_, ?_, rfl, live, ?_, fun i => ?_, ?_, fun free => ?_, ?_, ?_, ?_, ?_⟩
  · subst hctx; rfl
  · subst hctx; rfl
  · subst hctx; rfl
  · subst hctx; rfl
  · subst hctx; rfl
  · subst hctx; rfl
  · subst hctx; rfl
  · subst hctx; rfl
  · subst hctx; rfl
  · show i ∈ u.rowWaits ctx r ↔ _
    rw [waits, State.mem_waitSet]
    subst hctx hu
    exact Iff.rfl
  · show phase = .waitingZero ↔ u.rowWaits ctx r ≠ []
    rw [waiting, State.rowContext]
    dsimp only
    split
    · next none => exact ⟨nofun, fun h => absurd none h⟩
    · next some => exact ⟨fun _ => some, fun _ => rfl⟩
  · rw [State.outboundGrant_holdsClaim]
    exact State.holdsClaim_settle (claims free)
  · rw [same.tile, State.tile, tiles]
    exact (State.tile_setTile ..).trans (if_pos rfl)
  · rw [same.tiles, tiles]
    subst hu
    rfl
  · rw [same.slots, (congrArg State.slots after :)]
    subst hu
    rfl
  · rw [State.settled_granted_mem, (congrArg State.mem after :)]
    subst hu
    rfl

/-! ## The judging of a row and the tiles -/

/-- Judging a pixel changes no tile but the one placed. -/
theorem State.judgePixel_tiles (ctx : PlaceCtx) (s : State) (col : Nat) : ∃ y,
    (s.judgePixel ctx col).tiles = { s.tiles with slots := s.tiles.slots.set ctx.tile.val y ctx.tile.isLt } := by
  have still : s.tiles = { s.tiles with slots := s.tiles.slots.set ctx.tile.val (s.tile ctx.tile) ctx.tile.isLt } :=
    congrArg (fun slots : Vector Tile 40 => ({ s.tiles with slots := slots } : TileStore)) (Vector.set_getElem_self ..).symm
  unfold State.judgePixel
  split
  · exact ⟨_, rfl⟩
  · split
    · exact ⟨_, rfl⟩
    · split
      · split
        · exact ⟨_, rfl⟩
        · split
          · exact ⟨_, still⟩
          · exact ⟨_, rfl⟩
      · exact ⟨_, rfl⟩

theorem State.judgeRow_tiles (ctx : PlaceCtx) (s : State) : ∃ y,
    (s.judgeRow ctx).tiles = { s.tiles with slots := s.tiles.slots.set ctx.tile.val y ctx.tile.isLt } := by
  unfold State.judgeRow
  generalize List.range _ = cols
  induction cols generalizing s with
  | nil => exact ⟨s.tile ctx.tile,
      congrArg (fun slots : Vector Tile 40 => ({ s.tiles with slots := slots } : TileStore)) (Vector.set_getElem_self ..).symm⟩
  | cons col cols ih =>
    obtain ⟨y, step⟩ := s.judgePixel_tiles ctx col
    obtain ⟨z, rest⟩ := ih (s.judgePixel ctx col)
    refine ⟨z, ?_⟩
    rw [List.foldl_cons, rest, step]
    dsimp only
    rw [Vector.set_set]

/-! ## A resolution in a slot that keeps a tile -/

/-- R33. A committed slot with a tile in the store is settled without its end. -/
theorem State.settleSlot_of_held {s : State} {k : Fin 4} (committed : (s.slot k).isCommitted = true) (held : s.tilesOf k ≠ []) :
    ∃ st timer, s.settleSlot k = s.setSlot k { s.slot k with state := st, timer := timer } := by
  by_cases idle : (s.slot k).timer = .notStarted
  · exact ⟨_, _, State.settleSlot_of_notStarted committed idle⟩
  · by_cases ended : (s.slot k).timer ≠ .running ∨ (s.slot k).awaits = false
    · exact ⟨_, _, (State.settleSlot_of_ended committed idle ended).trans (if_pos (.inr held))⟩
    · rw [not_or, not_not, Bool.not_eq_false] at ended
      exact ⟨_, _, State.settleSlot_of_running committed ended.1 ended.2⟩

/-- R46. A first resolution in a committed slot that keeps a tile, and whose scale is not settled by photometry. -/
theorem State.resolve_of_held (take : State → State) {s : State} {k : Fin 4} {g : Fin 96} (why : Reason)
    (first : ((s.slot k).entry g).isResolved = false) (committed : (s.slot k).isCommitted = true) (held : s.tilesOf k ≠ [])
    (mode : (s.slot k).photo.mode ≠ .settled) :
    CanvasSide (s.setSlot k ((s.slot k).resolve g why)) (s.recordResolution k g why)
    ∧ ∃ st timer, s.resolve take k g why =
        (s.recordResolution k g why).setSlot k { (s.slot k).resolve g why with state := st, timer := timer } := by
  have side := State.recordResolution_side first why
  have slot : (s.recordResolution k g why).slot k = (s.slot k).resolve g why := by
    rw [side.slot, State.slot_setSlot, if_pos rfl]
  have tiles : (s.recordResolution k g why).tilesOf k = s.tilesOf k := by
    simp only [State.tilesOf, side.tilesSame.tile]
    rfl
  obtain ⟨st, timer, settled⟩ := State.settleSlot_of_held (s := s.recordResolution k g why) (k := k) (by rw [slot]; exact committed)
    (by rw [tiles]; exact held)
  refine ⟨side, st, timer, ?_⟩
  rw [State.resolve_of_first take first, settled, slot]
  refine State.exhaustedTest_of_not_freezable take (decide_eq_false fun h => mode ?_)
  have same := h.2.1
  rw [State.slot_setSlot, if_pos rfl] at same
  exact same

/-! ## PLACEMENT_ROW_DONE -/

theorem exec_placementRowDone {s : State} {ctx : PlaceCtx} (idle : s.host.requests = []) (place : s.place = some ctx)
    (flight : ctx.phase = .inFlight) (access : s.store.access = some .placement) :
    exec .placementRowDone s = .next (s.freeStore.rowDone ctx).settle.outboundGrant := by
  have started : execPlacementRowDone s = .next (s.freeStore.rowDone ctx).settle.pump := by
    rw [execPlacementRowDone, place]
    exact if_pos ⟨flight, access⟩
  refine started.trans (congrArg Host.Outcome.next (State.settle_pump ?_))
  have host : (s.freeStore.judgeRow ctx).host = s.host := (congrArg State.host (s.freeStore.judgeRow_rest ctx).1 :)
  rw [(s.freeStore.rowDone_change ctx place).requests, host]
  exact idle

section
variable {s : State} {ctx : PlaceCtx}

/-- The part with the row's pixels judged and counted as reached. -/
def State.rowJudged (s : State) (ctx : PlaceCtx) : State :=
  (s.judgeRow ctx).modTile ctx.tile fun x => { x with reached := ctx.row + 1 }

theorem State.rowDone_of_started {r : Nat} (going : ctx.stop = false) (held : ((s.rowJudged ctx).tile ctx.tile).nextHeld (ctx.row + 1) = some r) :
    s.rowDone ctx = (s.rowJudged ctx).startRow ctx r := by
  have next : s.rowDone ctx = ((s.rowJudged ctx).nextRow ctx (ctx.row + 1)).take := by
    rw [State.rowDone, going]
    rfl
  rw [next, State.nextRow_of_held held, State.take_of_placing (State.startRow_spec _ _ _).1]

theorem State.rowDone_of_completed (going : ctx.stop = false)
    (last : ((s.rowJudged ctx).tile ctx.tile).nextHeld (ctx.row + 1) = none)
    (queue : ((s.rowJudged ctx).completePlacement ctx.tile).tiles.queue = []) :
    s.rowDone ctx = (s.rowJudged ctx).completePlacement ctx.tile := by
  have next : s.rowDone ctx = ((s.rowJudged ctx).nextRow ctx (ctx.row + 1)).take := by
    rw [State.rowDone, going]
    rfl
  rw [next, State.nextRow_of_done last, State.take_of_empty _ queue]

theorem State.rowDone_of_stopped (stop : ctx.stop = true) (queue : ((s.rowJudged ctx).stopTile ctx.tile).tiles.queue = []) :
    s.rowDone ctx = (s.rowJudged ctx).stopTile ctx.tile := by
  have next : s.rowDone ctx = ((s.rowJudged ctx).stopTile ctx.tile).take := by
    rw [State.rowDone, stop]
    rfl
  rw [next, State.take_of_empty _ queue]

/-- R122. The completion of a tile whose slot keeps another tile. -/
theorem State.completePlacement_of_held {n : Fin 40} {k : Fin 4} (owner : (s.tile n).owner = some k)
    (committed : (s.slot k).isCommitted = true) (mode : (s.slot k).photo.mode ≠ .settled)
    (first : ((s.slot k).entry (s.tile n).segment).isResolved = false) (other : ∃ m, m ≠ n ∧ m ∈ s.tilesOf k) :
    (s.completePlacement n).place = none
    ∧ (s.completePlacement n).mem = s.mem
    ∧ (s.completePlacement n).tiles.queue = s.tiles.queue.filter (fun u => decide (u ≠ n))
    ∧ ((s.completePlacement n).tile n).state = .free
    ∧ ((s.completePlacement n).slot k).entry (s.tile n).segment = .resolved .placed
    ∧ ((s.completePlacement n).slot k).totals = (s.slot k).totals.add { s.tile n with reached := (s.tile n).rows } := by
  generalize hv : (s.modTile n fun x => { x with reached := x.rows }) = v
  have vtile : v.tile n = { s.tile n with reached := (s.tile n).rows } := by
    rw [← hv, State.tile_modTile, if_pos rfl]
  have vslot : v.slot k = s.slot k := by
    rw [← hv]
    rfl
  have vqueue : v.tiles.queue = s.tiles.queue := by
    rw [← hv]
    rfl
  have vmem : v.mem = s.mem := by
    rw [← hv]
    rfl
  have vtiles : v.tilesOf k ≠ [] ∧ ∃ m, m ≠ n ∧ m ∈ v.tilesOf k := by
    obtain ⟨m, apart, mem⟩ := other
    have there : m ∈ v.tilesOf k := by
      rw [State.mem_tilesOf, ← hv, State.tile_modTile, if_neg (Ne.symm apart)]
      exact State.mem_tilesOf.1 mem
    exact ⟨List.ne_nil_of_mem there, m, apart, there⟩
  obtain ⟨m, apart, mem⟩ := vtiles.2
  have completed : s.completePlacement n =
      { State.resolve id (v.leaveStore n .placed) k (s.tile n).segment .placed with place := none } := by
    rw [State.completePlacement, hv]
    dsimp only
    rw [vtile]
    dsimp only
    rw [owner]
  generalize hw : v.leaveStore n .placed = w at completed
  have wslot : w.slot k = { s.slot k with totals := (s.slot k).totals.add { s.tile n with reached := (s.tile n).rows } } := by
    rw [← hw, State.leaveStore_slot, vtile, vslot, if_pos owner]
  have wheld : w.tilesOf k ≠ [] := by
    refine List.ne_nil_of_mem (a := m) ?_
    rw [State.mem_tilesOf, ← hw, State.leaveStore_tile, if_neg (Ne.symm apart)]
    exact State.mem_tilesOf.1 mem
  obtain ⟨side, st, timer, resolved⟩ := State.resolve_of_held id .placed (s := w) (k := k) (g := (s.tile n).segment)
    (by rw [wslot]; exact first) (by rw [wslot]; exact committed) wheld (by rw [wslot]; exact mode)
  have tiles : (s.completePlacement n).tiles = w.tiles := by
    rw [completed, resolved]
    exact side.tilesSame.tiles
  have slot : (s.completePlacement n).slot k =
      { (w.slot k).resolve (s.tile n).segment .placed with state := st, timer := timer } := by
    rw [completed, resolved]
    exact (State.slot_setSlot ..).trans (if_pos rfl)
  refine ⟨by rw [completed], ?_, ?_, ?_, ?_, ?_⟩
  · rw [completed, resolved]
    refine (congrArg State.mem side.rest :).trans ?_
    refine Eq.trans ?_ vmem
    rw [← hw]
    exact (congrArg State.mem (v.leaveStore_rest n .placed) :)
  · rw [tiles, ← hw, State.leaveStore_tiles, vqueue]
  · rw [State.tile, tiles, ← hw]
    show ((v.leaveStore n .placed).tile n).state = _
    rw [State.leaveStore_tile, if_pos rfl]
    rfl
  · rw [slot]
    exact (ExpSlot.entry_setEntry ..).trans (if_pos rfl)
  · rw [slot, wslot]
    rfl

end

/-- Settles O43: the next held row, the leaving of a completed tile, and the stop of an abandoned one. -/
theorem rowsCompleteAndTilesLeave : Obligations.RowsCompleteAndTilesLeave := by
  intro s ctx idle place flight access queue u x
  obtain ⟨rest, -, -⟩ := s.freeStore.judgeRow_rest ctx
  obtain ⟨y, judged⟩ := s.freeStore.judgeRow_tiles ctx
  have step := exec_placementRowDone idle place flight access
  generalize hv : s.freeStore.rowJudged ctx = v
  have vtile : v.tile ctx.tile = { x with reached := ctx.row + 1 } := by
    rw [← hv]
    exact (State.tile_modTile ..).trans (if_pos rfl)
  have vmem : v.mem = u.mem := by
    rw [← hv]
    rfl
  have vslots : v.slots = s.slots := by
    rw [← hv]
    exact (congrArg State.slots rest :)
  have vslot : ∀ k, v.slot k = s.slot k := fun k => by rw [State.slot, State.slot, vslots]
  have vqueue : v.tiles.queue = [] := by
    rw [← hv]
    exact (congrArg TileStore.queue judged :).trans queue
  have vother : ∀ m, m ≠ ctx.tile → v.tile m = s.tile m := fun m apart => by
    rw [← hv, State.rowJudged, State.tile_modTile, if_neg (Ne.symm apart), State.tile, judged]
    exact Vector.getElem_set_ne ctx.tile.isLt m.isLt fun same => apart (Fin.ext same.symm)
  refine ⟨fun r going held => ?_, fun k going last owner committed mode inStore other => ?_, fun stop placing => ?_⟩
  · have done := State.rowDone_of_started (s := s.freeStore) (r := r) going (by rw [hv, vtile]; exact held)
    rw [hv] at done
    rw [done] at step
    obtain ⟨started, after, -⟩ := v.startRow_spec ctx r
    obtain ⟨phase, final, -⟩ := State.settled_granted_place started
    have same := TilesSame.settled_granted (v.startRow ctx r)
    refine ⟨_, _, step, final, rfl, rfl, rfl, rfl, rfl, ?_, ?_, ?_⟩
    · rw [State.settled_granted_mem, (congrArg State.mem after :), ← vmem]
      rfl
    · rw [same.tile, State.tile, (congrArg State.tiles after :)]
      refine ((State.tile_setTile ..).trans (if_pos rfl)).trans ?_
      rw [vtile]
    · rw [same.slots, (congrArg State.slots after :), ← vslots]
      rfl
  · have spec := State.completePlacement_of_held (s := v) (n := ctx.tile) (k := k) (by rw [vtile]; exact owner)
      (by rw [vslot]; exact committed) (by rw [vslot]; exact mode)
      (by rw [vslot, vtile]; exact Entry.not_isResolved_iff.2 fun w => by rw [inStore]; exact nofun)
      (by
        obtain ⟨m, apart, mem⟩ := other
        refine ⟨m, apart, ?_⟩
        rw [State.mem_tilesOf, vother m apart]
        exact State.mem_tilesOf.1 mem)
    obtain ⟨gone, mem, queue', free, entry, totals⟩ := spec
    have done := State.rowDone_of_completed (s := s.freeStore) going (by rw [hv, vtile]; exact last) (by
      rw [hv, queue', vqueue]
      rfl)
    rw [hv] at done
    rw [done] at step
    have same := TilesSame.settled_granted (v.completePlacement ctx.tile)
    refine ⟨_, step, State.settled_granted_idle gone, ?_, ?_, ?_, ?_⟩
    · rw [State.settled_granted_mem, mem, vmem]
    · rw [same.tile]
      exact free
    · rw [same.slot]
      rw [vtile] at entry
      exact entry
    · rw [same.slot, totals, vslot, vtile]
  · have tiles := v.discardTile_tiles ctx.tile .abandoned
    have done := State.rowDone_of_stopped (s := s.freeStore) stop (by
      rw [hv]
      refine (congrArg TileStore.queue tiles :).trans ?_
      dsimp only
      rw [vqueue]
      rfl)
    rw [hv] at done
    rw [done] at step
    have same := TilesSame.settled_granted (v.stopTile ctx.tile)
    refine ⟨_, step, State.settled_granted_idle rfl, ?_, ?_⟩
    · rw [State.settled_granted_mem, ← vmem]
      exact (congrArg State.mem (v.discardTile_rest ctx.tile .abandoned) :)
    · rw [same.tile]
      show ((v.discardTile ctx.tile .abandoned).tile ctx.tile).state = _
      rw [State.discardTile_tile, if_pos rfl]
      rfl

end Sys2Proof.Machine
end

section
/-!
PROOF. The intake's row write (R81).
-/

namespace Sys2Proof.Machine

section
variable {s : State} {l : Fin 12}

theorem State.port_setBuffer_self (s : State) (l : Fin 12) (items : List BufItem) :
    ((s.setBuffer l items).port l).buffer = items := by
  rw [State.setBuffer, State.port_modPort, if_pos rfl]

theorem State.measureRun_of_idle (idle : s.measure l = []) : s.measureRun l = s := State.measureLoop_of_idle idle _

/-- A link with no close under way goes on with the intake. -/
theorem State.resumeLink_of_idle (idle : s.measure l = []) : s.resumeLink l = s.intakeRun l := by
  rw [State.resumeLink, State.measureRun_of_idle idle]

theorem State.intakeRun_of_free (idle : s.measure l = []) (free : s.holdsClaim (.intake l) = false) :
    s.intakeRun l = s.intakeItems l (s.port l).buffer := if_pos ⟨idle, free⟩

/-- A row whose slot rows are all written leaves the buffer. -/
theorem State.intakeItems_of_written (row : Nat) (rest : List BufItem) (s : State) :
    s.intakeItems l (.row { index := row, slots := [] } :: rest) = s.intakeItems l rest := by
  rw [State.intakeItems]
  rfl

theorem State.intakeItems_nil (s : State) : s.intakeItems l [] = s.setBuffer l [] := by
  rw [State.intakeItems]

/-- R81. The tile after a slot row is written in it. -/
def Tile.withRow (x : Tile) (row : Nat) (px : List CalPixel) : Tile :=
  { x with
    held := x.held ++ [row], received := x.received + 1
    saturated := satAdd Config.sat32 x.saturated (countSaturated px)
    defect := satAdd Config.sat32 x.defect (countDefect px) }

theorem State.writeRow_of_live {b : BufRow} {rest : List BufItem} {sr : SlotRow} {more : List SlotRow} {n : Fin 40} {r : CalRec}
    (buffer : (s.port l).buffer = .row b :: rest) (slots : b.slots = sr :: more) (live : s.fillingTile (segmentOf l sr.slot) = some n)
    (cal : (s.tile n).cal = some r) :
    s.writeRow l =
      State.setTile { s.setBuffer l (.row { b with slots := more } :: rest) with
          mem := s.mem.setTileRow n b.index (s.calibrateRow (s.tile n) r b.index sr) }
        n ((s.tile n).withRow b.index (s.calibrateRow (s.tile n) r b.index sr)) := by
  unfold State.writeRow
  rw [buffer]
  dsimp only
  rw [slots]
  dsimp only
  split
  · next absent => exact nomatch (show s.fillingTile (segmentOf l sr.slot) = none from absent).symm.trans live
  · next m found =>
    obtain rfl : m = n := Option.some.inj ((show s.fillingTile (segmentOf l sr.slot) = some m from found).symm.trans live)
    split
    · next absent => exact nomatch (show (s.tile m).cal = none from absent).symm.trans cal
    · next q found =>
      obtain rfl : q = r := Option.some.inj ((show (s.tile m).cal = some q from found).symm.trans cal)
      rfl

/-- Rows of the tile area are kept apart. -/
theorem Memory.tileRow_setTileRow_of {m : Memory} {t u : Fin 40} {r q : Nat} (px : List CalPixel) (wf : m.wf = true) (hr : r < 2048)
    (hq : q < 2048) : (m.setTileRow t r px).tileRow u q = if u = t ∧ q = r then px else m.tileRow u q := by
  rw [Memory.tileRow_setTileRow _ _ _ _ _ _ wf]
  refine if_congr ?_ rfl rfl
  simp only [tileRowKey, Fin.ext_iff]
  omega

theorem exec_intakeRowWriteDone (idle : s.host.requests = []) (access : s.store.access = some (.intake l)) :
    exec .intakeRowWriteDone s =
      .next (State.outboundGrant (State.settle ((s.freeStore.writeRow l).resumeLink l))) := by
  have started : execIntakeRowWriteDone s = .next (s.intakeDone l).pump := by
    rw [execIntakeRowWriteDone, access]
  refine started.trans (congrArg Host.Outcome.next (State.settle_pump ?_))
  have host : (s.freeStore.writeRow l).host = s.host := (congrArg State.host (s.freeStore.writeRow_rest l) :)
  rw [(Cascade.resumeLink _ l).requests, host]
  exact idle

end

/-- Settles O36: the calibrated row, the tile's counts, and the emptied buffer. -/
theorem intakeWritesTheCalibratedRow : Obligations.IntakeWritesTheCalibratedRow := by
  intro s l row sr n r idle wf access measuring below buffer live cal unclaimed x px
  have row_eq : s.freeStore.calibrateRow x r row sr = px := rfl
  have written := State.writeRow_of_live (s := s.freeStore) (l := l) buffer rfl live cal
  have step := exec_intakeRowWriteDone idle access
  generalize hu : s.freeStore.writeRow l = u at step
  rw [written] at hu
  have tiles : u.tiles = (s.setTile n (x.withRow row px)).tiles := by rw [← hu, ← row_eq]; rfl
  have mem : u.mem = s.mem.setTileRow n row px := by rw [← hu, ← row_eq]; rfl
  have slots : u.slots = s.slots := by rw [← hu]; rfl
  have measure : u.measure l = [] := by rw [← hu]; exact measuring
  have free : u.holdsClaim (.intake l) = false := by
    rw [← hu]
    exact decide_eq_false fun h => h.elim nofun unclaimed
  have port : (u.port l).buffer = [.row { index := row, slots := [] }] := by
    rw [← hu]
    exact State.port_setBuffer_self _ _ _
  have resumed : u.resumeLink l = u.setBuffer l [] := by
    rw [State.resumeLink_of_idle measure, State.intakeRun_of_free measure free, port, State.intakeItems_of_written,
      State.intakeItems_nil]
  rw [resumed] at step
  have same := TilesSame.settled_granted (u.setBuffer l [])
  have settled := Settled.settle (u.setBuffer l [])
  have final : (u.setBuffer l []).settle.outboundGrant.mem = s.mem.setTileRow n row px := by
    rw [(congrArg State.mem (Outbound.outboundGrant _).rest :), (congrArg State.mem settled.rest :), ← mem]
    rfl
  have tile : ∀ m, (u.setBuffer l []).settle.outboundGrant.tile m = if n = m then x.withRow row px else s.tile m := fun m => by
    rw [same.tile]
    show u.tile m = _
    rw [State.tile, tiles]
    exact State.tile_setTile ..
  refine ⟨_, step, ?_, ?_, ?_, ?_, fun m i inside other => ?_, ?_, ?_, fun m apart => ?_⟩
  · rw [final, Memory.tileRow_setTileRow_of px wf below below, if_pos ⟨rfl, rfl⟩]
  · rw [tile, if_pos rfl, Tile.withRow, satAdd_eq_min, satAdd_eq_min]
    rfl
  · rw [State.settled_granted_port]
    exact State.port_setBuffer_self _ _ _
  · rw [same.slots, ← slots]
    rfl
  · rw [final, Memory.tileRow_setTileRow_of px wf below inside, if_neg]
    rintro ⟨rfl, rfl⟩
    exact other.elim (fun h => h rfl) fun h => h rfl
  · rw [final]
    rfl
  · rw [final]
    rfl
  · rw [tile, if_neg (Ne.symm apart)]

end Sys2Proof.Machine
end

section
/-!
PROOF. What the routing, the taking and the leaving of tiles do to the tiles and the slots of others: a tile without an owner can only
leave, no tile starts to fill, and a slot that has ended stays empty.
-/

namespace Sys2Proof.Machine

/-! ## The relations -/

/-- A tile's record may become `y`: without an owner it can only leave, and it is filling only where it was. -/
structure TileMove (x y : Tile) : Prop where
  unowned : x.owner = none → y = x ∨ y = .empty
  filling : y.state = .filling →
    x.state = .filling ∧ x.owner = y.owner ∧ x.segment = y.segment ∧ (y.missing = none → x.missing = none)

theorem TileMove.refl (x : Tile) : TileMove x x := ⟨fun _ => .inl rfl, fun h => ⟨h, rfl, rfl, id⟩⟩

theorem TileMove.empty (x : Tile) : TileMove x .empty := ⟨fun _ => .inr rfl, nofun⟩

theorem TileMove.trans {x y z : Tile} (a : TileMove x y) (b : TileMove y z) : TileMove x z where
  unowned free := by
    rcases a.unowned free with rfl | rfl
    · exact b.unowned free
    · exact .inr ((b.unowned rfl).elim id id)
  filling now := by
    obtain ⟨before, owner, segment, missing⟩ := b.filling now
    obtain ⟨first, owner', segment', missing'⟩ := a.filling before
    exact ⟨first, owner'.trans owner, segment'.trans segment, missing' ∘ missing⟩

theorem TileMove.shut {x y : Tile} {k : Fin 4} (owner : x.owner = some k) (shut : y.state ≠ .filling) : TileMove x y :=
  ⟨fun free => (nomatch free.symm.trans owner), fun h => absurd h shut⟩

/-- A tile with an owner keeps its state, its owner and its segment, and is not closed again. -/
theorem TileMove.kept {x y : Tile} {k : Fin 4} (owner : x.owner = some k) (state : y.state = x.state) (same : y.owner = x.owner)
    (segment : y.segment = x.segment) (missing : y.missing = none → x.missing = none) : TileMove x y :=
  ⟨fun free => (nomatch free.symm.trans owner), fun h => ⟨state.symm.trans h, same.symm, segment.symm, missing⟩⟩

/-- A slot's record may become `y`. -/
structure SlotMove (x y : ExpSlot) : Prop where
  free : x.state = .free → y.state = .free
  opened : x.state = .opened → y.state = .opened ∧ y.refs = x.refs

/-- An ended slot: empty, with no tile filling for it. -/
def State.Ended (s : State) (k : Fin 4) : Prop := s.slot k = .empty ∧ ∀ n, (s.tile n).owner = some k → (s.tile n).state ≠ .filling

/-- What the moves of tiles and their resolutions keep, but for the emptiness of the slots of `e`. -/
structure TileFlow (e : Fin 4 → Prop) (s t : State) : Prop where
  tile : ∀ n, TileMove (s.tile n) (t.tile n)
  free : ∀ k, (s.slot k).state = .free → (t.slot k).state = .free
  opened : ∀ k, (s.slot k).state = .opened → (t.slot k).state = .opened
  carry : (∀ k, (s.slot k).isCommitted = false) → t.carry = s.carry
  empty : ∀ k, ¬e k → s.Ended k → t.slot k = .empty
  zeroQueue : t.store.zeroQueue = s.store.zeroQueue
  shut : s.canvas = .idle → t.canvas = .idle ∧ t.drain = s.drain ∧ (t.holdsClaim .drainRead = true → s.holdsClaim .drainRead = true)
  placing : s.canvas = .idle → (∀ ctx, s.place = some ctx → ctx.ended = true) → ∀ ctx, t.place = some ctx → ctx.ended = true

/-- The same, where no measurement moves on. -/
structure Routing (e : Fin 4 → Prop) (s t : State) : Prop extends TileFlow e s t where
  measuring : t.measuring = s.measuring
  refs : ∀ k, (s.slot k).state = .opened → (t.slot k).refs = (s.slot k).refs

section
variable {e : Fin 4 → Prop} {s t u : State}

theorem TileFlow.ended (h : TileFlow e s t) {k : Fin 4} (other : ¬e k) (ended : s.Ended k) : t.Ended k := by
  refine ⟨h.empty k other ended, fun n owner now => ?_⟩
  obtain ⟨before, same, -⟩ := (h.tile n).filling now
  exact ended.2 n (same.trans owner) before

theorem TileFlow.refl (e : Fin 4 → Prop) (s : State) : TileFlow e s s :=
  ⟨fun _ => .refl _, fun _ => id, fun _ => id, fun _ => rfl, fun _ _ h => h.1, rfl, fun h => ⟨h, rfl, id⟩, fun _ h => h⟩

theorem ExpSlot.not_isCommitted_of_free {x : ExpSlot} (free : x.state = .free) : x.isCommitted = false :=
  ExpSlot.not_isCommitted_iff.2 (by rw [free]; decide)

theorem TileFlow.uncommitted (h : TileFlow e s t) {k : Fin 4} (before : (s.slot k).isCommitted = false) :
    (t.slot k).isCommitted = false := by
  rw [ExpSlot.not_isCommitted_iff, List.mem_pair] at before
  rcases before with free | opened
  · exact ExpSlot.not_isCommitted_of_free (h.free k free)
  · exact ExpSlot.not_isCommitted_of_opened (h.opened k opened)

theorem TileFlow.trans (a : TileFlow e s t) (b : TileFlow e t u) : TileFlow e s u where
  tile n := (a.tile n).trans (b.tile n)
  free k h := b.free k (a.free k h)
  opened k h := b.opened k (a.opened k h)
  carry h := (b.carry fun k => a.uncommitted (h k)).trans (a.carry h)
  empty k other h := b.empty k other (a.ended other h)
  zeroQueue := b.zeroQueue.trans a.zeroQueue
  shut h := by
    obtain ⟨idle, drain, claims⟩ := a.shut h
    obtain ⟨idle', drain', claims'⟩ := b.shut idle
    exact ⟨idle', drain'.trans drain, claims ∘ claims'⟩
  placing h ended := b.placing (a.shut h).1 (a.placing h ended)

theorem Routing.refl (e : Fin 4 → Prop) (s : State) : Routing e s s := ⟨.refl e s, rfl, fun _ _ => rfl⟩

theorem Routing.trans (a : Routing e s t) (b : Routing e t u) : Routing e s u :=
  ⟨a.toTileFlow.trans b.toTileFlow, b.measuring.trans a.measuring, fun k h => (b.refs k (a.opened k h)).trans (a.refs k h)⟩

/-- A slot that has not ended needs no exception. -/
theorem TileFlow.discharge (h : TileFlow e s t) (live : ∀ k, e k → ¬s.Ended k) (f : Fin 4 → Prop) : TileFlow f s t :=
  { h with empty := fun k _ ended => h.empty k (fun he => live k he ended) ended }

theorem Routing.discharge (h : Routing e s t) (live : ∀ k, e k → ¬s.Ended k) (f : Fin 4 → Prop) : Routing f s t :=
  ⟨h.toTileFlow.discharge live f, h.measuring, h.refs⟩

theorem Routing.foldl {α : Type} (f : State → α → State) (step : ∀ s a, Routing e s (f s a)) :
    ∀ (l : List α) (s : State), Routing e s (l.foldl f s)
  | [], s => .refl e s
  | a :: l, s => (step s a).trans (Routing.foldl f step l _)

/-! ## Single steps -/

/-- Nothing of the tiles, the slots or the canvas changes. -/
theorem Routing.frame (tiles : t.tiles.slots = s.tiles.slots) (slots : t.slots = s.slots) (carry : t.carry = s.carry)
    (measuring : t.measuring = s.measuring) (canvas : t.canvas = s.canvas) (drain : t.drain = s.drain)
    (zeroQueue : t.store.zeroQueue = s.store.zeroQueue)
    (claims : t.holdsClaim .drainRead = true → s.holdsClaim .drainRead = true)
    (placing : s.canvas = .idle → (∀ ctx, s.place = some ctx → ctx.ended = true) → ∀ ctx, t.place = some ctx → ctx.ended = true) :
    Routing e s t := by
  have tile : ∀ n, t.tile n = s.tile n := fun n => by rw [State.tile, State.tile, tiles]
  have slot : ∀ k, t.slot k = s.slot k := fun k => by rw [State.slot, State.slot, slots]
  exact ⟨⟨fun n => by rw [tile]; exact .refl _, fun k h => by rwa [slot], fun k h => by rwa [slot], fun _ => carry,
    fun k _ h => by rw [slot]; exact h.1, zeroQueue, fun h => ⟨canvas.trans h, drain, claims⟩, placing⟩, measuring, fun k _ => by rw [slot]⟩

theorem Routing.raise (s : State) (x : NoticeKind) (content : List Byte) : Routing e s (s.raise x content) :=
  .frame rfl rfl rfl rfl rfl rfl rfl id fun _ h => h

theorem Routing.claim (s : State) {c : Claim} (other : c ≠ .drainRead) : Routing e s (s.claim c) :=
  .frame rfl rfl rfl rfl rfl rfl (State.claim_zeroQueue s c)
    (fun held => (State.holdsClaim_claim.1 held).resolve_left (Ne.symm other)) fun _ h => h

theorem Routing.setQueue (s : State) (queue : List (Fin 40)) : Routing e s { s with tiles := { s.tiles with queue := queue } } :=
  .frame rfl rfl rfl rfl rfl rfl rfl id fun _ h => h

theorem Routing.setPlace (s : State) (place : Option PlaceCtx)
    (ended : s.canvas = .idle → ∀ ctx, place = some ctx → ctx.ended = true) : Routing e s { s with place := place } :=
  .frame rfl rfl rfl rfl rfl rfl rfl id fun idle _ => ended idle

theorem Routing.dropPlace (s : State) : Routing e s { s with place := none } := .setPlace s none fun _ _ h => nomatch h

theorem Routing.setTile {n : Fin 40} {y : Tile} (move : TileMove (s.tile n) y) : Routing e s (s.setTile n y) := by
  refine ⟨⟨fun m => ?_, fun _ => id, fun _ => id, fun _ => rfl, fun _ _ h => h.1, rfl, fun h => ⟨h, rfl, id⟩, fun _ h => h⟩, rfl, fun _ _ => rfl⟩
  rw [State.tile_setTile]
  split
  · next same => exact same ▸ move
  · exact .refl _

theorem Routing.modTile {n : Fin 40} {f : Tile → Tile} (move : TileMove (s.tile n) (f (s.tile n))) : Routing e s (s.modTile n f) :=
  .setTile move

theorem Routing.setSlot {k : Fin 4} {y : ExpSlot} (move : SlotMove (s.slot k) y) (live : ¬e k → s.slot k = .empty → y = .empty) :
    Routing e s (s.setSlot k y) := by
  refine ⟨⟨fun _ => .refl _, fun j h => ?_, fun j h => ?_, fun _ => rfl, fun j other h => ?_, rfl, fun h => ⟨h, rfl, id⟩, fun _ h => h⟩, rfl,
    fun j h => ?_⟩
  · rw [State.slot_setSlot]
    split
    · next same => exact move.free (same ▸ h)
    · exact h
  · rw [State.slot_setSlot]
    split
    · next same => exact (move.opened (same ▸ h)).1
    · exact h
  · rw [State.slot_setSlot]
    split
    · next same => exact live (same ▸ other) (same ▸ h.1)
    · exact h.1
  · rw [State.slot_setSlot]
    split
    · next same =>
      subst same
      exact (move.opened h).2
    · rfl

/-! ## The canvas side -/

theorem State.payCell_zeroQueue (placed : Bool) (s : State) (i : Nat) : (State.payCell placed s i).store.zeroQueue = s.store.zeroQueue := by
  unfold State.payCell
  split
  · rfl
  · dsimp only
    split
    · split
      · exact State.leaveWait_zeroQueue _ _
      · rfl
    · rfl

theorem State.payCells_zeroQueue (placed : Bool) (cells : List Nat) (s : State) :
    (s.payCells placed cells).store.zeroQueue = s.store.zeroQueue := by
  induction cells generalizing s with
  | nil => rfl
  | cons i cells ih => exact (ih _).trans (State.payCell_zeroQueue placed s i)

/-- No cell table, no payment. -/
theorem State.payCells_of_idle (placed : Bool) (cells : List Nat) (idle : s.canvas = .idle) : s.payCells placed cells = s := by
  induction cells with
  | nil => rfl
  | cons i cells ih =>
    have still : State.payCell placed s i = s := by
      rw [State.payCell, State.cell?, idle]
      rfl
    exact (congrArg (fun x => State.payCells x placed cells) still).trans ih

theorem Routing.payCells (s : State) (placed : Bool) (cells : List Nat) : Routing e s (s.payCells placed cells) := by
  have side := CanvasSide.payCells s placed cells
  refine ⟨⟨fun n => ?_, fun k h => ?_, fun k h => ?_, fun _ => (congrArg State.carry side.rest :), fun k _ h => ?_,
    s.payCells_zeroQueue placed cells, fun h => ?_, fun h ended => ?_⟩, side.tilesSame.measuring, fun k _ => ?_⟩
  · rw [side.tilesSame.tile]
    exact .refl _
  · rwa [side.slot]
  · rwa [side.slot]
  · rw [side.slot]
    exact h.1
  · rw [State.payCells_of_idle placed cells h]
    exact ⟨h, rfl, id⟩
  · rw [State.payCells_of_idle placed cells h]
    exact ended
  · rw [side.slot]

/-! ## Settling and resolution -/

theorem Routing.recordResolution {k : Fin 4} (s : State) (g : Fin 96) (why : Reason) (exempt : e k) :
    Routing e s (s.recordResolution k g why) := by
  unfold State.recordResolution
  dsimp only
  split
  · exact .refl e s
  · refine .trans (.setSlot (y := (s.slot k).resolve g why) ⟨id, fun h => ⟨h, rfl⟩⟩ fun other => absurd exempt other) ?_
    split
    · split
      · exact .payCells _ _ _
      · exact .refl e _
    · exact .refl e _

/-- A settling moves a committed slot alone. -/
theorem Routing.settleSlot (s : State) (k : Fin 4) : Routing e s (s.settleSlot k) := by
  cases committed : (s.slot k).isCommitted with
  | false =>
    rw [State.settleSlot_of_uncommitted committed]
    exact .refl e s
  | true =>
    have move : ∀ y, SlotMove (s.slot k) y := fun y =>
      ⟨fun h => (nomatch (ExpSlot.not_isCommitted_of_free h).symm.trans committed),
        fun h => (nomatch (ExpSlot.not_isCommitted_of_opened h).symm.trans committed)⟩
    have live : ¬s.slot k = .empty := fun h => by
      rw [h] at committed
      cases committed
    have set : ∀ y, Routing e s (s.setSlot k y) := fun y => .setSlot (move y) fun _ h => absurd h live
    by_cases idle : (s.slot k).timer = .notStarted
    · rw [State.settleSlot_of_notStarted committed idle]
      exact set _
    · by_cases ended : (s.slot k).timer ≠ .running ∨ (s.slot k).awaits = false
      · rw [State.settleSlot_of_ended committed idle ended]
        split
        · exact set _
        · refine ⟨⟨(set .empty).tile, (set .empty).free, (set .empty).opened, fun all => ?_, (set .empty).empty, rfl, fun h => ⟨h, rfl, id⟩,
            fun _ h => h⟩, rfl, (set .empty).refs⟩
          rw [all k] at committed
          cases committed
      · rw [not_or, not_not, Bool.not_eq_false] at ended
        rw [State.settleSlot_of_running committed ended.1 ended.2]
        exact set _

/-- The tiles queued have owners, and keep them. -/
theorem Routing.queueTiles (tiles : List (Fin 40)) : ∀ {s : State}, (∀ n ∈ tiles, ∃ k, (s.tile n).owner = some k) →
    Routing e s (tiles.foldl State.queueTile s) := by
  induction tiles with
  | nil => exact fun _ => .refl e _
  | cons n tiles ih =>
    intro s owned
    obtain ⟨k, owner⟩ := owned n List.mem_cons_self
    have one : Routing e s (s.queueTile n) := by
      refine .trans (.modTile (n := n) (f := fun x => { x with state := .queued, holdOrder := none }) (.shut owner nofun)) ?_
      exact .frame rfl rfl rfl rfl rfl rfl rfl id fun _ h => h
    refine one.trans (ih fun m mem => ?_)
    obtain ⟨j, kept⟩ := owned m (List.mem_cons_of_mem _ mem)
    refine ⟨j, ?_⟩
    show ((s.modTile n fun x => { x with state := .queued, holdOrder := none }).tile m).owner = _
    rw [State.tile_modTile]
    split
    · next same => exact same ▸ kept
    · exact kept

variable {taker : State → State}

theorem Routing.freezeSlot (taking : ∀ s, Routing e s (taker s)) (s : State) (k : Fin 4) (cause : FreezeCause) (at_ : Option (Fin 96)) :
    Routing e s (s.freezeSlot taker k cause at_) := by
  unfold State.freezeSlot
  dsimp only
  split
  · next can =>
    have live : (s.slot k).state ≠ .free := (of_decide_eq_true can).1
    have frozen : Routing e s (s.setSlot k { s.slot k with photo := { (s.slot k).photo with frozen := true } }) :=
      .setSlot ⟨id, fun h => ⟨h, rfl⟩⟩ fun _ h => absurd (congrArg ExpSlot.state h) live
    refine (frozen.trans ((Routing.queueTiles _ fun n mem => ⟨k, ?_⟩).trans (taking _))).trans (.raise _ _ _)
    exact of_decide_eq_true (List.mem_filter.1 mem).2
  · exact .refl e s

theorem Routing.exhaustedTest (taking : ∀ s, Routing e s (taker s)) (s : State) (k : Fin 4) : Routing e s (s.exhaustedTest taker k) := by
  unfold State.exhaustedTest
  dsimp only
  split
  · exact .freezeSlot taking s k _ _
  · exact .refl e s

theorem Routing.resolve (taking : ∀ s, Routing e s (taker s)) (s : State) {k : Fin 4} (g : Fin 96) (why : Reason) (exempt : e k) :
    Routing e s (s.resolve taker k g why) := by
  unfold State.resolve
  split
  · exact .refl e s
  · exact ((Routing.recordResolution s g why exempt).trans (.settleSlot _ k)).trans (.exhaustedTest taking _ k)

/-! ## Leaving -/

theorem Routing.leaveStore (s : State) (n : Fin 40) (o : TileOutcome) (exempt : ∀ k, (s.tile n).owner = some k → e k) :
    Routing e s (s.leaveStore n o) := by
  unfold State.leaveStore
  dsimp only
  have left : ∀ u : State, u.tile n = s.tile n → Routing e u (State.setTile { u.raise .tileReport ((s.tile n).report n o) with
      tiles := { u.tiles with queue := u.tiles.queue.filter (fun m => decide (m ≠ n)),
                              holding := u.tiles.holding.filter (fun m => decide (m ≠ n)) } } n .empty) := fun u _ => by
    refine .trans ?_ (.setTile (TileMove.empty _))
    exact .frame rfl rfl rfl rfl rfl rfl rfl id fun _ h => h
  split
  · next k owner =>
    refine .trans (.setSlot (y := { s.slot k with totals := (s.slot k).totals.add (s.tile n) }) ⟨id, fun h => ⟨h, rfl⟩⟩ fun other => ?_)
      (left _ rfl)
    exact absurd (exempt k owner) other
  · exact left s rfl

/-! ## Taking -/

variable {ctx : PlaceCtx} {k : Fin 4}

theorem Routing.startRow (owner : (s.tile ctx.tile).owner = some k) (ended : s.canvas = .idle → ctx.ended = true) (row : Nat) :
    Routing e s (s.startRow ctx row) := by
  obtain ⟨place, rest, -⟩ := s.startRow_spec ctx row
  have reached : Routing e s (s.setTile ctx.tile { s.tile ctx.tile with reached := row }) :=
    .setTile (.kept owner rfl rfl rfl id)
  refine reached.trans (.frame ?_ ?_ ?_ ?_ ?_ ?_ ?_ (fun held => ?_) fun idle _ c hc => ?_)
  · exact (congrArg (fun x : State => x.tiles.slots) rest :)
  · exact (congrArg State.slots rest :)
  · exact (congrArg State.carry rest :)
  · exact (congrArg State.measuring rest :)
  · exact (congrArg State.canvas rest :)
  · exact (congrArg State.drain rest :)
  · rw [State.startRow_eq]
    split
    · exact State.claim_zeroQueue _ _
    · rfl
  · rw [State.startRow_eq] at held
    split at held
    · exact (State.holdsClaim_claim.1 held).resolve_left nofun
    · exact held
  · rw [place] at hc
    cases hc
    exact ended idle

theorem Routing.completePlacement {n : Fin 40} (owner : (s.tile n).owner = some k) (exempt : e k) :
    Routing e s (s.completePlacement n) := by
  have reached : Routing e s (s.modTile n fun x => { x with reached := x.rows }) := .modTile (.kept owner rfl rfl rfl id)
  have still : ((s.modTile n fun x => { x with reached := x.rows }).tile n).owner = some k := by
    rw [State.tile_modTile, if_pos rfl]
    exact owner
  unfold State.completePlacement
  dsimp only
  refine .trans ?_ (.dropPlace _)
  refine .trans (reached.trans (.leaveStore _ n .placed fun j h => ?_)) ?_
  · obtain rfl : k = j := Option.some.inj (still.symm.trans h)
    exact exempt
  · split
    · next j h =>
      obtain rfl : k = j := Option.some.inj (still.symm.trans h)
      exact .resolve (Routing.refl e) _ _ _ exempt
    · exact .refl e _

theorem Routing.nextRow (owner : (s.tile ctx.tile).owner = some k) (exempt : e k) (ended : s.canvas = .idle → ctx.ended = true)
    (row : Nat) : Routing e s (s.nextRow ctx row) := by
  unfold State.nextRow
  split
  · exact .startRow owner ended _
  · exact .completePlacement owner exempt

/-- A taken tile belongs to a slot with a plan for it, which has not ended. -/
theorem Routing.takeTile (s : State) (n : Fin 40) : Routing e s (s.takeTile n) := by
  cases owner : (s.tile n).owner with
  | none =>
    unfold State.takeTile
    dsimp only
    split
    · exact .refl e s
    · next k some => exact nomatch owner.symm.trans some
  | some k =>
    cases listed : (s.slot k).placementFor (s.tile n).segment with
    | none =>
      unfold State.takeTile
      dsimp only
      split
      · exact .refl e s
      · next j some =>
        obtain rfl : k = j := Option.some.inj (owner.symm.trans some)
        split
        · exact .refl e s
        · next p some => exact nomatch listed.symm.trans some
    | some p =>
      have live : ∀ j, j = k → ¬s.Ended j := fun j same ended => by
        subst same
        rw [ended.1] at listed
        cases listed
      rw [State.takeTile_of_listed owner listed]
      refine Routing.discharge (e := fun j => j = k) ?_ live e
      refine .trans (.trans (.setTile (n := n) (y := { s.tile n with state := .placing }) (.shut owner nofun)) ?_)
        (.nextRow (e := fun j => j = k) (k := k) ?_ rfl ?_ 0)
      · exact .setPlace _ _ fun idle ctx h => by
          cases h
          exact decide_eq_true (congrArg Canvas.state idle)
      · show ((s.setTile n _).tile n).owner = _
        rw [State.tile_setTile, if_pos rfl]
        exact owner
      · exact fun idle => decide_eq_true (congrArg Canvas.state idle)

theorem Routing.takeTiles (fuel : Nat) : ∀ s : State, Routing e s (s.takeTiles fuel) := by
  induction fuel with
  | zero => exact Routing.refl e
  | succ fuel ih =>
    intro s
    unfold State.takeTiles
    split
    · exact ((Routing.setQueue s _).trans (.takeTile _ _)).trans (ih _)
    · exact .refl e s
    · exact .refl e s

theorem Routing.take (s : State) : Routing e s s.take := .takeTiles 41 s

end

end Sys2Proof.Machine
end

section
/-!
PROOF. What the measurement of a link, the close of its tiles and its intake do to the tiles and the slots of others.
-/

namespace Sys2Proof.Machine

section
variable {e : Fin 4 → Prop} {s t : State}

theorem TileFlow.setSlot {k : Fin 4} {y : ExpSlot} (state : y.state = (s.slot k).state) (live : s.slot k ≠ .empty) :
    TileFlow e s (s.setSlot k y) := by
  have move : ∀ j, ((s.setSlot k y).slot j).state = (s.slot j).state := fun j => by
    rw [State.slot_setSlot]
    split
    · next same => exact same ▸ state
    · rfl
  refine ⟨fun _ => .refl _, fun j h => (move j).trans h, fun j h => (move j).trans h, fun _ => rfl, fun j _ h => ?_, rfl,
    fun h => ⟨h, rfl, id⟩, fun _ h => h⟩
  rw [State.slot_setSlot]
  split
  · next same => exact absurd h.1 (same ▸ live)
  · exact h.1

theorem TileFlow.setMeasure (s : State) (l : Fin 12) (m : List Measuring) : TileFlow e s (s.setMeasure l m) :=
  ⟨fun _ => .refl _, fun _ => id, fun _ => id, fun _ => rfl, fun _ _ h => h.1, rfl, fun h => ⟨h, rfl, id⟩, fun _ h => h⟩

theorem Routing.setBuffer (s : State) (l : Fin 12) (items : List BufItem) : Routing e s (s.setBuffer l items) :=
  .frame rfl rfl rfl rfl rfl rfl rfl id fun _ h => h

theorem TileFlow.foldl {α : Type} (f : State → α → State) (step : ∀ s a, TileFlow e s (f s a)) :
    ∀ (l : List α) (s : State), TileFlow e s (l.foldl f s)
  | [], s => .refl e s
  | a :: l, s => (step s a).trans (TileFlow.foldl f step l _)

/-! ## Measurement -/

theorem Routing.routeTile {n : Fin 40} {k : Fin 4} (owner : (s.tile n).owner = some k) : Routing e s (s.routeTile n k) := by
  unfold State.routeTile
  dsimp only
  refine .trans (.trans ?_ (.exhaustedTest Routing.take _ k)) (.settleSlot _ k)
  split
  · exact .modTile (f := fun y => { y with state := .heldPlan }) (.shut owner nofun)
  · split
    · refine .trans (.modTile (n := n) (f := fun x => { x with state := .heldScale, holdOrder := some s.tiles.holdCounter })
        (.shut owner nofun)) ?_
      exact .frame rfl rfl rfl rfl rfl rfl rfl id fun _ h => h
    · refine .trans (.queueTiles [n] fun m mem => ?_) (.take _)
      exact ⟨k, List.mem_singleton.1 mem ▸ owner⟩

/-- A recorded reference marks a slot that has references, and counts in a tile with an owner. -/
theorem TileFlow.recordRef {n : Fin 40} {k j : Fin 4} (owner : (s.tile n).owner = some j) (i : Nat) (r : RefResult) (f : Option F32) :
    TileFlow e s (s.recordRef n k i r f) := by
  have counted : ∀ (u : State) (g : Tile → Tile), u.tile n = s.tile n → (∀ y, (g y).state = y.state ∧ (g y).owner = y.owner
      ∧ (g y).segment = y.segment ∧ (g y).missing = y.missing) → TileFlow e u (u.modTile n g) := fun u g same keeps => by
    obtain ⟨state, own, segment, missing⟩ := keeps (u.tile n)
    exact (Routing.modTile (.kept (same.symm ▸ owner) state own segment fun h => missing.symm.trans h)).toTileFlow
  unfold State.recordRef
  split
  · exact .refl e s
  · next ref found =>
    have live : s.slot k ≠ .empty := fun h => by
      rw [h] at found
      cases found
    dsimp only
    split
    · have marked : ∀ y : ExpSlot, y.state = (s.slot k).state → TileFlow e s ((s.setSlot k y).modTile n fun y =>
          { y with accepted := y.accepted + 1 }) := fun y state =>
        (TileFlow.setSlot state live).trans (counted _ _ rfl fun _ => ⟨rfl, rfl, rfl, rfl⟩)
      split
      · refine (marked _ ?_).trans (Routing.freezeSlot Routing.take _ k _ _).toTileFlow
        rfl
      · exact marked _ rfl
    · refine (TileFlow.setSlot ?_ live).trans (counted _ _ rfl fun _ => ⟨rfl, rfl, rfl, rfl⟩)
      rfl

theorem TileFlow.measureStep (s : State) (l : Fin 12) : TileFlow e s (s.measureStep l).1 := by
  unfold State.measureStep
  split
  · exact .refl e s
  · next m rest _ =>
    dsimp only
    split
    · exact .setMeasure s l _
    · next k owner =>
      have judged : ∀ q i r f, TileFlow e s ((s.setMeasure l q).recordRef m.tile k i r f) := fun q i r f =>
        (TileFlow.setMeasure s l q).trans (.recordRef (s := s.setMeasure l q) owner i r f)
      split
      · exact (TileFlow.setMeasure s l rest).trans (Routing.routeTile (s := s.setMeasure l rest) owner).toTileFlow
      · split
        · exact .setMeasure s l _
        · split
          · dsimp only
            exact judged _ _ _ _
          · split
            · dsimp only
              exact judged _ _ _ _
            · exact (Routing.claim s (c := .box l) nofun).toTileFlow

theorem TileFlow.measureLoop (l : Fin 12) (fuel : Nat) : ∀ s : State, TileFlow e s (s.measureLoop l fuel) := by
  induction fuel with
  | zero => exact TileFlow.refl e
  | succ fuel ih =>
    intro s
    unfold State.measureLoop
    dsimp only
    split
    · exact (TileFlow.measureStep s l).trans (ih _)
    · exact .measureStep s l

theorem TileFlow.measureRun (s : State) (l : Fin 12) : TileFlow e s (s.measureRun l) := .measureLoop l _ s

/-! ## Discards -/

theorem State.withdrawWrite_zeroQueue (s : State) (g : Fin 96) : (s.withdrawWrite g).store.zeroQueue = s.store.zeroQueue := by
  unfold State.withdrawWrite
  split <;> rfl

theorem State.dropMeasuring_zeroQueue (s : State) (n : Fin 40) (l : Fin 12) :
    (s.dropMeasuring n l).store.zeroQueue = s.store.zeroQueue := by
  unfold State.dropMeasuring
  split
  · rfl
  · split <;> rfl

theorem State.withdraw_holds {s : State} {c d : Claim} (held : (s.withdraw d).holdsClaim c = true) : s.holdsClaim c = true := by
  by_cases same : c = d
  · subst same
    rw [State.not_holdsClaim_withdraw] at held
    cases held
  · rwa [State.holdsClaim_withdraw same] at held

theorem State.withdrawWrite_holds {s : State} {g : Fin 96} {c : Claim} (held : (s.withdrawWrite g).holdsClaim c = true) :
    s.holdsClaim c = true := by
  unfold State.withdrawWrite at held
  split at held
  · exact State.withdraw_holds held
  · exact held

theorem State.dropMeasuring_holds {s : State} {n : Fin 40} {l : Fin 12} {c : Claim} (held : (s.dropMeasuring n l).holdsClaim c = true) :
    s.holdsClaim c = true := by
  unfold State.dropMeasuring at held
  split at held
  · exact held
  · split at held
    · exact State.withdraw_holds held
    · exact held

theorem State.leaveStore_store (s : State) (n : Fin 40) (o : TileOutcome) : (s.leaveStore n o).store = s.store :=
  (congrArg State.store (s.leaveStore_rest n o) :)

theorem State.discardTile_zeroQueue (s : State) (n : Fin 40) (o : TileOutcome) :
    (s.discardTile n o).store.zeroQueue = s.store.zeroQueue := by
  unfold State.discardTile
  dsimp only
  split
  · split
    · rw [State.leaveStore_store]
      exact State.withdrawWrite_zeroQueue _ _
    · rw [State.leaveStore_store]
      exact State.dropMeasuring_zeroQueue _ _ _
  · rw [State.leaveStore_store]

theorem State.discardTile_holds {s : State} {n : Fin 40} {o : TileOutcome} {c : Claim} (held : (s.discardTile n o).holdsClaim c = true) :
    s.holdsClaim c = true := by
  unfold State.discardTile at held
  dsimp only at held
  rw [State.holdsClaim] at held
  split at held
  · split at held
    · rw [State.leaveStore_store] at held
      exact State.withdrawWrite_holds held
    · rw [State.leaveStore_store] at held
      exact State.dropMeasuring_holds held
  · rw [State.leaveStore_store] at held
    exact held

/-- A tile is discarded, whatever has been noted in it before. -/
theorem TileFlow.discardTile {u : State} {n : Fin 40} (o : TileOutcome) (tiles : ∀ m, m ≠ n → u.tile m = s.tile m)
    (rest : { u with tiles := s.tiles, store := s.store } = s) (zeroQueue : u.store.zeroQueue = s.store.zeroQueue)
    (claims : u.holdsClaim .drainRead = true → s.holdsClaim .drainRead = true)
    (exempt : ∀ k, (u.tile n).owner = some k → e k) : TileFlow e s (u.discardTile n o) := by
  have left := u.discardTile_rest n o
  have slots : u.slots = s.slots := (congrArg State.slots rest :)
  have slot : ∀ k, (u.discardTile n o).slot k = if (u.tile n).owner = some k then
      { s.slot k with totals := (s.slot k).totals.add (u.tile n) } else s.slot k := fun k => by
    rw [State.discardTile_slot, State.slot, slots]
    rfl
  have state : ∀ k, ((u.discardTile n o).slot k).state = (s.slot k).state := fun k => by
    rw [slot]
    split <;> rfl
  refine ⟨fun m => ?_, fun k h => (state k).trans h, fun k h => (state k).trans h, fun _ => ?_, fun k other h => ?_, ?_, fun h => ⟨?_, ?_, fun held => claims (State.discardTile_holds held)⟩,
    fun _ h => ?_⟩
  · rw [State.discardTile_tile]
    split
    · exact .empty _
    · next other =>
      rw [tiles m (Ne.symm other)]
      exact .refl _
  · exact (congrArg State.carry left :).trans (congrArg State.carry rest :)
  · rw [slot, if_neg fun owner => other (exempt k owner)]
    exact h.1
  · exact (State.discardTile_zeroQueue u n o).trans zeroQueue
  · exact ((congrArg State.canvas left :).trans (congrArg State.canvas rest :)).trans h
  · exact (congrArg State.drain left :).trans (congrArg State.drain rest :)
  · rw [show (u.discardTile n o).place = s.place from (congrArg State.place left :).trans (congrArg State.place rest :)]
    exact h

/-! ## The close (R82, R83) -/

theorem TileFlow.withdrawWrite (s : State) (g : Fin 96) : TileFlow e s (s.withdrawWrite g) := by
  have rest := s.withdrawWrite_rest g
  refine (Routing.frame ?_ ?_ ?_ ?_ ?_ ?_ (s.withdrawWrite_zeroQueue g) State.withdrawWrite_holds fun _ h => ?_).toTileFlow
  · exact (congrArg (fun x : State => x.tiles.slots) rest :)
  · exact (congrArg State.slots rest :)
  · exact (congrArg State.carry rest :)
  · exact (congrArg State.measuring rest :)
  · exact (congrArg State.canvas rest :)
  · exact (congrArg State.drain rest :)
  · rw [show (s.withdrawWrite g).place = s.place from (congrArg State.place rest :)]
    exact h

/-- A tile that closes has been filling for its slot, which has not ended. -/
theorem TileFlow.closeTile (l : Fin 12) (truncated : Bool) (s : State) (n : Fin 40) : TileFlow e s (s.closeTile l truncated n) := by
  have written := TilesSame.withdrawWrite s (s.tile n).segment
  unfold State.closeTile
  dsimp only
  split
  · next open_ =>
    generalize hu : (s.withdrawWrite (s.tile n).segment).setTile n ((s.tile n).closed truncated) = u
    have utile : ∀ m, u.tile m = if n = m then (s.tile n).closed truncated else s.tile m := fun m => by
      rw [← hu, State.tile_setTile, written.tile]
    have discarded : ∀ o, (∀ k, (s.tile n).owner = some k → e k) → TileFlow e s (u.discardTile n o) := fun o exempt => by
      refine .discardTile o (fun m other => ?_) ?_ ?_ ?_ fun k owner => ?_
      · rw [utile, if_neg (Ne.symm other)]
      · subst hu
        exact (congrArg (fun x : State => ({ x with tiles := s.tiles } : State)) (s.withdrawWrite_rest (s.tile n).segment) :)
      · subst hu
        exact s.withdrawWrite_zeroQueue _
      · subst hu
        exact State.withdrawWrite_holds
      · rw [utile, if_pos rfl] at owner
        exact exempt k owner
    split
    · next owner =>
      show TileFlow e s (State.discardTile (State.setTile _ n ((s.tile n).closed truncated)) n .rows)
      rw [hu]
      exact discarded _ fun k h => nomatch owner.symm.trans h
    · next k owner =>
      have live : ∀ j, j = k → ¬s.Ended j := fun j same ended => ended.2 n (same ▸ owner) open_.1
      have closed : TileFlow e s u := by
        subst hu
        refine (TileFlow.withdrawWrite s _).trans (Routing.setTile ?_).toTileFlow
        rw [written.tile]
        exact .kept owner rfl rfl rfl nofun
      split
      · show TileFlow e s (State.resolve State.take (State.discardTile (State.setTile _ n ((s.tile n).closed truncated)) n .rows) k _ .rows)
        rw [hu]
        have alone : TileFlow (fun j => j = k) s (u.discardTile n .rows) := by
          refine .discardTile _ (fun m other => ?_) ?_ ?_ ?_ fun j h => ?_
          · rw [utile, if_neg (Ne.symm other)]
          · subst hu
            exact (congrArg (fun x : State => ({ x with tiles := s.tiles } : State)) (s.withdrawWrite_rest (s.tile n).segment) :)
          · subst hu
            exact s.withdrawWrite_zeroQueue _
          · subst hu
            exact State.withdrawWrite_holds
          · rw [utile, if_pos rfl] at h
            exact (Option.some.inj (owner.symm.trans h)).symm
        exact (alone.trans (Routing.resolve (e := fun j => j = k) Routing.take _ _ _ rfl).toTileFlow).discharge live e
      · have measured : ∀ m, TileFlow e s (u.setMeasure l m) := fun m => closed.trans (.setMeasure _ _ _)
        show TileFlow e s (if decide ((State.setTile _ n ((s.tile n).closed truncated)).measure l = []) = true then
          State.measureRun (State.setMeasure (State.setTile _ n ((s.tile n).closed truncated)) l _) l
          else State.setMeasure (State.setTile _ n ((s.tile n).closed truncated)) l _)
        rw [hu]
        split
        · exact (measured _).trans (.measureRun _ l)
        · exact measured _
  · exact .refl e s

theorem TileFlow.closeTiles (s : State) (l : Fin 12) (truncated : Bool) : TileFlow e s (s.closeTiles l truncated) :=
  .foldl _ (TileFlow.closeTile l truncated) _ _

/-! ## The intake -/

theorem TileFlow.intakeItems (l : Fin 12) (items : List BufItem) : ∀ s : State, TileFlow e s (s.intakeItems l items) := by
  have buffer : ∀ (s : State) items, TileFlow e s (s.setBuffer l items) := fun s items => (Routing.setBuffer s l items).toTileFlow
  induction items with
  | nil => exact fun s => buffer s _
  | cons item rest ih =>
    intro s
    cases item with
    | truncation => exact buffer s _
    | start tag row => exact buffer s _
    | finish =>
      unfold State.intakeItems
      dsimp only
      split
      · exact ((buffer s _).trans (.closeTiles _ l _)).trans (ih _)
      · exact (buffer s _).trans (.closeTiles _ l _)
    | row b =>
      unfold State.intakeItems
      split
      · exact ih s
      · exact (buffer s _).trans (Routing.claim _ (c := .intake l) nofun).toTileFlow

theorem TileFlow.resumeLink (s : State) (l : Fin 12) : TileFlow e s (s.resumeLink l) := by
  refine (TileFlow.measureRun s l).trans ?_
  show TileFlow e _ ((s.measureRun l).intakeRun l)
  unfold State.intakeRun
  split
  · exact .intakeItems l _ _
  · exact .refl e _

theorem TileFlow.settle (s : State) : TileFlow e s s.settle := by
  have same := (Settled.settle s).tilesSame
  refine ⟨fun n => ?_, fun k h => ?_, fun k h => ?_, fun _ => (congrArg State.carry (Settled.settle s).rest :), fun k _ h => ?_,
    s.settle_zeroQueue, fun idle => ?_, fun _ ended ctx h => ?_⟩
  · rw [same.tile]
    exact .refl _
  · rwa [same.slot]
  · rwa [same.slot]
  · rw [same.slot]
    exact h.1
  · have still : s.drainTake = s := if_neg fun h => h.2.2.1 (congrArg Canvas.state idle)
    obtain ⟨canvas, drain, -⟩ := s.grant_canvas_drain
    rw [State.settle, still, canvas, drain]
    exact ⟨idle, rfl, fun held => State.holdsClaim_of_grant s (c := .drainRead) nofun held⟩
  · cases place : s.place with
    | none =>
      rw [State.settle, State.grant_place_none _ ((s.drainTake_place).trans place)] at h
      cases h
    | some old =>
      obtain ⟨phase, after⟩ := State.settle_place place
      rw [after] at h
      cases h
      exact ended old place

end

end Sys2Proof.Machine
end

section
/-!
PROOF. The measurement of references (R97 to R99).
-/

namespace Sys2Proof.Machine

/-! ## The judgement of a box (R98) -/

theorem CalPixel.isFlagged_iff {p : CalPixel} : p.isFlagged = true ↔ ∃ d st, p = .flagged d st := by
  cases p <;> simp [CalPixel.isFlagged]

theorem judgeBox_of_flagged {px : List CalPixel} (flagged : ∃ p ∈ px, ∃ d st, p = .flagged d st) :
    judgeBox px = (.rejected .flagged, none) := by
  refine if_pos (List.any_eq_true.2 ?_)
  obtain ⟨p, mem, flag⟩ := flagged
  exact ⟨p, mem, CalPixel.isFlagged_iff.2 flag⟩

theorem boxSum_values (vs : List F32) : boxSum (vs.map .value) = (vs.map f32Exact).sum := by
  rw [boxSum, List.foldl_map, List.sum_eq_foldl, List.foldl_map]

theorem judgeBox_of_values (vs : List F32) :
    judgeBox (vs.map .value) =
      if 0 < f32Exact (f32OfRatio (vs.map f32Exact).sum f32Unit) then (.accepted, some (f32OfRatio (vs.map f32Exact).sum f32Unit))
      else (.rejected .nonpositive, some (f32OfRatio (vs.map f32Exact).sum f32Unit)) := by
  have plain : ¬(vs.map CalPixel.value).any CalPixel.isFlagged = true := by
    rw [List.any_map, List.any_eq_true]
    rintro ⟨v, -, flagged⟩
    cases flagged
  rw [judgeBox, if_neg plain, boxSum_values]

/-! ## The record of a result (R99, R101, R104) -/

/-- The slot with an accepted reference. -/
def ExpSlot.accepted (x : ExpSlot) (i : Nat) (ref : RefRec) (f : F32) : ExpSlot :=
  { x with refs := x.refs.set i { ref with result := .accepted, measured := some f }, photo := x.photo.accept ref.expected f }

/-- The slot with a rejected reference. -/
def ExpSlot.rejected (x : ExpSlot) (i : Nat) (ref : RefRec) (r : RefResult) (f : Option F32) : ExpSlot :=
  { x with refs := x.refs.set i { ref with result := r, measured := f }, photo := { x.photo with rejected := x.photo.rejected + 1 } }

section
variable {s : State} {n : Fin 40} {k : Fin 4} {i : Nat} {ref : RefRec}

theorem State.recordRef_of_accepted (found : (s.slot k).refs[i]? = some ref) (f : F32) :
    s.recordRef n k i .accepted (some f) =
      if (s.slot k).photo.accepted + 1 = (s.slot k).photo.quota then
        State.freezeSlot State.take ((s.setSlot k ((s.slot k).accepted i ref f)).modTile n fun y => { y with accepted := y.accepted + 1 })
          k .quota none
      else (s.setSlot k ((s.slot k).accepted i ref f)).modTile n fun y => { y with accepted := y.accepted + 1 } := by
  have count : (((s.setSlot k ((s.slot k).accepted i ref f)).modTile n fun y => { y with accepted := y.accepted + 1 }).slot k).photo.accepted
      = (s.slot k).photo.accepted + 1 := congrArg (fun x : ExpSlot => x.photo.accepted) ((State.slot_setSlot ..).trans (if_pos rfl))
  rw [← count]
  unfold State.recordRef
  rw [found]
  rfl

theorem State.recordRef_of_rejected (found : (s.slot k).refs[i]? = some ref) {r : RefResult} {f : Option F32}
    (no : r = .accepted → f = none) :
    s.recordRef n k i r f =
      (s.setSlot k ((s.slot k).rejected i ref r f)).modTile n fun y => { y with rejected := y.rejected + 1 } := by
  unfold State.recordRef
  split
  · next absent => exact nomatch found.symm.trans absent
  · next ref' found' =>
    obtain rfl : ref = ref' := Option.some.inj (found.symm.trans found')
    dsimp only
    split
    · cases no rfl
    · rfl

/-- A record marks its reference, and routes at most. -/
theorem State.recordRef_spec (found : (s.slot k).refs[i]? = some ref) (r : RefResult) (f : Option F32) (e : Fin 4 → Prop) :
    ∃ (y : ExpSlot) (g : Tile → Tile), y.state = (s.slot k).state ∧ y.refs = (s.slot k).refs.set i { ref with result := r, measured := f }
      ∧ Routing e ((s.setSlot k y).modTile n g) (s.recordRef n k i r f) := by
  by_cases yes : r = .accepted ∧ ∃ v, f = some v
  · obtain ⟨rfl, v, rfl⟩ := yes
    rw [State.recordRef_of_accepted found]
    refine ⟨(s.slot k).accepted i ref v, fun y => { y with accepted := y.accepted + 1 }, rfl, rfl, ?_⟩
    split
    · exact .freezeSlot Routing.take _ _ _ _
    · exact .refl _ _
  · have no : r = .accepted → f = none := fun same => by
      cases f with
      | none => rfl
      | some v => exact absurd ⟨same, v, rfl⟩ yes
    rw [State.recordRef_of_rejected found no]
    exact ⟨(s.slot k).rejected i ref r f, fun y => { y with rejected := y.rejected + 1 }, rfl, rfl, .refl _ _⟩

end

/-! ## A settled reference -/

/-- The slot is OPEN and its reference `i` is judged `ref`; link `l` has no measurement of it under way. -/
structure State.Judged (s : State) (l : Fin 12) (k : Fin 4) (i : Nat) (ref : RefRec) : Prop where
  opened : (s.slot k).state = .opened
  ref : (s.slot k).refs[i]? = some ref
  queue : ∀ m ∈ s.measure l, i ∉ m.refs

section
variable {s t : State} {l : Fin 12} {k : Fin 4} {i : Nat} {ref : RefRec}

theorem Routing.judged {e : Fin 4 → Prop} (h : Routing e s t) (judged : s.Judged l k i ref) : t.Judged l k i ref where
  opened := h.opened k judged.opened
  ref := by rw [h.refs k judged.opened]; exact judged.ref
  queue := by rw [State.measure, h.measuring]; exact judged.queue

theorem State.Judged.setMeasure {q : List Measuring} (judged : s.Judged l k i ref) (later : ∀ m ∈ q, i ∉ m.refs) :
    (s.setMeasure l q).Judged l k i ref :=
  ⟨judged.opened, judged.ref, by rw [State.measure_setMeasure, if_pos rfl]; exact later⟩

/-- The record of another reference leaves it. -/
theorem State.Judged.recordRef (judged : s.Judged l k i ref) (n : Fin 40) (j : Fin 4) {i' : Nat} (other : i' ≠ i) (r : RefResult)
    (f : Option F32) : (s.recordRef n j i' r f).Judged l k i ref := by
  cases found : (s.slot j).refs[i']? with
  | none =>
    unfold State.recordRef
    rw [found]
    exact judged
  | some ref' =>
    obtain ⟨y, g, state, refs, after⟩ := State.recordRef_spec (n := n) found r f fun _ => False
    refine after.judged ⟨?_, ?_, judged.queue⟩
    · show ((s.setSlot j y).slot k).state = _
      rw [State.slot_setSlot]
      split
      · next same => rw [state, same]; exact judged.opened
      · exact judged.opened
    · show ((s.setSlot j y).slot k).refs[i]? = _
      rw [State.slot_setSlot]
      split
      · next same =>
        rw [refs, List.getElem?_set_ne other, same]
        exact judged.ref
      · exact judged.ref

theorem State.Judged.measureStep (judged : s.Judged l k i ref) : (s.measureStep l).1.Judged l k i ref := by
  unfold State.measureStep
  split
  · exact judged
  · next m rest queue =>
    have tail : ∀ m' ∈ rest, i ∉ m'.refs := fun m' mem => judged.queue m' (queue ▸ List.mem_cons_of_mem _ mem)
    have head : i ∉ m.refs := judged.queue m (queue ▸ List.mem_cons_self)
    dsimp only
    split
    · exact judged.setMeasure tail
    · next j owner =>
      split
      · exact (Routing.routeTile (e := fun _ => False) (s := s.setMeasure l rest) owner).judged (judged.setMeasure tail)
      · next i' is refs =>
        rw [refs, List.mem_cons, not_or] at head
        have more : ∀ m' ∈ ({ m with refs := is, boxRow := 0 } : Measuring) :: rest, i ∉ m'.refs :=
          List.forall_mem_cons.2 ⟨head.2, tail⟩
        have record : ∀ r f, (State.recordRef (s.setMeasure l ({ m with refs := is, boxRow := 0 } :: rest)) m.tile j i' r f).Judged
            l k i ref := fun r f => (judged.setMeasure more).recordRef _ _ (Ne.symm head.1) r f
        split
        · exact judged.setMeasure more
        · split
          · dsimp only
            exact record _ _
          · split
            · dsimp only
              exact record _ _
            · exact (Routing.claim (e := fun _ => False) s (c := .box l) nofun).judged judged

theorem State.Judged.measureLoop (fuel : Nat) : ∀ {s : State}, s.Judged l k i ref → (s.measureLoop l fuel).Judged l k i ref := by
  induction fuel with
  | zero => exact id
  | succ fuel ih =>
    intro s judged
    unfold State.measureLoop
    dsimp only
    split
    · exact ih judged.measureStep
    · exact judged.measureStep

end

/-! ## The intake of a link with nothing to close -/

section
variable {s t : State} {l : Fin 12}

theorem State.openTiles_eq_nil : s.openTiles l = [] ↔ ∀ a, s.fillingTile (segmentOf l a) = none := by
  simp [State.openTiles, allAmplifiers, List.filterMap_eq_nil_iff]

theorem State.fillingTile_eq_none {g : Fin 96} :
    s.fillingTile g = none ↔ ∀ n, ¬((s.tile n).state = .filling ∧ (s.tile n).segment = g ∧ (s.tile n).missing = none) := by
  simp [State.fillingTile, allTiles, List.find?_eq_none]

/-- No tile starts to fill. -/
theorem TileFlow.openTiles {e : Fin 4 → Prop} (h : TileFlow e s t) (none : s.openTiles l = []) : t.openTiles l = [] := by
  rw [State.openTiles_eq_nil] at none ⊢
  refine fun a => State.fillingTile_eq_none.2 fun n ⟨filling, segment, missing⟩ => ?_
  obtain ⟨before, -, same, fresh⟩ := (h.tile n).filling filling
  exact State.fillingTile_eq_none.1 (none a) n ⟨before, same.trans segment, fresh missing⟩

theorem State.closeTiles_of_none (none : s.openTiles l = []) (truncated : Bool) : s.closeTiles l truncated = s := by
  rw [State.closeTiles, none, List.foldl_nil]

/-- With nothing to close, the intake moves its buffer and claims at most. -/
theorem State.intakeRun_routing {s : State} (none : s.openTiles l = []) (e : Fin 4 → Prop) : Routing e s (s.intakeRun l) := by
  have items : ∀ (items : List BufItem) (s : State), s.openTiles l = [] → Routing e s (s.intakeItems l items) := by
    intro items
    induction items with
    | nil => exact fun s _ => .setBuffer s l _
    | cons item rest ih =>
      intro s none
      cases item with
      | truncation => exact .setBuffer s l _
      | start tag row => exact .setBuffer s l _
      | finish =>
        have still : (s.setBuffer l rest).openTiles l = [] := none
        unfold State.intakeItems
        dsimp only
        rw [State.closeTiles_of_none still]
        split
        · exact (Routing.setBuffer s l _).trans (ih _ still)
        · exact .setBuffer s l _
      | row b =>
        unfold State.intakeItems
        split
        · exact ih s none
        · exact (Routing.setBuffer s l _).trans (.claim _ (c := .intake l) nofun)
  unfold State.intakeRun
  split
  · exact items _ s none
  · exact .refl e s

theorem State.Judged.resumeLink {k : Fin 4} {i : Nat} {ref : RefRec} (judged : s.Judged l k i ref) (none : s.openTiles l = []) :
    (s.resumeLink l).Judged l k i ref :=
  (State.intakeRun_routing ((TileFlow.measureRun (e := fun _ => False) s l).openTiles none) fun _ => False).judged
    (judged.measureLoop _)

end

/-! ## REFERENCE_BOX_READ_DONE -/

section
variable {s : State} {l : Fin 12} {m : Measuring} {rest : List Measuring} {i : Nat} {is : List Nat} {k : Fin 4} {ref : RefRec}

theorem State.boxDone_of_more (queue : s.measure l = m :: rest) (refs : m.refs = i :: is) (owner : (s.tile m.tile).owner = some k)
    (more : m.boxRow < 8) :
    s.boxDone l = State.grant (State.claim (s.freeStore.setMeasure l ({ m with boxRow := m.boxRow + 1 } :: rest)) (.box l)) := by
  unfold State.boxDone
  rw [queue]
  dsimp only
  split
  · exact if_pos (by omega)
  · next other => exact absurd owner (other i is k refs)

theorem State.boxDone_of_last (queue : s.measure l = m :: rest) (refs : m.refs = i :: is) (owner : (s.tile m.tile).owner = some k)
    (last : m.boxRow = 8) (found : (s.slot k).refs[i]? = some ref) :
    s.boxDone l = State.settle (State.resumeLink (State.recordRef (s.freeStore.setMeasure l ({ m with refs := is, boxRow := 0 } :: rest))
      m.tile k i (judgeBox (s.mem.box m.tile ref.column ref.row)).1 (judgeBox (s.mem.box m.tile ref.column ref.row)).2) l) := by
  unfold State.boxDone
  rw [queue]
  dsimp only
  split
  · next i' is' k' refs' owner' =>
    obtain ⟨rfl, rfl⟩ := List.cons.inj (refs.symm.trans refs')
    obtain rfl : k = k' := Option.some.inj (owner.symm.trans owner')
    rw [if_neg (by omega)]
    split
    · next absent => exact nomatch found.symm.trans absent
    · next ref' found' =>
      obtain rfl : ref = ref' := Option.some.inj (found.symm.trans found')
      rfl
  · next other => exact absurd owner (other i is k refs)

theorem exec_referenceBoxReadDone (access : s.store.access = some (.box l)) :
    exec .referenceBoxReadDone s = .next (s.boxDone l).pump := by
  show execReferenceBoxReadDone s = _
  rw [execReferenceBoxReadDone, access]

end

/-- Settles O37: the judgement of a box, the steps of a measurement, and the record of a result. -/
theorem referencesAreMeasured : Obligations.ReferencesAreMeasured := by
  refine ⟨fun px => ⟨judgeBox_of_flagged, ?_⟩, fun s l m rest i is k ref idle access queue refs owner found => ⟨fun more => ?_,
    fun last opened first later bare => ?_⟩, fun s n k i ref found => ⟨fun f short => ?_, fun why f => ?_⟩⟩
  · rintro vs rfl
    refine ⟨fun positive => ?_, fun negative => ?_⟩
    · rw [judgeBox_of_values, if_pos positive]
    · rw [judgeBox_of_values, if_neg (by omega)]
  · rw [exec_referenceBoxReadDone access, State.boxDone_of_more queue refs owner more, State.pump_idle]
    · rfl
    · rw [(State.grant_canvas_drain _).2.2]
      exact idle
  · intro px
    refine ⟨_, exec_referenceBoxReadDone access, ?_⟩
    have idle' : (s.boxDone l).host.requests = [] := (Cascade.boxDone s l).requests.trans idle
    rw [State.pump_idle _ idle', (Outbound.outboundGrant _).tilesSame.slot]
    rw [State.boxDone_of_last queue refs owner last found, (Settled.settle _).tilesSame.slot]
    generalize hv : s.freeStore.setMeasure l ({ m with refs := is, boxRow := 0 } :: rest) = v
    have vslot : v.slot k = s.slot k := by rw [← hv]; rfl
    have vowner : (v.tile m.tile).owner = some k := by rw [← hv]; exact owner
    have vbare : v.openTiles l = [] := by rw [← hv]; exact bare
    have vqueue : ∀ m' ∈ v.measure l, i ∉ m'.refs := by
      rw [← hv, State.measure_setMeasure, if_pos rfl]
      exact List.forall_mem_cons.2 ⟨first, later⟩
    obtain ⟨y, g, state, marked, after⟩ := State.recordRef_spec (s := v) (n := m.tile) (k := k) (by rw [vslot]; exact found)
      (judgeBox px).1 (judgeBox px).2 fun _ => False
    refine (State.Judged.resumeLink (after.judged (i := i) ⟨?_, ?_, vqueue⟩) ?_).ref
    · show ((v.setSlot k y).slot k).state = _
      rw [State.slot_setSlot, if_pos rfl, state, vslot]
      exact opened
    · show ((v.setSlot k y).slot k).refs[i]? = _
      rw [State.slot_setSlot, if_pos rfl, marked, vslot, List.getElem?_set_self (List.getElem?_eq_some_iff.1 found).1]
    · exact (TileFlow.recordRef (e := fun _ => False) vowner i _ _).openTiles vbare
  · rw [State.recordRef_of_accepted found, if_neg short]
    rfl
  · exact State.recordRef_of_rejected found (r := .rejected why) nofun

end Sys2Proof.Machine
end

section
/-!
PROOF. The freeze of a slot's scale while the placement unit is busy (R103 to R107).
-/

namespace Sys2Proof.Machine

/-- The slot with its scale frozen. -/
def ExpSlot.freeze (x : ExpSlot) : ExpSlot := { x with photo := { x.photo with frozen := true } }

/-- A tile queued for placement. -/
def Tile.queue (x : Tile) : Tile := { x with state := .queued, holdOrder := none }

theorem ExpSlot.freezable_iff {x : ExpSlot} :
    x.freezable = true ↔ x.state ≠ .free ∧ x.photo.mode = .settled ∧ x.photo.frozen = false := decide_eq_true_iff

section
variable {s : State} {k : Fin 4}

theorem State.mem_heldTiles {n : Fin 40} : n ∈ s.heldTiles k ↔ n ∈ s.tiles.holding ∧ (s.tile n).owner = some k := by
  simp [State.heldTiles]

theorem State.freezeSlot_of_freezable (take : State → State) (can : (s.slot k).freezable = true) (cause : FreezeCause)
    (at_ : Option (Fin 96)) :
    s.freezeSlot take k cause at_ =
      State.raise (take ((s.heldTiles k).foldl State.queueTile (s.setSlot k (s.slot k).freeze))) .scaleFrozen
        ((s.slot k).frozenContent k cause (s.heldTiles k).length at_) := if_pos can

/-- What a freeze does while the unit is busy. -/
structure State.Frozen (s t : State) (k : Fin 4) (content : List Byte) : Prop where
  slot : t.slot k = (s.slot k).freeze
  others : ∀ j, j ≠ k → t.slot j = s.slot j
  queue : t.tiles.queue = s.tiles.queue ++ s.heldTiles k
  tile : ∀ n, t.tile n = if n ∈ s.heldTiles k then (s.tile n).queue else s.tile n
  holdCounter : t.tiles.holdCounter = s.tiles.holdCounter
  holding : t.tiles.holding = s.tiles.holding.filter fun n => decide (n ∉ s.heldTiles k)
  host : t.host = s.host.raise .scaleFrozen content
  rest : { t with slots := s.slots, tiles := s.tiles, host := s.host } = s

theorem State.freezeSlot_of_busy (can : (s.slot k).freezable = true) (busy : s.place ≠ none) (cause : FreezeCause)
    (at_ : Option (Fin 96)) :
    s.Frozen (s.freezeSlot State.take k cause at_) k ((s.slot k).frozenContent k cause (s.heldTiles k).length at_) := by
  obtain ⟨tile, queue, holding, counter, rest⟩ := State.queueTiles_moves (s.heldTiles k) (s.setSlot k (s.slot k).freeze)
  rw [State.freezeSlot_of_freezable _ can]
  generalize (s.slot k).frozenContent k cause (s.heldTiles k).length at_ = content
  generalize (s.heldTiles k).foldl State.queueTile (s.setSlot k (s.slot k).freeze) = u at tile queue holding counter rest ⊢
  have place : u.place = s.place := (congrArg State.place rest :)
  have host : u.host = s.host := (congrArg State.host rest :)
  have slots : u.slots = (s.setSlot k (s.slot k).freeze).slots := (congrArg State.slots rest :)
  rw [State.take_of_busy u (by rw [place]; exact busy)]
  refine ⟨?_, fun j other => ?_, queue, tile, counter, holding, ?_, ?_⟩
  · show u.slot k = _
    rw [State.slot, slots]
    exact (State.slot_setSlot ..).trans (if_pos rfl)
  · show u.slot j = _
    rw [State.slot, slots]
    exact (State.slot_setSlot ..).trans (if_neg (Ne.symm other))
  · show u.host.raise _ _ = _
    rw [host]
  · exact (congrArg (fun x : State => ({ x with slots := s.slots, tiles := s.tiles, host := s.host } : State)) rest :)

variable {t : State} {content : List Byte}

theorem State.Frozen.owner (h : s.Frozen t k content) (n : Fin 40) : (t.tile n).owner = (s.tile n).owner := by
  rw [h.tile]
  split <;> rfl

/-- The held tiles of another slot stay held. -/
theorem State.Frozen.heldTiles (h : s.Frozen t k content) {j : Fin 4} (other : j ≠ k) : t.heldTiles j = s.heldTiles j := by
  rw [State.heldTiles, h.holding, List.filter_filter, State.heldTiles]
  refine List.filter_congr fun n mem => ?_
  rw [h.owner]
  by_cases own : (s.tile n).owner = some j
  · have apart : n ∉ s.heldTiles k := fun held => other (Option.some.inj (own.symm.trans (State.mem_heldTiles.1 held).2))
    rw [State.heldTiles] at apart
    rw [decide_eq_true apart, Bool.and_true]
  · simp [own]

theorem State.Frozen.place (h : s.Frozen t k content) : t.place = s.place := (congrArg State.place h.rest :)

/-- A tile queued by the freeze still belongs to the slot. -/
theorem State.Frozen.tilesOf_ne_nil (h : s.Frozen t k content) (some : s.tilesOf k ≠ []) : t.tilesOf k ≠ [] := by
  obtain ⟨n, state, owner⟩ := State.tilesOf_ne_nil.1 some
  refine State.tilesOf_ne_nil.2 ⟨n, ?_, (h.owner n).trans owner⟩
  rw [h.tile]
  split
  · exact nofun
  · exact state

end

/-! ## STORE_PRESSURE (R106) -/

/-- One slot's part in the pressure. -/
def State.pressSlot (at_ : Fin 96) (s : State) (k : Fin 4) : State :=
  if s.heldTiles k = [] then s else s.freezeSlot State.take k .storePressure (some at_)

theorem State.pressFreeze_eq (s : State) (at_ : Fin 96) : s.pressFreeze State.take at_ = allSlots.foldl (State.pressSlot at_) s := rfl

section
variable {s : State} (at_ : Fin 96)

theorem State.pressSlot_of_bare {k : Fin 4} (bare : s.heldTiles k = []) : s.pressSlot at_ k = s := if_pos bare

theorem State.pressSlot_of_held {k : Fin 4} (held : s.heldTiles k ≠ []) :
    s.pressSlot at_ k = s.freezeSlot State.take k .storePressure (some at_) := if_neg held

/-- The pressure on one slot leaves the others and their held tiles, while the unit is busy. -/
theorem State.pressSlot_others (busy : s.place ≠ none) {j k : Fin 4} (other : j ≠ k) :
    (s.pressSlot at_ k).slot j = s.slot j ∧ (s.pressSlot at_ k).heldTiles j = s.heldTiles j ∧ (s.pressSlot at_ k).place ≠ none := by
  by_cases bare : s.heldTiles k = []
  · rw [State.pressSlot_of_bare at_ bare]
    exact ⟨rfl, rfl, busy⟩
  · rw [State.pressSlot_of_held at_ bare]
    cases can : (s.slot k).freezable with
    | false =>
      rw [State.freezeSlot_of_not_freezable _ can]
      exact ⟨rfl, rfl, busy⟩
    | true =>
      have frozen := State.freezeSlot_of_busy can busy .storePressure (some at_)
      exact ⟨frozen.others j other, frozen.heldTiles other, by rw [frozen.place]; exact busy⟩

theorem State.pressSlots_of_bare (l : List (Fin 4)) (bare : ∀ j ∈ l, s.heldTiles j = []) : l.foldl (State.pressSlot at_) s = s := by
  induction l with
  | nil => rfl
  | cons k l ih =>
    rw [List.foldl_cons, State.pressSlot_of_bare at_ (bare k List.mem_cons_self)]
    exact ih fun j mem => bare j (List.mem_cons_of_mem _ mem)

/-- With one slot holding tiles, the pressure reaches that slot. -/
theorem State.pressSlots_of_one {k : Fin 4} (l : List (Fin 4)) (nodup : l.Nodup) (mem : k ∈ l) (busy : s.place ≠ none)
    (bare : ∀ j, j ≠ k → s.heldTiles j = []) : l.foldl (State.pressSlot at_) s = s.pressSlot at_ k := by
  induction l with
  | nil => cases mem
  | cons j l ih =>
    obtain ⟨absent, nodup⟩ := List.nodup_cons.1 nodup
    rw [List.foldl_cons]
    by_cases same : j = k
    · subst same
      refine State.pressSlots_of_bare at_ l fun i inside => ?_
      have other : i ≠ j := fun h => absent (h ▸ inside)
      rw [(State.pressSlot_others at_ busy other).2.1]
      exact bare i other
    · rw [State.pressSlot_of_bare at_ (bare j same)]
      exact ih nodup ((List.mem_cons.1 mem).resolve_left (Ne.symm same))

end

theorem allSlots_nodup : allSlots.Nodup := by decide
theorem mem_allSlots (k : Fin 4) : k ∈ allSlots := by
  revert k
  decide

end Sys2Proof.Machine
end

section
/-!
PROOF. The update of the scale in rationals (R101).
-/

namespace Sys2Proof.Machine

/-- A sum of a whole number of halves, floored, is the integer division. -/
theorem floor_half (num : Int) {m : Nat} (positive : 0 < m) :
    ⌊(num : ℚ) / (256 * m : ℚ) + 1 / 2⌋ = (2 * num + 256 * m) / (2 * (256 * m)) := by
  have unit : (m : ℚ) ≠ 0 := Nat.cast_ne_zero.2 positive.ne'
  have one : (num : ℚ) / (256 * m : ℚ) + 1 / 2 = ((2 * num + 256 * m : Int) : ℚ) / ((2 * (256 * m) : Nat) : ℚ) := by
    push_cast
    field_simp
  rw [one, Rat.floor_intCast_div_natCast]
  push_cast
  rfl

theorem Photometry.updated_floor (p : Photometry) (e : Int) {m : Int} (positive : 0 < m) (g : Nat)
    (rate : g = if 4096 * e < p.scale * m then p.attack else p.decay) :
    p.updated e m = clampScale p.lower p.upper
      (⌊((p.scale / 4096 : ℚ) + (g / 256 : ℚ) * ((e / m : ℚ) - p.scale / 4096)) * 4096 + 1 / 2⌋).toNat := by
  lift m to Nat using positive.le
  have some_ : 0 < m := Int.natCast_pos.1 positive
  have unit : (m : ℚ) ≠ 0 := Nat.cast_ne_zero.2 some_.ne'
  have value : ((p.scale / 4096 : ℚ) + (g / 256 : ℚ) * ((e / (m : Int) : ℚ) - p.scale / 4096)) * 4096
      = ((256 * p.scale * m + g * (4096 * e - p.scale * m) : Int) : ℚ) / (256 * m : ℚ) := by
    push_cast
    field_simp
  have whole := congrArg (fun z : Int => clampScale p.lower p.upper z.toNat)
    (floor_half (256 * p.scale * m + g * (4096 * e - p.scale * m)) some_)
  rw [value]
  refine Eq.trans ?_ whole.symm
  rw [rate]
  unfold Photometry.updated
  dsimp only
  split <;> rfl

end Sys2Proof.Machine
end

section
/-!
PROOF. The readout limit in a committed slot that keeps a tile (R47, R49): its late segments are resolved one after another, and the
EXHAUSTED trigger may freeze the scale on the way (R105).
-/

namespace Sys2Proof.Machine

/-! ## The placement unit stays busy -/

theorem State.leaveWait_busy {s : State} (busy : s.place ≠ none) (i : Nat) : (s.leaveWait i).place ≠ none := by
  unfold State.leaveWait
  split
  · exact busy
  · split
    · dsimp only
      split
      · exact nofun
      · exact nofun
    · exact busy

theorem State.payCell_busy {s : State} (busy : s.place ≠ none) (placed : Bool) (i : Nat) : (State.payCell placed s i).place ≠ none := by
  unfold State.payCell
  split
  · exact busy
  · dsimp only
    split
    · split
      · unfold State.completeCell
        refine State.leaveWait_busy ?_ i
        exact busy
      · exact busy
    · exact busy

theorem State.payCells_busy (placed : Bool) (cells : List Nat) : ∀ {s : State}, s.place ≠ none → (s.payCells placed cells).place ≠ none := by
  induction cells with
  | nil => exact id
  | cons i cells ih => exact fun busy => ih (State.payCell_busy busy placed i)

theorem State.recordResolution_busy {s : State} (busy : s.place ≠ none) (k : Fin 4) (g : Fin 96) (why : Reason) :
    (s.recordResolution k g why).place ≠ none := by
  unfold State.recordResolution
  dsimp only
  split
  · exact busy
  · split
    · split
      · exact State.payCells_busy _ _ busy
      · exact busy
    · exact busy

/-! ## One late segment -/

section
variable {s u : State} {k : Fin 4}

theorem State.settleSlot_of_expired (committed : (u.slot k).isCommitted = true) (timer : (u.slot k).timer = .expired)
    (held : u.tilesOf k ≠ []) : u.settleSlot k = u.setSlot k { u.slot k with state := .placing } := by
  have settled := State.settleSlot_of_ended committed (by rw [timer]; exact nofun) (.inl (by rw [timer]; exact nofun))
  rw [if_pos (.inr held), timer, if_neg (by exact nofun)] at settled
  rw [settled, ← timer]

/-- What the late segments resolved so far have changed: entries, tallies and the state of the slot, and its scale's freeze. -/
structure State.WritingOff (s u : State) (k : Fin 4) (done : List (Fin 96)) : Prop where
  slot : { u.slot k with state := (s.slot k).state, entries := (s.slot k).entries, tallies := (s.slot k).tallies,
                         photo := (s.slot k).photo } = s.slot k
  committed : (u.slot k).isCommitted = true
  entry : ∀ g, (u.slot k).entry g = if g ∈ done ∧ (s.slot k).entry g = .notStarted then .resolved .noReadout else (s.slot k).entry g
  others : ∀ j, j ≠ k → u.slot j = s.slot j
  busy : s.place ≠ none → u.place ≠ none
  held : u.tilesOf k ≠ []

/-- The scale is as it was, and so are the tiles. -/
structure State.Unfrozen (s u : State) (k : Fin 4) : Prop where
  tiles : u.tiles = s.tiles
  photo : (u.slot k).photo = (s.slot k).photo

/-- The scale is frozen, and the held tiles are queued. -/
structure State.Queued (s u : State) (k : Fin 4) : Prop where
  photo : (u.slot k).photo = { (s.slot k).photo with frozen := true }
  queue : u.tiles.queue = s.tiles.queue ++ s.heldTiles k
  tile : ∀ n, u.tile n = if n ∈ s.heldTiles k then (s.tile n).queue else s.tile n

variable {done : List (Fin 96)} {g : Fin 96}

theorem State.WritingOff.placements (h : s.WritingOff u k done) : (u.slot k).placements = (s.slot k).placements :=
  (congrArg ExpSlot.placements h.slot :)

theorem State.WritingOff.timer (h : s.WritingOff u k done) : (u.slot k).timer = (s.slot k).timer := (congrArg ExpSlot.timer h.slot :)

/-- A segment already resolved adds nothing. -/
theorem State.WritingOff.again (h : s.WritingOff u k done) (late : (s.slot k).entry g = .notStarted)
    (resolved : ((u.slot k).entry g).isResolved = true) : s.WritingOff u k (g :: done) := by
  have mem : g ∈ done := by
    by_contra absent
    rw [h.entry, if_neg fun c => absent c.1, late] at resolved
    cases resolved
  refine { h with entry := fun j => (h.entry j).trans (if_congr (and_congr_left fun _ => ?_) rfl rfl) }
  rw [List.mem_cons]
  exact ⟨.inr, fun e => e.elim (fun same => same ▸ mem) id⟩

/-- A late segment resolved, and the slot settled. -/
def State.markOff (u : State) (k : Fin 4) (g : Fin 96) : State := (u.recordResolution k g .noReadout).settleSlot k

theorem State.WritingOff.markOff (h : s.WritingOff u k done) (timer : (s.slot k).timer = .expired)
    (late : (s.slot k).entry g = .notStarted) (first : ((u.slot k).entry g).isResolved = false) :
    s.WritingOff (u.markOff k g) k (g :: done) ∧ (u.markOff k g).tiles = u.tiles
    ∧ ((u.markOff k g).slot k).photo = (u.slot k).photo := by
  have side := State.recordResolution_side first .noReadout
  have slot : (u.recordResolution k g .noReadout).slot k = (u.slot k).resolve g .noReadout := by
    rw [side.slot, State.slot_setSlot, if_pos rfl]
  have tiles : (u.recordResolution k g .noReadout).tiles = u.tiles := side.tilesSame.tiles
  have held : (u.recordResolution k g .noReadout).tilesOf k ≠ [] := by
    simp only [State.tilesOf, State.tile, tiles]
    exact h.held
  have settled := State.settleSlot_of_expired (u := u.recordResolution k g .noReadout) (k := k) (by rw [slot]; exact h.committed)
    (by rw [slot]; exact h.timer.trans timer) held
  rw [slot] at settled
  have final : (u.markOff k g).slot k = { (u.slot k).resolve g .noReadout with state := .placing } := by
    rw [State.markOff, settled, State.slot_setSlot, if_pos rfl]
  refine ⟨⟨?_, ?_, fun j => ?_, fun j other => ?_, fun busy => ?_, ?_⟩, ?_, ?_⟩
  · rw [final]
    exact h.slot
  · rw [final]
    rfl
  · rw [final]
    refine (ExpSlot.entry_setEntry (u.slot k) g j (.resolved .noReadout)).trans ?_
    by_cases same : g = j
    · subst same
      rw [if_pos rfl, if_pos ⟨List.mem_cons_self, late⟩]
    · rw [if_neg same, h.entry]
      refine if_congr (and_congr_left fun _ => ?_) rfl rfl
      rw [List.mem_cons, or_iff_right (Ne.symm same)]
  · rw [State.markOff, settled, State.slot_setSlot, if_neg (Ne.symm other), side.slot, State.slot_setSlot, if_neg (Ne.symm other)]
    exact h.others j other
  · rw [State.markOff, settled]
    exact State.recordResolution_busy (h.busy busy) k g _
  · rw [State.markOff, settled]
    exact held
  · rw [State.markOff, settled]
    exact tiles
  · rw [final]
    rfl

theorem State.resolve_late (first : ((u.slot k).entry g).isResolved = false) :
    u.resolve State.take k g .noReadout = (u.markOff k g).exhaustedTest State.take k := State.resolve_of_first _ first _

/-! ## The late segments of a slot that photometry does not settle -/

theorem State.WritingOff.resolve_unfreezable (h : s.WritingOff u k done) (still : s.Unfrozen u k) (timer : (s.slot k).timer = .expired)
    (late : (s.slot k).entry g = .notStarted) (mode : (s.slot k).photo.mode ≠ .settled) :
    s.WritingOff (u.resolve State.take k g .noReadout) k (g :: done) ∧ s.Unfrozen (u.resolve State.take k g .noReadout) k := by
  cases first : ((u.slot k).entry g).isResolved with
  | true =>
    rw [State.resolve_of_resolved _ first]
    exact ⟨h.again late first, still⟩
  | false =>
    obtain ⟨next, tiles, photo⟩ := h.markOff timer late first
    have shut : ((u.markOff k g).slot k).freezable = false := decide_eq_false fun can => mode (by
      have settled := can.2.1
      rwa [photo, still.photo] at settled)
    rw [State.resolve_late first, State.exhaustedTest_of_not_freezable _ shut]
    exact ⟨next, tiles.trans still.tiles, photo.trans still.photo⟩

theorem State.WritingOff.loop_unfreezable (timer : (s.slot k).timer = .expired) (mode : (s.slot k).photo.mode ≠ .settled)
    (l : List (Fin 96)) : ∀ {u done}, s.WritingOff u k done → s.Unfrozen u k → (∀ g ∈ l, (s.slot k).entry g = .notStarted) →
      ∃ all, (∀ g, g ∈ all ↔ g ∈ l ∨ g ∈ done)
        ∧ s.WritingOff (l.foldl (fun s g => s.resolve State.take k g .noReadout) u) k all
        ∧ s.Unfrozen (l.foldl (fun s g => s.resolve State.take k g .noReadout) u) k := by
  induction l with
  | nil => exact fun h still _ => ⟨_, fun g => by simp, h, still⟩
  | cons g l ih =>
    intro u done h still late
    obtain ⟨next, still'⟩ := h.resolve_unfreezable still timer (late g List.mem_cons_self) mode
    obtain ⟨all, mem, w, still''⟩ := ih next still' fun j inside => late j (List.mem_cons_of_mem _ inside)
    refine ⟨all, fun j => (mem j).trans ?_, w, still''⟩
    rw [List.mem_cons, List.mem_cons]
    tauto

/-! ## The late segments of a slot that photometry settles -/

/-- Some listed segment is neither resolved nor held. -/
def State.Unspent (u : State) (k : Fin 4) : Prop := ∃ p ∈ (u.slot k).placements, u.accounted k p.segment = false

theorem State.WritingOff.freeze (h : s.WritingOff u k done) {t : State} {content : List Byte} (frozen : u.Frozen t k content) :
    s.WritingOff t k done := by
  refine ⟨?_, ?_, fun g => ?_, fun j other => (frozen.others j other).trans (h.others j other), fun busy => ?_,
    frozen.tilesOf_ne_nil h.held⟩
  · rw [frozen.slot]
    exact h.slot
  · rw [frozen.slot]
    exact h.committed
  · rw [frozen.slot]
    exact h.entry g
  · rw [frozen.place]
    exact h.busy busy

theorem State.WritingOff.resolve_settled (h : s.WritingOff u k done) (phase : s.Queued u k ∨ s.Unfrozen u k)
    (timer : (s.slot k).timer = .expired) (busy : s.place ≠ none) (late : (s.slot k).entry g = .notStarted)
    (photo : (s.slot k).photo.mode = .settled ∧ (s.slot k).photo.frozen = false)
    (first : ((u.slot k).entry g).isResolved = false) :
    s.WritingOff (u.resolve State.take k g .noReadout) k (g :: done)
    ∧ (s.Queued (u.resolve State.take k g .noReadout) k
        ∨ (s.Unfrozen (u.resolve State.take k g .noReadout) k ∧ (u.resolve State.take k g .noReadout).Unspent k)) := by
  obtain ⟨next, tiles, same⟩ := h.markOff timer late first
  rw [State.resolve_late first]
  rcases phase with queued | still
  · have shut : ((u.markOff k g).slot k).freezable = false := decide_eq_false fun can => by
      have open_ := can.2.2
      rw [same, queued.photo] at open_
      cases open_
    rw [State.exhaustedTest_of_not_freezable _ shut]
    refine ⟨next, .inl ⟨same.trans queued.photo, by rw [tiles]; exact queued.queue, fun n => ?_⟩⟩
    rw [State.tile, tiles]
    exact queued.tile n
  · have tiles' : (u.markOff k g).tiles = s.tiles := tiles.trans still.tiles
    have photo' : ((u.markOff k g).slot k).photo = (s.slot k).photo := same.trans still.photo
    have tile : ∀ n, (u.markOff k g).tile n = s.tile n := fun n => by rw [State.tile, State.tile, tiles']
    have held : (u.markOff k g).heldTiles k = s.heldTiles k := by simp only [State.heldTiles, tile, tiles']
    by_cases spent : (u.markOff k g).Unspent k
    · obtain ⟨p, mem, open_⟩ := spent
      rw [State.exhaustedTest_of_unaccounted _ mem open_]
      exact ⟨next, .inr ⟨⟨tiles', photo'⟩, p, mem, open_⟩⟩
    · have all : ((u.markOff k g).slot k).placements.all (fun p => (u.markOff k g).accounted k p.segment) = true :=
        List.all_eq_true.2 fun p mem => by
          by_contra open_
          exact spent ⟨p, mem, Bool.eq_false_iff.2 open_⟩
      have live : ((u.markOff k g).slot k).state ≠ .free := fun free =>
        nomatch (ExpSlot.not_isCommitted_of_free free).symm.trans next.committed
      have can : ((u.markOff k g).slot k).freezable = true := ExpSlot.freezable_iff.2
        ⟨live, (congrArg Photometry.mode photo').trans photo.1, (congrArg Photometry.frozen photo').trans photo.2⟩
      have frozen := State.freezeSlot_of_busy can (next.busy busy) .exhausted none
      rw [State.exhaustedTest, if_pos ⟨next.committed, all⟩]
      refine ⟨next.freeze frozen, .inl ⟨?_, ?_, fun n => ?_⟩⟩
      · rw [frozen.slot]
        show { ((u.markOff k g).slot k).photo with frozen := true } = _
        rw [photo']
      · rw [frozen.queue, tiles', held]
      · rw [frozen.tile, held, tile]

theorem State.WritingOff.loop_settled (timer : (s.slot k).timer = .expired) (busy : s.place ≠ none)
    (photo : (s.slot k).photo.mode = .settled ∧ (s.slot k).photo.frozen = false) (l : List (Fin 96)) :
    ∀ {u done}, s.WritingOff u k done → s.Queued u k ∨ (s.Unfrozen u k ∧ u.Unspent k) →
      (∀ g ∈ l, (s.slot k).entry g = .notStarted) →
      ∃ all, (∀ g, g ∈ all ↔ g ∈ l ∨ g ∈ done)
        ∧ s.WritingOff (l.foldl (fun s g => s.resolve State.take k g .noReadout) u) k all
        ∧ (s.Queued (l.foldl (fun s g => s.resolve State.take k g .noReadout) u) k
          ∨ (s.Unfrozen (l.foldl (fun s g => s.resolve State.take k g .noReadout) u) k
            ∧ (l.foldl (fun s g => s.resolve State.take k g .noReadout) u).Unspent k)) := by
  induction l with
  | nil => exact fun h phase _ => ⟨_, fun g => by simp, h, phase⟩
  | cons g l ih =>
    intro u done h phase late
    have here := late g List.mem_cons_self
    have step : s.WritingOff (u.resolve State.take k g .noReadout) k (g :: done)
        ∧ (s.Queued (u.resolve State.take k g .noReadout) k
          ∨ (s.Unfrozen (u.resolve State.take k g .noReadout) k ∧ (u.resolve State.take k g .noReadout).Unspent k)) := by
      cases first : ((u.slot k).entry g).isResolved with
      | true =>
        rw [State.resolve_of_resolved _ first]
        exact ⟨h.again here first, phase⟩
      | false => exact h.resolve_settled (phase.imp_right And.left) timer busy here photo first
    obtain ⟨all, mem, w, phase'⟩ := ih step.1 step.2 fun j inside => late j (List.mem_cons_of_mem _ inside)
    refine ⟨all, fun j => (mem j).trans ?_, w, phase'⟩
    rw [List.mem_cons, List.mem_cons]
    tauto

end

/-! ## The expiry -/

/-- The listed segments that have not started. -/
def ExpSlot.late (x : ExpSlot) : List (Fin 96) :=
  x.placements.filterMap fun p => if x.entry p.segment = .notStarted then some p.segment else none

theorem ExpSlot.mem_late {x : ExpSlot} {g : Fin 96} : g ∈ x.late ↔ x.planned g = true ∧ x.entry g = .notStarted := by
  have planned : x.planned g = true ↔ ∃ p ∈ x.placements, p.segment = g := by
    simp [ExpSlot.planned, ExpSlot.placementFor, List.find?_isSome]
  rw [planned, ExpSlot.late, List.mem_filterMap]
  constructor
  · rintro ⟨p, mem, h⟩
    split at h
    · next late =>
      cases h
      exact ⟨⟨p, mem, rfl⟩, late⟩
    · cases h
  · rintro ⟨⟨p, mem, rfl⟩, late⟩
    exact ⟨p, mem, if_pos late⟩

section
variable (s : State) (k : Fin 4)

/-- The part with the slot's timer expired. -/
def State.timedOut : State := s.modSlot k fun x => { x with timer := .expired }

/-- The part with the late segments resolved and the slot settled. -/
def State.writtenOff : State :=
  State.settleSlot ((s.slot k).late.foldl (fun s g => s.resolve State.take k g .noReadout) (s.timedOut k)) k

theorem State.timedOut_slot : (s.timedOut k).slot k = { s.slot k with timer := .expired } :=
  (State.slot_modSlot ..).trans (if_pos rfl)

theorem State.writeOff_eq : s.writeOff k = (s.writtenOff k).settle := by
  have late : ((s.timedOut k).slot k).late = (s.slot k).late := by rw [State.timedOut_slot]; rfl
  rw [State.writtenOff, ← late]
  rfl

variable {s k}

theorem exec_readoutLimitExpiry_committed (idle : s.host.requests = []) (running : (s.slot k).timer = .running)
    (committed : (s.slot k).isCommitted = true) :
    exec (.readoutLimitExpiry k) s = .next (s.writtenOff k).settle.outboundGrant := by
  have opened : (s.slot k).state ≠ .opened := fun h => by
    rw [ExpSlot.not_isCommitted_of_opened h] at committed
    cases committed
  have expired : s.limitExpiry k = s.writeOff k := by
    unfold State.limitExpiry
    dsimp only
    rw [if_neg (not_not.2 running), if_neg opened, if_pos committed]
  show Host.Outcome.next (s.limitExpiry k).pump = _
  rw [State.pump_idle _ ((Cascade.limitExpiry s k).requests.trans idle), expired, State.writeOff_eq]

/-- The start of a writing off in a slot that keeps a tile. -/
theorem State.timedOut_writingOff (committed : (s.slot k).isCommitted = true) (held : s.tilesOf k ≠ []) :
    (s.timedOut k).WritingOff (s.timedOut k) k [] :=
  ⟨rfl, by rw [State.timedOut_slot]; exact committed, fun g => by rw [if_neg fun h => nomatch h.1], fun _ _ => rfl, id, held⟩

/-- What remains once every late segment is resolved: the slot is PLACING. -/
theorem State.WritingOff.settled {u : State} {all : List (Fin 96)} (h : (s.timedOut k).WritingOff u k all)
    (spec : ∀ g, g ∈ all ↔ g ∈ (s.slot k).late) :
    u.settleSlot k = u.setSlot k { u.slot k with state := .placing } ∧ (u.slot k).timer = .expired
    ∧ (u.slot k).placements = (s.slot k).placements
    ∧ ∀ g, (u.slot k).entry g =
        if (s.slot k).planned g = true ∧ (s.slot k).entry g = .notStarted then .resolved .noReadout else (s.slot k).entry g := by
  have timer : (u.slot k).timer = .expired := by rw [h.timer, State.timedOut_slot]
  refine ⟨State.settleSlot_of_expired h.committed timer h.held, timer, by rw [h.placements, State.timedOut_slot], fun g => ?_⟩
  rw [h.entry, State.timedOut_slot]
  show (if g ∈ all ∧ (s.slot k).entry g = .notStarted then _ else (s.slot k).entry g) = _
  refine if_congr ?_ rfl rfl
  rw [spec, ExpSlot.mem_late]
  exact ⟨And.left, fun h => ⟨h, h.2⟩⟩

end

end Sys2Proof.Machine
end

section
/-!
PROOF. The photometry loop as a whole (R101 to R107).
-/

namespace Sys2Proof.Machine

theorem Photometry.updated_rat (p : Photometry) (e : Int) {m : Int} (positive : 0 < m) :
    let r : ℚ := e / m
    let sc : ℚ := p.scale / 4096
    let g : ℚ := if r < sc then p.attack / 256 else p.decay / 256
    p.updated e m = clampScale p.lower p.upper (⌊(sc + g * (r - sc)) * 4096 + 1 / 2⌋).toNat := by
  intro r sc g
  have below : r < sc ↔ 4096 * e < p.scale * m := by
    have pos : (0 : ℚ) < m := Int.cast_pos.2 positive
    rw [div_lt_div_iff₀ pos (by norm_num), ← Int.cast_lt (R := ℚ)]
    push_cast
    rw [mul_comm (4096 : ℚ)]
  have rate : g = ((if 4096 * e < p.scale * m then p.attack else p.decay : Nat) : ℚ) / 256 := by
    show (if r < sc then (p.attack : ℚ) / 256 else p.decay / 256) = _
    by_cases slow : 4096 * e < p.scale * m
    · rw [if_pos (below.2 slow), if_pos slow]
    · rw [if_neg fun h => slow (below.1 h), if_neg slow]
  rw [rate]
  exact p.updated_floor e positive _ rfl

theorem Photometry.accept_of_moving {p : Photometry} (moves : p.mode = .tracking ∨ (p.mode = .settled ∧ p.frozen = false)) (e m : F32) :
    (p.accept e m).scale = p.updated (f32Exact e) (f32Exact m) := if_pos (decide_eq_true moves)

theorem Photometry.accept_of_still {p : Photometry} (still : ¬(p.mode = .tracking ∨ (p.mode = .settled ∧ p.frozen = false))) (e m : F32) :
    (p.accept e m).scale = p.scale := if_neg (by rw [decide_eq_false still]; exact nofun)

section
variable {s : State} {k : Fin 4}

theorem State.accounted_iff {g : Fin 96} : s.accounted k g = true ↔
    (∃ w, (s.slot k).entry g = .resolved w) ∨ ∃ n ∈ s.heldTiles k, (s.tile n).segment = g := by
  rw [State.accounted, Bool.or_eq_true, Entry.isResolved_iff, List.any_eq_true]
  simp only [decide_eq_true_eq]

theorem State.exhaustedTest_of_spent (take : State → State) (committed : (s.slot k).isCommitted = true)
    (spent : ∀ p ∈ (s.slot k).placements, s.accounted k p.segment = true) :
    s.exhaustedTest take k = s.freezeSlot take k .exhausted none := if_pos ⟨committed, List.all_eq_true.2 spent⟩

theorem ExpSlot.frozenContent_eq (x : ExpSlot) (cause : FreezeCause) (moved : Nat) (at_ : Option (Fin 96)) :
    x.frozenContent k cause moved at_ = code16 x.exposure ++ code8 k.val
      ++ code8 (match cause with | .quota => 0 | .exhausted => 1 | .storePressure => 2) ++ code32 x.photo.scale
      ++ code8 x.photo.accepted ++ code8 x.photo.rejected ++ code8 moved
      ++ codePart (at_.map fun g => code8 (linkOf g).val ++ code8 g.val) := by
  cases cause <;> rfl

/-- R49, R105. A readout limit that leaves nothing to measure freezes the scale and queues the held tiles. -/
theorem exec_readoutLimitExpiry_frozen (idle : s.host.requests = []) (busy : s.place ≠ none) (running : (s.slot k).timer = .running)
    (reading : (s.slot k).state = .reading) (photo : (s.slot k).photo.mode = .settled ∧ (s.slot k).photo.frozen = false)
    (late : ∃ p ∈ (s.slot k).placements, (s.slot k).entry p.segment = .notStarted)
    (left : ∀ p ∈ (s.slot k).placements, (s.slot k).entry p.segment = .notStarted ∨ (∃ w, (s.slot k).entry p.segment = .resolved w)
      ∨ ∃ n ∈ s.heldTiles k, (s.tile n).segment = p.segment)
    (some_ : ∃ n ∈ s.heldTiles k, (s.tile n).state ≠ .free) :
    ∃ t, exec (.readoutLimitExpiry k) s = .next t ∧ (t.slot k).photo = { (s.slot k).photo with frozen := true }
      ∧ (t.slot k).state = .placing ∧ s.Queued t k := by
  have committed : (s.slot k).isCommitted = true := ExpSlot.isCommitted_iff.2 (by rw [reading]; decide)
  have held : s.tilesOf k ≠ [] := by
    obtain ⟨n, mem, state⟩ := some_
    exact State.tilesOf_ne_nil.2 ⟨n, state, (State.mem_heldTiles.1 mem).2⟩
  have slot := s.timedOut_slot k
  have entry : ∀ g, ((s.timedOut k).slot k).entry g = (s.slot k).entry g := fun g => by
    rw [slot]
    rfl
  have timer : ((s.timedOut k).slot k).timer = .expired := by rw [slot]
  have photo' : ((s.timedOut k).slot k).photo = (s.slot k).photo := by rw [slot]
  have pending : ∀ g ∈ (s.slot k).late, ((s.timedOut k).slot k).entry g = .notStarted := fun g mem =>
    (entry g).trans (ExpSlot.mem_late.1 mem).2
  have start := State.timedOut_writingOff committed held
  obtain ⟨g, l, list⟩ : ∃ g l, (s.slot k).late = g :: l := by
    obtain ⟨p, mem, open_⟩ := late
    refine List.exists_cons_of_ne_nil (List.ne_nil_of_mem (a := p.segment) ?_)
    exact List.mem_filterMap.2 ⟨p, mem, if_pos open_⟩
  rw [list] at pending
  have first : (((s.timedOut k).slot k).entry g).isResolved = false := by
    rw [pending g List.mem_cons_self]
    rfl
  have moves : ((s.timedOut k).slot k).photo.mode = .settled ∧ ((s.timedOut k).slot k).photo.frozen = false := by
    rw [photo']
    exact photo
  obtain ⟨one, phase⟩ := start.resolve_settled (.inr ⟨rfl, rfl⟩) timer busy (pending g List.mem_cons_self) moves first
  obtain ⟨all, mem, after, phase⟩ := one.loop_settled timer busy moves l phase fun j inside => pending j (List.mem_cons_of_mem _ inside)
  have step := exec_readoutLimitExpiry_committed idle running committed
  rw [State.writtenOff, list, List.foldl_cons] at step
  generalize l.foldl (fun s g => s.resolve State.take k g .noReadout)
    ((s.timedOut k).resolve State.take k g .noReadout) = u at after phase step
  have spec : ∀ j, j ∈ all ↔ j ∈ (s.slot k).late := fun j => by
    rw [mem j, list]
    simp only [List.mem_cons, List.not_mem_nil, or_false]
    tauto
  obtain ⟨settled, -, placements, entries⟩ := after.settled spec
  have queued : (s.timedOut k).Queued u k := by
    rcases phase with queued | ⟨still, p, member, open_⟩
    · exact queued
    · rw [placements] at member
      have tile : ∀ n, u.tile n = s.tile n := fun n => by
        rw [State.tile, still.tiles]
        rfl
      have same : u.heldTiles k = s.heldTiles k := by
        simp only [State.heldTiles, tile, still.tiles]
        rfl
      refine absurd (State.accounted_iff.2 ?_) (Bool.eq_false_iff.1 open_)
      by_cases pending : (s.slot k).entry p.segment = .notStarted
      · refine .inl ⟨.noReadout, ?_⟩
        rw [entries, if_pos ⟨(ExpSlot.mem_late.1 (List.mem_filterMap.2 ⟨p, member, if_pos pending⟩)).1, pending⟩]
      · rcases left p member with h | ⟨w, h⟩ | ⟨n, inside, segment⟩
        · exact absurd h pending
        · refine .inl ⟨w, ?_⟩
          rw [entries, if_neg fun c => pending c.2]
          exact h
        · refine .inr ⟨n, ?_, ?_⟩
          · rw [same]
            exact inside
          · rw [tile]
            exact segment
  have same := TilesSame.settled_granted (u.settleSlot k)
  have final : (u.settleSlot k).slot k = { u.slot k with state := .placing } := by rw [settled, State.slot_setSlot, if_pos rfl]
  have tiles : (u.settleSlot k).tiles = u.tiles := by
    rw [settled]
    rfl
  refine ⟨_, step, ?_, ?_, ?_, ?_, fun n => ?_⟩
  · rw [same.slot, final, ← photo']
    exact queued.photo
  · rw [same.slot, final]
  · rw [same.slot, final, ← photo']
    exact queued.photo
  · rw [same.tiles, tiles]
    exact queued.queue
  · rw [same.tile, State.tile, tiles]
    exact queued.tile n

end

/-- Settles O27: the update of the scale, the freeze and its three triggers, and the hold. -/
theorem scaleUpdateFollowsTheRatio : Obligations.ScaleUpdateFollowsTheRatio := by
  refine ⟨fun p e m _ positive => p.updated_rat e positive, fun p e m => ⟨rfl, fun moves => Photometry.accept_of_moving moves e m,
    fun still => Photometry.accept_of_still ?_ e m⟩, fun s k cause at_ => ?_, fun s n k i ref f found => ?_, fun s k => ?_,
    fun s g => ⟨fun bare => ?_, fun k busy held bare => ?_⟩, fun s n => ?_⟩
  · rintro (tracking | ⟨settled, open_⟩)
    · rcases still with fixed | ⟨settled, -⟩
      · exact nomatch fixed.symm.trans tracking
      · exact nomatch settled.symm.trans tracking
    · rcases still with fixed | ⟨-, frozen⟩
      · exact nomatch fixed.symm.trans settled
      · exact nomatch frozen.symm.trans open_
  · intro x moved can content t frozen
    have named : x.frozenContent k cause moved.length at_ = content := x.frozenContent_eq cause moved.length at_
    refine ⟨fun cannot => ?_, fun can => ?_, fun can busy => ?_⟩
    · exact State.freezeSlot_of_not_freezable _ (decide_eq_false cannot) _ _
    · rw [← named]
      exact State.freezeSlot_of_freezable _ (ExpSlot.freezable_iff.2 can) _ _
    · have spec := State.freezeSlot_of_busy (ExpSlot.freezable_iff.2 can) busy cause at_
      refine ⟨spec.slot, spec.others, spec.queue, spec.tile, spec.holdCounter, spec.holding, ?_, spec.rest⟩
      rw [← named]
      exact spec.host
  · intro x quota
    rw [State.recordRef_of_accepted found, if_pos quota]
    rfl
  · intro x committed spent
    have all : spent ↔ ∀ p ∈ x.placements, s.accounted k p.segment = true :=
      forall₂_congr fun p _ => State.accounted_iff.symm
    refine ⟨fun open_ all_ => State.exhaustedTest_of_spent _ (ExpSlot.isCommitted_iff.2 open_) (all.1 all_), fun neither => ?_,
      fun idle busy running reading mode unfrozen late left some_ => ?_⟩
    · refine if_neg fun ⟨open_, spent_⟩ => ?_
      exact neither.elim (fun h => h (ExpSlot.isCommitted_iff.1 open_)) fun h => h (all.2 (List.all_eq_true.1 spent_))
    · obtain ⟨t, step, photo, state, queued⟩ := exec_readoutLimitExpiry_frozen idle busy running reading ⟨mode, unfrozen⟩ late left some_
      exact ⟨t, step, photo, state, queued.queue, queued.tile⟩
  · exact State.pressSlots_of_bare g allSlots fun j _ => bare j
  · rw [State.pressFreeze_eq, State.pressSlots_of_one g allSlots allSlots_nodup (mem_allSlots k) busy bare,
      State.pressSlot_of_held g held]
  · obtain ⟨tile, counter, holding, queue, rest⟩ := s.holdTile_moves n
    refine ⟨by rw [tile, if_pos rfl], fun m other => by rw [tile, if_neg other], counter, holding, queue, rest⟩

end Sys2Proof.Machine
end

section
/-!
PROOF. The end of a readout with one tile to close (R11, R82 to R87).
-/

namespace Sys2Proof.Machine

section
variable {s : State} {l : Fin 12} {n : Fin 40} {k : Fin 4}

/-- An END marker alone in the buffer: its one tile closes, and the intake has nothing left. -/
theorem exec_readoutEnd_one (idle : s.host.requests = []) (measuring : s.measure l = []) (free : s.holdsClaim (.intake l) = false)
    (buffer : (s.port l).buffer = [.finish]) (one : s.openTiles l = [n]) :
    ∃ w, exec (.readoutEnd l) s = .next w.settle.outboundGrant ∧ TilesSame ((s.setBuffer l []).closeTile l false n) w
      ∧ w.place = ((s.setBuffer l []).closeTile l false n).place ∧ (w.port l).buffer = [] := by
  have one' : (s.setBuffer l []).openTiles l = [n] := one
  have head : (s.port l).endAtHead = true := by rw [Port.endAtHead, buffer]
  have ran : s.intakeRun l =
      if ((s.setBuffer l []).closeTile l false n).measure l = [] then ((s.setBuffer l []).closeTile l false n).setBuffer l []
      else (s.setBuffer l []).closeTile l false n := by
    rw [State.intakeRun_of_free measuring free, buffer]
    unfold State.intakeItems
    dsimp only
    rw [State.closeTiles_of_one one', State.intakeItems_nil]
  have port : (((s.setBuffer l []).closeTile l false n).port l).buffer = [] := by
    have inner := (Inner.closeTiles (s.setBuffer l []) l false).port l
    rw [State.closeTiles_of_one one'] at inner
    rw [inner]
    exact State.port_setBuffer_self s l []
  have started : execReadoutEnd l s = .next (s.intakeRun l).settle.pump := congrArg Host.Outcome.next (if_pos head)
  have stepped : exec (.readoutEnd l) s = .next (s.intakeRun l).settle.outboundGrant :=
    started.trans (congrArg Host.Outcome.next (State.settle_pump ((Cascade.intakeRun s l).requests.trans idle)))
  rw [ran] at stepped
  split at stepped
  · exact ⟨_, stepped, ⟨rfl, rfl, rfl⟩, rfl, State.port_setBuffer_self _ l []⟩
  · exact ⟨_, stepped, .refl _, rfl, port⟩

/-! ## The close within the missing-row limit -/

/-- The part with the tile's close noted. -/
def State.noted (s : State) (l : Fin 12) (n : Fin 40) : State :=
  ((s.setBuffer l []).withdrawWrite (s.tile n).segment).setTile n ((s.tile n).closed false)

theorem State.noted_rest (s : State) (l : Fin 12) (n : Fin 40) :
    { s.noted l n with tiles := s.tiles, store := s.store, ports := s.ports } = s :=
  (congrArg (fun x : State => ({ x with tiles := s.tiles, ports := s.ports } : State))
    ((s.setBuffer l []).withdrawWrite_rest (s.tile n).segment) :)

theorem State.noted_tiles (s : State) (l : Fin 12) (n : Fin 40) :
    (s.noted l n).tiles = { s.tiles with slots := s.tiles.slots.set n.val ((s.tile n).closed false) n.isLt } := by
  have same := (TilesSame.withdrawWrite (s.setBuffer l []) (s.tile n).segment).tiles
  exact congrArg (fun x : TileStore => ({ x with slots := x.slots.set n.val ((s.tile n).closed false) n.isLt } : TileStore)) same

theorem State.noted_tile (s : State) (l : Fin 12) (n m : Fin 40) :
    (s.noted l n).tile m = if n = m then (s.tile n).closed false else s.tile m := by
  have same := (TilesSame.withdrawWrite (s.setBuffer l []) (s.tile n).segment).tile m
  rw [State.noted, State.tile_setTile, same]
  rfl

theorem State.noted_slot (s : State) (l : Fin 12) (n : Fin 40) (j : Fin 4) : (s.noted l n).slot j = s.slot j := by
  rw [State.slot, State.slot, (congrArg State.slots (s.noted_rest l n) :)]

theorem State.closeTile_noted (filling : (s.tile n).state = .filling) (fresh : (s.tile n).missing = none)
    (owner : (s.tile n).owner = some k) (within : (s.tile n).rows - (s.tile n).received ≤ (s.tile n).limit)
    (measuring : s.measure l = []) (bare : (s.slot k).refsFor (s.tile n).segment = []) :
    (s.setBuffer l []).closeTile l false n = (s.noted l n).routeTile n k := by
  have routed := State.closeTile_routed (s := s.setBuffer l []) (l := l) (truncated := false) filling fresh owner within measuring bare
  refine routed.trans (State.measureLoop_of_idle ?_ 1)
  have own : ((s.noted l n).tile n).owner = some k := by
    rw [State.noted_tile, if_pos rfl]
    exact owner
  have same := (Routing.routeTile (e := fun _ => False) own).measuring
  refine Eq.trans ?_ measuring
  show ((s.noted l n).routeTile n k).measure l = _
  rw [State.measure, same, (congrArg State.measuring (s.noted_rest l n) :)]
  rfl

/-! ## Routing in a slot that still awaits a readout -/

/-- The tile's next place: held for the scale, or queued. -/
def State.moveOn (s : State) (n : Fin 40) (k : Fin 4) : State :=
  if (s.slot k).photo.mode = .settled ∧ (s.slot k).photo.frozen = false then s.holdTile n else (s.queueTile n).take

/-- Nothing is exhausted while another listed segment has not started. -/
theorem State.routeTile_of_awaiting (committed : (s.slot k).isCommitted = true)
    (same : (s.moveOn n k).slot k = s.slot k) (timer : (s.slot k).timer = .running) {p : Placement} (mem : p ∈ (s.slot k).placements)
    (pending : (s.slot k).entry p.segment = .notStarted)
    (open_ : (s.slot k).photo.mode = .settled ∧ (s.slot k).photo.frozen = false → (s.moveOn n k).accounted k p.segment = false) :
    s.routeTile n k = (s.moveOn n k).setSlot k { s.slot k with state := .reading } := by
  have opened : (s.slot k).state ≠ .opened := fun h => nomatch (ExpSlot.not_isCommitted_of_opened h).symm.trans committed
  have awaits : (s.slot k).awaits = true := ExpSlot.awaits_iff.2 ⟨p, mem, pending⟩
  have routed : s.routeTile n k = ((s.moveOn n k).exhaustedTest State.take k).settleSlot k := by
    unfold State.routeTile
    dsimp only
    rw [if_neg opened]
    rfl
  have quiet : (s.moveOn n k).exhaustedTest State.take k = s.moveOn n k := by
    by_cases settles : (s.slot k).photo.mode = .settled ∧ (s.slot k).photo.frozen = false
    · exact State.exhaustedTest_of_unaccounted _ (by rw [same]; exact mem) (open_ settles)
    · refine State.exhaustedTest_of_not_freezable _ (decide_eq_false fun can => settles ?_)
      rw [same] at can
      exact can.2
  rw [routed, quiet, State.settleSlot_of_running (by rw [same]; exact committed) (by rw [same]; exact timer)
    (by rw [same]; exact awaits), same]

end

/-- Settles O35: the close of a tile at the end of its readout, in an OPEN and in a committed slot. -/
theorem readoutEndClosesTheTile : Obligations.ReadoutEndClosesTheTile := by
  refine ⟨fun s l n k idle measuring free buffer one owner opened bare link => ?_,
    fun s l n k idle measuring free buffer one owner => ?_⟩
  · intro missing
    obtain ⟨filling, fresh, -⟩ := State.openTiles_spec (n := n) (s := s) (l := l) (by rw [one]; exact List.mem_singleton_self n)
    obtain ⟨w, step, closed, -, emptied⟩ := exec_readoutEnd_one idle measuring free buffer one
    have same := closed.trans (TilesSame.settled_granted w)
    have port : (w.settle.outboundGrant.port l).buffer = [] := by rw [State.settled_granted_port]; exact emptied
    refine ⟨fun within => ?_, fun beyond inStore => ?_⟩
    · have noted := State.closeTile_noted filling fresh owner within measuring bare
      rw [State.routeTile_of_opened (by rw [State.noted_slot]; exact opened)] at noted
      refine ⟨_, step, port, ?_, ?_, fun m other => ?_⟩
      · rw [same.tile, noted, State.tile_modTile, if_pos rfl, State.noted_tile, if_pos rfl]
        rfl
      · rw [same.slots, noted]
        exact (congrArg State.slots (s.noted_rest l n) :)
      · rw [same.tile, noted, State.tile_modTile, if_neg (Ne.symm other), State.noted_tile, if_neg (Ne.symm other)]
    · have closed_ := State.closeTile_discarded (s := s.setBuffer l []) (l := l) (truncated := false) filling fresh owner beyond
      have slot : ((s.noted l n).discardTile n .rows).slot k =
          { s.slot k with totals := (s.slot k).totals.add ((s.tile n).closed false) } := by
        rw [State.discardTile_slot, State.noted_tile, if_pos rfl, State.noted_slot]
        exact if_pos owner
      have first : ((((s.noted l n).discardTile n .rows).slot k).entry (s.tile n).segment).isResolved = false := by
        rw [slot]
        show ((s.slot k).entry _).isResolved = false
        rw [inStore]
        rfl
      have shut : (((s.noted l n).discardTile n .rows).slot k).isCommitted = false := by
        rw [slot]
        exact ExpSlot.not_isCommitted_of_opened opened
      have resolved : (s.setBuffer l []).closeTile l false n = ((s.noted l n).discardTile n .rows).setSlot k
          ((((s.noted l n).discardTile n .rows).slot k).resolve (s.tile n).segment .rows) :=
        closed_.trans (State.resolve_of_uncommitted State.take first .rows shut)
      have tile : ∀ m, ((s.setBuffer l []).closeTile l false n).tile m = if n = m then .empty else s.tile m := fun m => by
        rw [resolved]
        show ((s.noted l n).discardTile n .rows).tile m = _
        rw [State.discardTile_tile, State.noted_tile]
        split <;> rfl
      have final : ((s.setBuffer l []).closeTile l false n).slot k =
          { s.slot k with totals := (s.slot k).totals.add ((s.tile n).closed false) }.resolve (s.tile n).segment .rows := by
        rw [resolved, State.slot_setSlot, if_pos rfl, slot]
      refine ⟨_, step, port, ?_, ?_, ?_, fun m other => ?_⟩
      · rw [same.tile, tile, if_pos rfl]
        rfl
      · rw [same.slot, final]
        exact (ExpSlot.entry_setEntry ..).trans (if_pos rfl)
      · rw [same.slot, final]
        exact satAdd_eq_min ..
      · rw [same.tile, tile, if_neg (Ne.symm other)]
  · intro x y missing committed timer bare within awaits closed settles leads
    obtain ⟨p, mem, apart, pending, unheld⟩ := awaits
    have committed' : ((s.noted l n).slot k).isCommitted = true := by
      rw [State.noted_slot]
      exact ExpSlot.isCommitted_iff.2 committed
    obtain ⟨filling, fresh, -⟩ := State.openTiles_spec (n := n) (s := s) (l := l) (by rw [one]; exact List.mem_singleton_self n)
    obtain ⟨w, step, same, place, emptied⟩ := exec_readoutEnd_one idle measuring free buffer one
    have noted := State.closeTile_noted filling fresh owner within measuring bare
    have vslots : (s.noted l n).slots = s.slots := (congrArg State.slots (s.noted_rest l n) :)
    have vplace : (s.noted l n).place = s.place := (congrArg State.place (s.noted_rest l n) :)
    have vtiles := s.noted_tiles l n
    have led : ∀ (z : State) (f : State → Prop), (s.noted l n).moveOn n k = z → z.slots = s.slots →
        (settles → z.accounted k p.segment = false) → (∀ m, m ≠ n → z.tile m = s.tile m) →
        (∀ t, t.tiles = z.tiles → (∀ ctx, z.place = some ctx → ∃ phase, t.place = some { ctx with phase := phase }) → f t) →
        leads f := fun z f moved zslots open_ others holds => by
      have zslot : ∀ j, z.slot j = s.slot j := fun j => by rw [State.slot, State.slot, zslots]
      have routed := State.routeTile_of_awaiting (s := s.noted l n) (n := n) (k := k) (p := p) committed'
        (by rw [moved, zslot, State.noted_slot]) (by rw [State.noted_slot]; exact timer) (by rw [State.noted_slot]; exact mem)
        (by rw [State.noted_slot]; exact pending) (by rw [moved, State.noted_slot]; exact open_)
      rw [moved, State.noted_slot] at routed
      rw [noted, routed] at same place
      have after := same.trans (TilesSame.settled_granted w)
      refine ⟨_, step, ?_, ?_, fun j other => ?_, fun m other => ?_, holds _ after.tiles fun ctx at_ => ?_⟩
      · rw [State.settled_granted_port]
        exact emptied
      · rw [after.slot, State.slot_setSlot, if_pos rfl]
      · rw [after.slot, State.slot_setSlot, if_neg (Ne.symm other)]
        exact zslot j
      · rw [after.tile]
        exact others m other
      · obtain ⟨phase, final, -⟩ := State.settled_granted_place (place.trans at_)
        exact ⟨phase, final⟩
    refine ⟨fun yes => ?_, fun no busy => ?_, fun no empty queue planned r held => ?_⟩
    · have moved : (s.noted l n).moveOn n k = (s.noted l n).holdTile n := if_pos (by rw [State.noted_slot]; exact yes)
      obtain ⟨tile, counter, holding, queue, rest⟩ := (s.noted l n).holdTile_moves n
      have others : ∀ m, m ≠ n → ((s.noted l n).holdTile n).tile m = s.tile m := fun m other => by
        rw [tile, if_neg other, State.noted_tile, if_neg (Ne.symm other)]
      have own : ((s.noted l n).holdTile n).tile n = { closed with state := .heldScale, holdOrder := some s.tiles.holdCounter } := by
        rw [tile, if_pos rfl, State.noted_tile, if_pos rfl, vtiles]
        rfl
      refine led _ _ moved ((congrArg State.slots rest :).trans vslots) (fun _ => ?_) others fun t tiles _ => ⟨?_, ?_, ?_, ?_⟩
      · refine Bool.eq_false_iff.2 fun accounted => ?_
        rcases State.accounted_iff.1 accounted with ⟨w, resolved⟩ | ⟨m, inside, segment⟩
        · have entry : ((s.noted l n).holdTile n).slot k = s.slot k := by
            rw [State.slot, (congrArg State.slots rest :), vslots, ← State.slot]
          rw [entry, pending] at resolved
          cases resolved
        · obtain ⟨listed, belongs⟩ := State.mem_heldTiles.1 inside
          by_cases self : m = n
          · subst self
            rw [own] at segment
            exact apart segment.symm
          · rw [holding, vtiles, List.mem_append, List.mem_singleton, or_iff_left self] at listed
            rw [others m self] at belongs segment
            exact unheld m (State.mem_heldTiles.2 ⟨listed, belongs⟩) segment
      · rw [State.tile, tiles]
        exact own
      · rw [tiles, counter, vtiles]
        rfl
      · rw [tiles, holding, vtiles]
      · rw [tiles, queue, vtiles]
    · have moved : (s.noted l n).moveOn n k = (s.noted l n).queueTile n :=
        (if_neg (by rw [State.noted_slot]; exact no)).trans (State.take_of_busy _ (fun h => busy (vplace.symm.trans h)))
      obtain ⟨tile, queue, holding, counter, rest⟩ := (s.noted l n).queueTile_moves n
      refine led _ _ moved ((congrArg State.slots rest :).trans vslots) (fun yes => absurd yes no)
        (fun m other => by rw [tile, if_neg other, State.noted_tile, if_neg (Ne.symm other)]) fun t tiles _ => ⟨?_, ?_, ?_⟩
      · rw [State.tile, tiles]
        show ((s.noted l n).queueTile n).tile n = _
        rw [tile, if_pos rfl, State.noted_tile, if_pos rfl]
        rfl
      · rw [tiles, queue, vtiles]
      · rw [tiles, counter, vtiles]
    · obtain ⟨tile, queued, holding, counter, rest⟩ := (s.noted l n).queueTile_moves n
      obtain ⟨q, listed⟩ := Option.isSome_iff_exists.1 (show (x.placementFor y.segment).isSome = true from planned)
      have own : ((s.noted l n).queueTile n).tile n = { closed with state := .queued, holdOrder := none } := by
        rw [tile, if_pos rfl, State.noted_tile, if_pos rfl]
        rfl
      have slots : ((s.noted l n).queueTile n).slots = s.slots := (congrArg State.slots rest :).trans vslots
      have taken := State.take_of_started (s := (s.noted l n).queueTile n) (n := n) (rest := []) (k := k) (p := q) (r := r)
        ((congrArg State.place rest :).trans (vplace.trans empty)) (by rw [queued, vtiles, queue]; rfl) (by rw [own]; exact owner)
        (by rw [own, State.slot, slots]; exact listed) (by rw [own]; exact held)
      dsimp only at taken
      rw [own] at taken
      have moved := (if_neg (by rw [State.noted_slot]; exact no) :
        (s.noted l n).moveOn n k = ((s.noted l n).queueTile n).take).trans taken
      generalize hctx : State.placeContext _ n _ _ q = ctx at moved
      have on : ctx.tile = n := by
        rw [← hctx]
        rfl
      generalize hu : ({ State.setTile _ n _ with place := some ctx } : State) = u at moved
      have utile : ∀ m, u.tile m = if n = m then { closed with state := .placing, holdOrder := none } else s.tile m := fun m => by
        rw [← hu]
        refine (State.tile_setTile _ n m _).trans (ite_congr rfl (fun _ => rfl) fun other => ?_)
        show ((s.noted l n).queueTile n).tile m = _
        rw [tile, if_neg (Ne.symm other), State.noted_tile, if_neg other]
      obtain ⟨started, after, -⟩ := u.startRow_spec ctx r
      have ztiles : (u.startRow ctx r).tiles = (u.setTile ctx.tile { u.tile ctx.tile with reached := r }).tiles :=
        (congrArg State.tiles after :)
      have ztile : ∀ m, (u.startRow ctx r).tile m = if n = m then { closed with state := .placing, holdOrder := none, reached := r }
          else s.tile m := fun m => by
        rw [State.tile, ztiles]
        refine (State.tile_setTile u ctx.tile m _).trans ?_
        rw [on, utile, if_pos rfl]
        refine ite_congr rfl (fun _ => rfl) fun other => ?_
        rw [utile, if_neg other]
      refine led _ _ moved ?_ (fun yes => absurd yes no) (fun m other => by rw [ztile, if_neg (Ne.symm other)])
        fun t tiles placed => ⟨?_, ?_, ?_⟩
      · rw [(congrArg State.slots after :), ← slots, ← hu]
        rfl
      · rw [State.tile, tiles]
        exact (ztile n).trans (if_pos rfl)
      · rw [tiles, ztiles, ← hu]
        rfl
      · obtain ⟨phase, final⟩ := placed _ started
        exact ⟨_, final, on⟩

end Sys2Proof.Machine
end

section
/-!
PROOF. Good ROW frames: what each leaves of its port, and how its markers and its row enter the receive buffer (R9 to R11).
-/

namespace Sys2Proof.Machine

/-! ## A good frame with nothing under way -/

section
variable (s : State) (l : Fin 12)

theorem State.hkWord_fresh (index value : Nat) (fresh : (s.port l).hkPart = []) :
    ∃ part, s.hkWord l index value = s.setPort l { s.port l with hkPart := part } := by
  by_cases first : index = 0
  · subst first
    exact ⟨[value], State.hkWord_of_first s l value⟩
  · exact ⟨[], State.hkWord_of_skip s l value first (by rw [fresh]; exact first)⟩

/-- A good frame raises nothing where no cycle is under assembly and no relay in flight. -/
theorem State.goodFrame_quiet (bytes : List Byte) (fresh : (s.port l).hkPart = []) (idle : (s.port l).relay.phase = .idle) :
    (s.goodFrame l bytes).host = s.host := by
  have counted : (s.modPort l fun p => { p with good := satAdd Config.sat32 p.good 1 }).port l
      = { s.port l with good := satAdd Config.sat32 (s.port l).good 1 } := (State.port_modPort ..).trans (if_pos rfl)
  obtain ⟨part, word⟩ := State.hkWord_fresh (s.modPort l fun p => { p with good := satAdd Config.sat32 p.good 1 }) l
    (bytes.getD 6 0).toNat (word16 bytes 7) (by rw [counted]; exact fresh)
  have still : (((s.modPort l fun p => { p with good := satAdd Config.sat32 p.good 1 }).hkWord l (bytes.getD 6 0).toNat
      (word16 bytes 7)).port l).relay.phase = .idle := by
    rw [word, State.port_setPort, if_pos rfl, counted]
    exact idle
  unfold State.goodFrame
  dsimp only
  split
  · rw [State.relayFrame_of_idle _ _ _ _ still, word]
    rfl
  · rw [State.relayIdle_of_idle _ _ still, word]
    rfl

end

/-! ## The receive buffer -/

/-- The port with a frame's markers, and its row where it is not stale and finds room, in the buffer. -/
def Port.entered (q : Port) (before : List BufItem) (stale : Bool) (r : BufRow) (after : List BufItem) : Port :=
  { q with
    buffer := q.buffer ++ (before ++ (if stale = false ∧ bufferedRows q.buffer < 4 then [.row r] else []) ++ after)
    overflow := if stale = false ∧ ¬bufferedRows q.buffer < 4 then min 4294967295 (q.overflow + 1) else q.overflow }

section
variable (s : State) (l : Fin 12) (q : Port) (h : HostLink)

theorem State.enterRow_onPort (before : List BufItem) (stale : Bool) (r : BufRow) (after : List BufItem) :
    (s.onPort l q h).enterRow l before (if stale then none else some r) after =
      if q.buffer = [] ∧ stale = true then (s.onPort l (q.entered before stale r after) h).readoutStart l
      else (s.onPort l (q.entered before stale r after) h).intakeRun l := by
  have shape : (s.onPort l q h).enterRow l before (if stale then none else some r) after =
      if q.buffer = [] ∧ ((if stale then none else some r : Option BufRow).isSome && decide (bufferedRows q.buffer < Config.bufferRows))
          = false then
        (s.onPort l (q.entered before stale r after) h).readoutStart l
      else (s.onPort l (q.entered before stale r after) h).intakeRun l := by
    unfold State.enterRow
    dsimp only
    rw [State.onPort_port_self, State.onPort_setPort]
    unfold Port.entered
    cases stale with
    | true => rfl
    | false =>
      by_cases room : bufferedRows q.buffer < 4
      · simp only [Config.bufferRows, room, Bool.false_eq_true, if_false, decide_true, if_true, and_true, not_true, and_false]
        rfl
      · simp only [Config.bufferRows, room, Bool.false_eq_true, if_false, decide_false, and_false, not_false_eq_true, and_true]
        rw [satAdd_eq_min]
        rfl
  rw [shape]
  refine if_congr (and_congr_right fun empty => ?_) rfl rfl
  rw [empty]
  cases stale <;> simp [Config.bufferRows, bufferedRows]

theorem State.setBuffer_self : s.setBuffer l (s.port l).buffer = s := State.setPort_port s l

/-- What keeps the intake of a link from its buffer (R9, R97). -/
def State.Held : Prop :=
  s.holdsClaim (.intake l) = true ∨ s.measure l ≠ [] ∨ (∃ rest, (s.port l).buffer = .truncation :: rest)
    ∨ ∃ e r rest, (s.port l).buffer = .start e r :: rest

variable {s l}

theorem State.readoutStart_of_shut (shut : ¬(s.measure l = [] ∧ s.holdsClaim (.intake l) = false)) : s.readoutStart l = s := if_neg shut

theorem State.intakeRun_of_held (held : s.Held l) : s.intakeRun l = s := by
  by_cases open_ : s.measure l = [] ∧ s.holdsClaim (.intake l) = false
  · rw [State.intakeRun_of_free open_.1 open_.2]
    have same := s.setBuffer_self l
    rcases held with claimed | measuring | ⟨rest, head⟩ | ⟨e, r, rest, head⟩
    · exact nomatch open_.2.symm.trans claimed
    · exact absurd open_.1 measuring
    · rw [head] at same ⊢
      rw [State.intakeItems]
      exact same
    · rw [head] at same ⊢
      rw [State.intakeItems]
      exact same
  · exact if_neg open_

/-- An empty buffer gives the intake nothing. -/
theorem State.intakeRun_of_empty (empty : (s.port l).buffer = []) : s.intakeRun l = s := by
  have same := s.setBuffer_self l
  rw [empty] at same
  unfold State.intakeRun
  split
  · rw [empty, State.intakeItems_nil]
    exact same
  · rfl

theorem State.readoutStart_of_empty (empty : (s.port l).buffer = []) : s.readoutStart l = s := by
  unfold State.readoutStart
  split
  · next open_ =>
    rw [empty, State.takeMarkers, State.resumeLink_of_idle open_.1]
    · exact State.intakeRun_of_empty empty
    · exact nofun
    · exact nofun
  · rfl

/-- A row at the head of the buffer: its first slot row with a FILLING tile waits for its write. -/
theorem State.intakeRun_of_row {b : BufRow} {rest : List BufItem} (measuring : s.measure l = []) (free : s.holdsClaim (.intake l) = false)
    (buffer : (s.port l).buffer = .row b :: rest) {sr : SlotRow} {more : List SlotRow} (live : s.liveSlots l b.slots = sr :: more) :
    s.intakeRun l = (s.setBuffer l (.row { b with slots := sr :: more } :: rest)).claim (.intake l) := by
  rw [State.intakeRun_of_free measuring free, buffer, State.intakeItems, live]

theorem State.intakeRun_of_dead_row {b : BufRow} {rest : List BufItem} (measuring : s.measure l = [])
    (free : s.holdsClaim (.intake l) = false) (buffer : (s.port l).buffer = .row b :: rest) (dead : s.liveSlots l b.slots = []) :
    s.intakeRun l = s.intakeItems l rest := by
  rw [State.intakeRun_of_free measuring free, buffer, State.intakeItems, dead]

end

/-! ## The frame's effect on its port -/

/-- The port a good frame leaves before the row is read: `part`, `hk` and `relay` are what the assembler and the relay make of it. -/
def Port.met (p : Port) (part : List Nat) (hk : Option HkCycle) (relay : Relay) (stale : Bool) : Port :=
  { p with good := min 4294967295 (p.good + 1), hkPart := part, hk := hk, relay := relay, badRun := if stale then p.badRun else 0 }

theorem State.lockedFrame_row {s : State} {l : Fin 12} {bytes : List Byte} (sound : (s.port l).cfg.judge bytes = none)
    (row : frameKind bytes = 3) : ∃ part hk relay h, h.requests = s.host.requests
      ∧ ((s.port l).hkPart = [] → (s.port l).relay.phase = .idle → h = s.host)
      ∧ s.lockedFrame l bytes =
        (s.onPort l ((s.port l).met part hk relay ((s.port l).staleRow bytes)) h).rowFrame l bytes := by
  obtain ⟨part, hk, relay, h, good, requests⟩ := s.goodFrame_eq l bytes
  refine ⟨part, hk, relay, h, requests, fun fresh idle => ?_, ?_⟩
  · have quiet := s.goodFrame_quiet l bytes fresh idle
    rw [good] at quiet
    exact quiet
  · unfold State.lockedFrame
    rw [sound]
    dsimp only
    rw [if_pos row, good, State.onPort_port_self, State.onPort_modPort]
    unfold Port.met
    show State.rowFrame (if (s.port l).staleRow bytes = true then _ else _) l bytes = _
    cases (s.port l).staleRow bytes with
    | true => rfl
    | false => rfl

/-! ## A ROW frame with START -/

/-- The port with the context, the state and the stale count of a ROW frame that starts a readout. -/
def Port.started (q : Port) (bytes : List Byte) (stale : Bool) : Port :=
  { q with
    state := if frameEnd bytes = true then .synced else .reading
    reason := none
    ctx := if frameEnd bytes = true then none else some { exposure := frameTag bytes, lastRow := frameRow bytes, latched := none }
    stale := if stale then min 4294967295 (q.stale + 1) else q.stale }

/-- The notices of a ROW frame that starts a readout. -/
def HostLink.started (h : HostLink) (l : Fin 12) (q : Port) (bytes : List Byte) : HostLink :=
  if frameEnd bytes = true then (h.told l q .reading none .start).told l { q with state := .reading, reason := none } .synced none .finish
  else h.told l q .reading none .start

/-- The markers of a ROW frame that starts a readout. -/
def Port.marks (q : Port) (bytes : List Byte) : List BufItem :=
  (if q.state = .reading then [BufItem.truncation] else []) ++ [.start (frameTag bytes) (frameRow bytes)]

/-- The END marker of a ROW frame, if it carries one. -/
def endMark (bytes : List Byte) : List BufItem := if frameEnd bytes = true then [.finish] else []

section
variable (s : State) (l : Fin 12) (q : Port) (h : HostLink) (bytes : List Byte)

theorem State.countStale_onPort : (s.onPort l q h).countStale l = s.onPort l { q with stale := min 4294967295 (q.stale + 1) } h := by
  rw [State.countStale, State.onPort_modPort, satAdd_eq_min]
  rfl

theorem State.rowStart_onPort :
    (s.onPort l q h).rowStart l bytes =
      (s.onPort l (q.started bytes (decide (q.cfg.rows ≤ frameRow bytes))) (h.started l q bytes)).enterRow l (q.marks bytes)
        (if decide (q.cfg.rows ≤ frameRow bytes) then none else some (q.cfg.rowOf bytes)) (endMark bytes) := by
  unfold State.rowStart
  dsimp only
  rw [State.onPort_port_self]
  generalize stale : decide (q.cfg.rows ≤ frameRow bytes) = st
  unfold Port.started HostLink.started endMark
  simp only [State.onPort_modPort, State.setPortState_eq, State.onPort_port_self, State.onPort_host, State.onPort_onPort]
  cases frameEnd bytes <;> cases st <;>
    simp only [if_true, if_false, Bool.false_eq_true, State.countStale_onPort] <;> rfl

/-! ## A ROW frame in a readout -/

/-- The port with the context, the state and the stale count of a ROW frame of its readout. -/
def Port.continued (q : Port) (c : ReadoutCtx) (bytes : List Byte) (stale : Bool) : Port :=
  { q with
    state := if frameEnd bytes = true then .synced else q.state
    reason := if frameEnd bytes = true then none else q.reason
    ctx := if frameEnd bytes = true then none else if stale then q.ctx else some { c with lastRow := frameRow bytes }
    stale := if stale then min 4294967295 (q.stale + 1) else q.stale }

/-- The notices of a ROW frame of its readout. -/
def HostLink.continued (h : HostLink) (l : Fin 12) (q : Port) (bytes : List Byte) : HostLink :=
  if frameEnd bytes = true then h.told l q .synced none .finish else h

theorem State.rowInReadout_onPort (c : ReadoutCtx) (same : frameTag bytes = c.exposure) :
    (s.onPort l q h).rowInReadout l c bytes =
      (s.onPort l (q.continued c bytes (decide (frameRow bytes ≤ c.lastRow ∨ q.cfg.rows ≤ frameRow bytes)))
          (h.continued l q bytes)).enterRow l []
        (if decide (frameRow bytes ≤ c.lastRow ∨ q.cfg.rows ≤ frameRow bytes) then none else some (q.cfg.rowOf bytes))
        (endMark bytes) := by
  unfold State.rowInReadout
  dsimp only
  rw [if_neg (not_not.2 same), State.onPort_port_self]
  generalize stale : decide (frameRow bytes ≤ c.lastRow ∨ q.cfg.rows ≤ frameRow bytes) = st
  unfold Port.continued HostLink.continued endMark
  cases frameEnd bytes <;> cases st <;>
    simp only [if_true, if_false, Bool.false_eq_true, State.onPort_modPort, State.onPort_port_self, State.onPort_host,
      State.onPort_onPort, State.countStale_onPort, State.setPortState_eq] <;> rfl

theorem State.rowInReadout_other (c : ReadoutCtx) (other : frameTag bytes ≠ c.exposure) :
    (s.onPort l q h).rowInReadout l c bytes = s.onPort l { q with stale := min 4294967295 (q.stale + 1) } h :=
  (if_pos other).trans (State.countStale_onPort s l q h)

end

end Sys2Proof.Machine
end

section
/-!
PROOF. CAMERA_FRAME with a good ROW frame (R6, R7, R9 to R11).
-/

namespace Sys2Proof.Machine

/-! ## The event around the frame -/

section
variable {s : State} {l : Fin 12} {bytes : List Byte} {q : Port} {h : HostLink}

/-- A port in lock answers the frame: only its lane and what its relay owes change. -/
theorem State.sendLane_onPort (u : State) (locked : q.state ∈ [.synced, .reading]) :
    ∃ lane relay, (u.onPort l q h).sendLane l = u.onPort l { q with lane := lane, relay := relay } h := by
  have sends : ((u.onPort l q h).port l).state.sends = .idleFrames := by
    rw [State.onPort_port_self]
    simp only [List.mem_cons, List.not_mem_nil, or_false] at locked
    rcases locked with h | h <;> rw [h] <;> rfl
  refine ⟨some q.relay.lane, { q.relay with abortOwed := false }, ?_⟩
  rw [State.sendLane_eq _ l sends, State.onPort_onPort, State.onPort_port_self, State.onPort_host]

/-- The frame leaves its port `q` but for the lane, and the host link `h`. -/
theorem exec_lockedFrame_reaches (rising : Bool) (locked : (s.port l).state ∈ [.synced, .reading])
    (frame : s.lockedFrame l bytes = s.onPort l q h) (state : q.state ∈ [.synced, .reading]) (requests : h.requests = []) :
    ∃ u : State, exec (.cameraFrame l rising bytes) s = .next u.outboundGrant
      ∧ (∃ lane relay, u.port l = { q with lane := lane, relay := relay }) ∧ u.host = h
      ∧ (∀ j, j ≠ l → u.port j = s.port j) ∧ s.LinkFrame u := by
  have arrives := State.frameArrives_of_locked locked rising bytes
  obtain ⟨lane, relay, sent⟩ := State.sendLane_onPort (l := l) (h := h) s state
  rw [frame, sent] at arrives
  obtain ⟨u, run, port, rest⟩ := exec_cameraFrame_reaches arrives requests
  exact ⟨u, run, ⟨lane, relay, port⟩, rest⟩

/-- The frame's markers are taken at once. -/
theorem exec_lockedFrame_takes (rising : Bool) (locked : (s.port l).state ∈ [.synced, .reading])
    (frame : s.lockedFrame l bytes = (s.onPort l q h).readoutStart l) (requests : h.requests = []) :
    exec (.cameraFrame l rising bytes) s =
      .next (State.outboundGrant (State.settle (((s.onPort l q h).readoutStart l).sendLane l))) := by
  have arrives := State.frameArrives_of_locked locked rising bytes
  rw [frame] at arrives
  show Host.Outcome.next (s.frameArrives l rising bytes).settle.pump = _
  rw [arrives]
  refine congrArg Host.Outcome.next (State.settle_pump ?_)
  exact ((Cascade.sendLane _ l).requests.trans (Arming.readoutStart _ l).rest.requests).trans requests

/-- The frame's row waits for its write. -/
theorem exec_lockedFrame_claims (rising : Bool) (locked : (s.port l).state ∈ [.synced, .reading])
    (frame : s.lockedFrame l bytes = (s.onPort l q h).claim (.intake l)) (state : q.state ∈ [.synced, .reading])
    (requests : h.requests = []) :
    ∃ u : State, exec (.cameraFrame l rising bytes) s = .next u.outboundGrant
      ∧ (∃ lane relay, u.port l = { q with lane := lane, relay := relay }) ∧ u.host = h
      ∧ (∀ j, j ≠ l → u.port j = s.port j) ∧ s.LinkFrame u ∧ u.holdsClaim (.intake l) = true := by
  have arrives := State.frameArrives_of_locked locked rising bytes
  have inside : (s.onPort l q h).claim (.intake l) = (s.claim (.intake l)).onPort l q h := rfl
  obtain ⟨lane, relay, sent⟩ := State.sendLane_onPort (l := l) (h := h) (s.claim (.intake l)) state
  rw [frame, inside, sent] at arrives
  obtain ⟨port, host, others, keeps⟩ := (s.claim (.intake l)).onPort_settled l { q with lane := lane, relay := relay } h
  have claimed : s.LinkFrame (s.claim (.intake l)) := rfl
  refine ⟨_, ?_, ⟨lane, relay, port⟩, host, others, claimed.trans keeps, State.holdsClaim_settle (State.holdsClaim_claim_self _ _)⟩
  show Host.Outcome.next (s.frameArrives l rising bytes).settle.pump = _
  rw [arrives]
  exact congrArg Host.Outcome.next (State.settle_pump requests)

end

/-! ## The notices -/

section
variable {l : Fin 12} {q : Port} {bytes : List Byte} (h : HostLink)

theorem HostLink.started_requests : (h.started l q bytes).requests = h.requests := by
  unfold HostLink.started
  split
  · rw [HostLink.told_requests, HostLink.told_requests]
  · exact HostLink.told_requests ..

theorem HostLink.continued_requests : (h.continued l q bytes).requests = h.requests := by
  unfold HostLink.continued
  split
  · exact HostLink.told_requests ..
  · rfl

theorem HostLink.told_of_change {st : PortState} (change : q.state ≠ st) (reason : Option FaultReason) (cause : LinkCause) :
    h.told l q st reason cause =
      h.raise .linkState (code8 l.val ++ portCode q.state q.reason ++ portCode st reason ++ code8 cause.code) := if_neg change

theorem HostLink.told_of_same {st : PortState} (same : q.state = st) (reason : Option FaultReason) (cause : LinkCause) :
    h.told l q st reason cause = h := if_pos same

theorem HostLink.started_of_locked (locked : q.state ∈ [.synced, .reading]) :
    h.started l q bytes =
      let begun := if q.state = .synced then
          h.raise .linkState (code8 l.val ++ portCode .synced q.reason ++ portCode .reading none ++ code8 6) else h
      if frameEnd bytes = true then
        begun.raise .linkState (code8 l.val ++ portCode .reading none ++ portCode .synced none ++ code8 7)
      else begun := by
  have first : h.told l q .reading none .start = if q.state = .synced then
      h.raise .linkState (code8 l.val ++ portCode .synced q.reason ++ portCode .reading none ++ code8 6) else h := by
    simp only [List.mem_cons, List.not_mem_nil, or_false] at locked
    rcases locked with synced | reading
    · rw [if_pos synced, HostLink.told_of_change h (by rw [synced]; decide), synced]
      rfl
    · rw [if_neg (by rw [reading]; decide), HostLink.told_of_same h reading]
  rw [HostLink.started, first]
  rfl

theorem HostLink.continued_of_reading (reading : q.state = .reading) :
    h.continued l q bytes = if frameEnd bytes = true then
      h.raise .linkState (code8 l.val ++ portCode .reading q.reason ++ portCode .synced none ++ code8 7) else h := by
  unfold HostLink.continued
  rw [HostLink.told_of_change h (by rw [reading]; decide), reading]
  rfl

end

/-- The first item of a buffer stays its first. -/
theorem State.Held.append {s : State} {l : Fin 12} (held : s.Held l) {u : State} (claims : u.store = s.store)
    (measuring : u.measuring = s.measuring) {more : List BufItem} (buffer : (u.port l).buffer = (s.port l).buffer ++ more) : u.Held l := by
  rcases held with claimed | busy | ⟨rest, head⟩ | ⟨e, r, rest, head⟩
  · exact .inl (by rw [State.holdsClaim, claims]; exact claimed)
  · exact .inr (.inl (by rw [State.measure, measuring]; exact busy))
  · exact .inr (.inr (.inl ⟨rest ++ more, by rw [buffer, head]; rfl⟩))
  · exact .inr (.inr (.inr ⟨e, r, rest ++ more, by rw [buffer, head]; rfl⟩))

/-- With an empty buffer, only a claim or a measurement keeps the intake from it. -/
theorem State.Held.shut {s : State} {l : Fin 12} (held : s.Held l) (empty : (s.port l).buffer = []) :
    ¬(s.measure l = [] ∧ s.holdsClaim (.intake l) = false) := by
  rintro ⟨none, free⟩
  rcases held with claimed | busy | ⟨rest, head⟩ | ⟨e, r, rest, head⟩
  · exact nomatch free.symm.trans claimed
  · exact busy none
  · exact nomatch empty.symm.trans head
  · exact nomatch empty.symm.trans head

theorem State.open_of_not_held {s : State} {l : Fin 12} (open_ : ¬s.Held l) : s.measure l = [] ∧ s.holdsClaim (.intake l) = false :=
  ⟨by_contra fun busy => open_ (.inr (.inl busy)), Bool.eq_false_iff.2 fun claimed => open_ (.inl claimed)⟩

/-! ## What the obligation asks of a ROW frame -/

/-- The frame leaves its port's counters, its configuration, every other port and every other part; `h` is the host link where nothing
else speaks. -/
def State.RowSound (s : State) (l : Fin 12) (u : State) (h : HostLink) : Prop :=
  (u.port l).good = min 4294967295 ((s.port l).good + 1) ∧ (u.port l).bad = (s.port l).bad ∧ (u.port l).cfg = (s.port l).cfg
    ∧ (∀ j, j ≠ l → u.port j = s.port j) ∧ s.LinkFrame u ∧ ((s.port l).hkPart = [] → (s.port l).relay.phase = .idle → u.host = h)

/-- The frame enters the buffer, and no more. -/
def State.RowReaches (s : State) (l : Fin 12) (rising : Bool) (bytes : List Byte) (h : HostLink) (f : Port → Prop) : Prop :=
  ∃ u : State, exec (.cameraFrame l rising bytes) s = .next u.outboundGrant ∧ f (u.port l) ∧ s.RowSound l u h

/-- The frame enters the buffer, and its markers are taken. -/
def State.RowTaken (s : State) (l : Fin 12) (rising : Bool) (bytes : List Byte) (h : HostLink) (f : Port → Prop) : Prop :=
  ∃ v : State, exec (.cameraFrame l rising bytes) s = .next (State.outboundGrant (State.settle ((v.readoutStart l).sendLane l)))
    ∧ f (v.port l) ∧ s.RowSound l v h

/-- The counts a ROW frame leaves. -/
def Port.RowCounted (p : Port) (stale : Bool) (q : Port) : Prop :=
  q.badRun = (if stale then p.badRun else 0) ∧ q.stale = (if stale then min 4294967295 (p.stale + 1) else p.stale)
    ∧ q.overflow = if stale = false ∧ ¬bufferedRows p.buffer < 4 then min 4294967295 (p.overflow + 1) else p.overflow

/-- The host link that `H` is where the frame finds nothing under way. -/
def State.Quietly (s : State) (l : Fin 12) (H said : HostLink) : Prop :=
  (s.port l).hkPart = [] → (s.port l).relay.phase = .idle → H = said

/-- The counters and the configuration a good frame leaves. -/
def Port.Counts (p q : Port) : Prop := q.good = min 4294967295 (p.good + 1) ∧ q.bad = p.bad ∧ q.cfg = p.cfg

section
variable {s : State} {l : Fin 12} {bytes : List Byte} {Q : Port} {H said : HostLink} {f : Port → Prop}

theorem State.rowReaches_of (rising : Bool) (locked : (s.port l).state ∈ [.synced, .reading])
    (frame : s.lockedFrame l bytes = s.onPort l Q H) (state : Q.state ∈ [.synced, .reading]) (requests : H.requests = [])
    (counts : (s.port l).Counts Q) (host : s.Quietly l H said) (holds : ∀ lane relay, f { Q with lane := lane, relay := relay }) :
    s.RowReaches l rising bytes said f := by
  obtain ⟨u, run, ⟨lane, relay, port⟩, same, others, keeps⟩ := exec_lockedFrame_reaches rising locked frame state requests
  obtain ⟨good, bad, cfg⟩ := counts
  refine ⟨u, run, ?_, ?_, ?_, ?_, others, keeps, fun fresh idle => same.trans (host fresh idle)⟩
  · rw [port]
    exact holds lane relay
  · rw [port]
    exact good
  · rw [port]
    exact bad
  · rw [port]
    exact cfg

theorem State.rowTaken_of (rising : Bool) (locked : (s.port l).state ∈ [.synced, .reading])
    (frame : s.lockedFrame l bytes = (s.onPort l Q H).readoutStart l) (requests : H.requests = [])
    (counts : (s.port l).Counts Q) (host : s.Quietly l H said) (holds : f Q) : s.RowTaken l rising bytes said f := by
  obtain ⟨good, bad, cfg⟩ := counts
  refine ⟨s.onPort l Q H, exec_lockedFrame_takes rising locked frame requests, ?_, ?_, ?_, ?_,
    fun j other => State.onPort_port_ne _ _ _ _ other, State.LinkFrame.onPort s l Q H, host⟩
  · rw [State.onPort_port_self]
    exact holds
  · rw [State.onPort_port_self]
    exact good
  · rw [State.onPort_port_self]
    exact bad
  · rw [State.onPort_port_self]
    exact cfg

end

/-! ## A frame that starts a readout -/

section
variable {s : State} {l : Fin 12} {bytes : List Byte}

/-- The port of a ROW frame that starts a readout. -/
def Port.opening (p : Port) (bytes : List Byte) (stale : Bool) (q : Port) : Prop :=
  q.state = (if frameEnd bytes = true then .synced else .reading)
    ∧ q.ctx = (if frameEnd bytes = true then none
        else some { exposure := frameTag bytes, lastRow := frameRow bytes, latched := none }) ∧ p.RowCounted stale q
    ∧ q.buffer = p.buffer ++ (if p.state = .reading then [.truncation] else []) ++ [.start (frameTag bytes) (frameRow bytes)]
        ++ (if stale = false ∧ bufferedRows p.buffer < 4 then [.row (p.cfg.rowOf bytes)] else [])
        ++ if frameEnd bytes = true then [.finish] else []

theorem Port.opening_entered (p : Port) (part : List Nat) (hk : Option HkCycle) (relay : Relay) (stale : Bool) (lane) (relay' : Relay) :
    p.opening bytes stale { ((p.met part hk relay stale).started bytes stale).entered (p.marks bytes) stale (p.cfg.rowOf bytes)
      (endMark bytes) with lane := lane, relay := relay' } := by
  refine ⟨rfl, rfl, ⟨rfl, rfl, rfl⟩, ?_⟩
  show p.buffer ++ (p.marks bytes ++ (if stale = false ∧ bufferedRows p.buffer < 4 then _ else _) ++ endMark bytes) = _
  rw [Port.marks, endMark]
  simp only [List.append_assoc]

/-- A good ROW frame that starts a readout, up to the taking of its markers or its row. -/
theorem State.lockedFrame_starts (sound : (s.port l).cfg.judge bytes = none) (kind : frameKind bytes = 3)
    (start : frameStart bytes = true) :
    let p := s.port l
    let stale := decide (p.cfg.rows ≤ frameRow bytes)
    ∃ (Q : Port) (h : HostLink), h.requests = s.host.requests ∧ s.Quietly l h s.host ∧ p.Counts Q
      ∧ (∀ lane relay, p.opening bytes stale { Q with lane := lane, relay := relay })
      ∧ Q.buffer = p.buffer ++ (p.marks bytes
        ++ (if stale = false ∧ bufferedRows p.buffer < 4 then [.row (p.cfg.rowOf bytes)] else []) ++ endMark bytes)
      ∧ s.lockedFrame l bytes = if p.buffer = [] ∧ stale = true then (s.onPort l Q (h.started l p bytes)).readoutStart l
          else (s.onPort l Q (h.started l p bytes)).intakeRun l := by
  intro p stale
  obtain ⟨part, hk, relay, h, requests, quiet, frame⟩ := State.lockedFrame_row sound kind
  have staleRow : p.staleRow bytes = stale := if_pos start
  refine ⟨((p.met part hk relay stale).started bytes stale).entered (p.marks bytes) stale (p.cfg.rowOf bytes) (endMark bytes), h,
    requests, quiet, ⟨rfl, rfl, rfl⟩, p.opening_entered part hk relay stale, rfl, ?_⟩
  rw [frame, staleRow, State.rowFrame, if_pos start, State.rowStart_onPort]
  exact State.enterRow_onPort s l ((p.met part hk relay stale).started bytes stale) (h.started l p bytes) (p.marks bytes) stale
    (p.cfg.rowOf bytes) (endMark bytes)

/-- The markers stand at the head of an empty buffer. -/
theorem State.held_of_marks {u : State} {p : Port} {row mark : List BufItem} (empty : p.buffer = [])
    (buffer : (u.port l).buffer = p.buffer ++ (p.marks bytes ++ row ++ mark)) : u.Held l := by
  rw [empty, List.nil_append, List.append_assoc, Port.marks] at buffer
  by_cases reading : p.state = .reading
  · rw [if_pos reading] at buffer
    exact .inr (.inr (.inl ⟨_, buffer⟩))
  · rw [if_neg reading] at buffer
    exact .inr (.inr (.inr ⟨_, _, _, buffer⟩))

theorem exec_rowFrame_starts (rising : Bool) (idle : s.host.requests = []) (sound : (s.port l).cfg.judge bytes = none)
    (kind : frameKind bytes = 3) (start : frameStart bytes = true) (locked : (s.port l).state ∈ [.synced, .reading]) :
    let p := s.port l
    let stale := decide (p.cfg.rows ≤ frameRow bytes)
    let said := s.host.started l p bytes
    (s.Held l ∨ (p.buffer = [] ∧ stale = false) → s.RowReaches l rising bytes said (p.opening bytes stale))
    ∧ (p.buffer = [] → stale = true → ¬s.Held l → s.RowTaken l rising bytes said (p.opening bytes stale)) := by
  intro p stale said
  obtain ⟨Q, h, requests, quiet, counts, shown, buffer, frame⟩ := State.lockedFrame_starts sound kind start
  have state : Q.state ∈ [.synced, .reading] := by
    rw [(shown Q.lane Q.relay).1]
    split <;> decide
  have none : (h.started l p bytes).requests = [] := (HostLink.started_requests h).trans (requests.trans idle)
  have same : s.Quietly l (h.started l p bytes) said := fun fresh still => by rw [quiet fresh still]
  refine ⟨fun or => ?_, fun empty yes free => ?_⟩
  · refine State.rowReaches_of rising locked (frame.trans ?_) state none counts same shown
    by_cases now : p.buffer = [] ∧ stale = true
    · have held : s.Held l := or.resolve_right fun c => nomatch now.2.symm.trans c.2
      exact (if_pos now).trans (State.readoutStart_of_shut (held.shut now.1))
    · refine (if_neg now).trans (State.intakeRun_of_held ?_)
      rcases or with held | ⟨empty, -⟩
      · exact held.append rfl rfl ((congrArg Port.buffer (State.onPort_port_self ..)).trans buffer)
      · exact State.held_of_marks empty ((congrArg Port.buffer (State.onPort_port_self ..)).trans buffer)
  · exact State.rowTaken_of rising locked (frame.trans (if_pos ⟨empty, yes⟩)) none counts same (shown Q.lane Q.relay)

end

/-! ## A frame of the readout under way -/

section
variable {s : State} {l : Fin 12} {bytes : List Byte} {c : ReadoutCtx}

/-- The port of a ROW frame of a readout under way. -/
def Port.advanced (p : Port) (c : ReadoutCtx) (bytes : List Byte) (stale : Bool) (items : List BufItem) (q : Port) : Prop :=
  q.state = (if frameEnd bytes = true ∧ frameTag bytes = c.exposure then .synced else .reading)
    ∧ q.ctx = (if frameEnd bytes = true ∧ frameTag bytes = c.exposure then none
        else some { c with lastRow := if stale then c.lastRow else frameRow bytes }) ∧ p.RowCounted stale q
    ∧ q.buffer = items

/-- The part with the row judged and its marks and the row in the buffer, whatever the buffer holds after. -/
theorem Port.advanced_entered {p : Port} (part : List Nat) (hk : Option HkCycle) (relay : Relay) (stale : Bool)
    (reading : p.state = .reading) (ctx : p.ctx = some c) (mine : frameTag bytes = c.exposure) (items : List BufItem) (lane) (relay' : Relay) :
    p.advanced c bytes stale items { ((p.met part hk relay stale).continued c bytes stale).entered [] stale (p.cfg.rowOf bytes)
      (endMark bytes) with buffer := items, lane := lane, relay := relay' } := by
  refine ⟨?_, ?_, ⟨rfl, rfl, rfl⟩, rfl⟩
  · show (if frameEnd bytes = true then _ else p.state) = _
    rw [reading]
    exact if_congr (and_iff_left mine).symm rfl rfl
  · show (if frameEnd bytes = true then none else if stale = true then p.ctx else some { c with lastRow := frameRow bytes }) = _
    refine if_congr (and_iff_left mine).symm rfl ?_
    rw [ctx]
    split <;> rfl

/-- A good ROW frame of the readout under way, up to the taking of its marker or its row. -/
theorem State.lockedFrame_reads (sound : (s.port l).cfg.judge bytes = none) (kind : frameKind bytes = 3)
    (start : frameStart bytes = false) (reading : (s.port l).state = .reading) (ctx : (s.port l).ctx = some c)
    (mine : frameTag bytes = c.exposure) :
    let p := s.port l
    let stale := decide (frameTag bytes ≠ c.exposure ∨ frameRow bytes ≤ c.lastRow ∨ p.cfg.rows ≤ frameRow bytes)
    ∃ (Q : Port) (h : HostLink), h.requests = s.host.requests ∧ s.Quietly l h s.host ∧ p.Counts Q
      ∧ (∀ items lane relay, p.advanced c bytes stale items { Q with buffer := items, lane := lane, relay := relay })
      ∧ Q.buffer = p.buffer ++ (if stale = false ∧ bufferedRows p.buffer < 4 then [.row (p.cfg.rowOf bytes)] else []) ++ endMark bytes
      ∧ s.lockedFrame l bytes = if p.buffer = [] ∧ stale = true then (s.onPort l Q (h.continued l p bytes)).readoutStart l
          else (s.onPort l Q (h.continued l p bytes)).intakeRun l := by
  intro p stale
  obtain ⟨part, hk, relay, h, requests, quiet, frame⟩ := State.lockedFrame_row sound kind
  have staleRow : p.staleRow bytes = stale := by
    rw [Port.staleRow, if_neg (by rw [start]; decide), ctx]
  have stale_eq : decide (frameRow bytes ≤ c.lastRow ∨ p.cfg.rows ≤ frameRow bytes) = stale :=
    decide_eq_decide.2 (or_iff_right (not_not.2 mine)).symm
  have same : ((s.onPort l (p.met part hk relay stale) h).port l).ctx = some c := by
    rw [State.onPort_port_self]
    exact ctx
  have entered := State.rowInReadout_onPort s l (p.met part hk relay stale) h bytes c mine
  change _ = State.enterRow (s.onPort l (Port.continued _ c bytes (decide (frameRow bytes ≤ c.lastRow ∨ p.cfg.rows ≤ frameRow bytes))) _) l []
    (if decide (frameRow bytes ≤ c.lastRow ∨ p.cfg.rows ≤ frameRow bytes) then _ else some (p.cfg.rowOf bytes)) _ at entered
  rw [stale_eq] at entered
  refine ⟨((p.met part hk relay stale).continued c bytes stale).entered [] stale (p.cfg.rowOf bytes) (endMark bytes), h,
    requests, quiet, ⟨rfl, rfl, rfl⟩, p.advanced_entered part hk relay stale reading ctx mine, (List.append_assoc ..).symm, ?_⟩
  rw [frame, staleRow, State.rowFrame, if_neg (by rw [start]; decide), same]
  exact entered.trans (State.enterRow_onPort s l ((p.met part hk relay stale).continued c bytes stale) (h.continued l p bytes) [] stale
    (p.cfg.rowOf bytes) (endMark bytes))

theorem exec_rowFrame_reads (rising : Bool) (idle : s.host.requests = []) (sound : (s.port l).cfg.judge bytes = none)
    (kind : frameKind bytes = 3) (start : frameStart bytes = false) (reading : (s.port l).state = .reading)
    (ctx : (s.port l).ctx = some c) (mine : frameTag bytes = c.exposure) :
    let p := s.port l
    let stale := decide (frameTag bytes ≠ c.exposure ∨ frameRow bytes ≤ c.lastRow ∨ p.cfg.rows ≤ frameRow bytes)
    let said := s.host.continued l p bytes
    let live := s.liveSlots l (p.cfg.rowOf bytes).slots
    (s.Held l ∨ (p.buffer = [] ∧ stale = true ∧ ¬frameEnd bytes = true) → s.RowReaches l rising bytes said (p.advanced c bytes stale
        (p.buffer ++ (if stale = false ∧ bufferedRows p.buffer < 4 then [.row (p.cfg.rowOf bytes)] else []) ++ endMark bytes)))
    ∧ (p.buffer = [] → stale = true → s.RowTaken l rising bytes said (p.advanced c bytes stale (endMark bytes)))
    ∧ (p.buffer = [] → stale = false → ¬s.Held l → live ≠ [] →
        s.RowReaches l rising bytes said (p.advanced c bytes stale (.row { p.cfg.rowOf bytes with slots := live } :: endMark bytes))
        ∧ ∃ t, exec (.cameraFrame l rising bytes) s = .next t ∧ t.holdsClaim (.intake l) = true)
    ∧ (p.buffer = [] → stale = false → ¬s.Held l → live = [] → ¬frameEnd bytes = true →
        s.RowReaches l rising bytes said (p.advanced c bytes stale [])) := by
  intro p stale said live
  have locked : p.state ∈ [.synced, .reading] := by
    rw [reading]
    decide
  obtain ⟨Q, h, requests, quiet, counts, shown, buffer, frame⟩ := State.lockedFrame_reads sound kind start reading ctx mine
  have state : Q.state ∈ [.synced, .reading] := by
    rw [(shown [] Q.lane Q.relay).1]
    split <;> decide
  have none : (h.continued l p bytes).requests = [] := (HostLink.continued_requests h).trans (requests.trans idle)
  have same : s.Quietly l (h.continued l p bytes) said := fun fresh still => by rw [quiet fresh still]
  have own : ∀ items, Q.buffer = items → ∀ lane relay, p.advanced c bytes stale items { Q with lane := lane, relay := relay } :=
    fun items same lane relay => by
      have shown' := shown items lane relay
      rw [← same] at shown' ⊢
      exact shown'
  have port : (s.onPort l Q (h.continued l p bytes)).port l = Q := State.onPort_port_self ..
  have fresh_row : p.buffer = [] → stale = false → Q.buffer = .row (p.cfg.rowOf bytes) :: endMark bytes := fun empty fresh => by
    rw [buffer, if_pos ⟨fresh, by rw [empty]; decide⟩, empty]
    rfl
  have only_mark : p.buffer = [] → stale = true → Q.buffer = endMark bytes := fun empty yes => by
    rw [buffer, if_neg fun both => (nomatch both.1.symm.trans yes), empty]
    rfl
  have ran : stale = false → s.lockedFrame l bytes = (s.onPort l Q (h.continued l p bytes)).intakeRun l := fun fresh =>
    frame.trans (if_neg fun both => Bool.false_ne_true (fresh.symm.trans both.2))
  have setBuffer : ∀ items, (s.onPort l Q (h.continued l p bytes)).setBuffer l items
      = s.onPort l { Q with buffer := items } (h.continued l p bytes) := fun items => by
    rw [State.setBuffer, State.onPort_modPort]
  refine ⟨fun or => ?_, fun empty yes => ?_, fun empty fresh free alive => ?_, fun empty fresh free dead open_ => ?_⟩
  · refine State.rowReaches_of rising locked (frame.trans ?_) state none counts same (own _ buffer)
    by_cases now : p.buffer = [] ∧ stale = true
    · refine (if_pos now).trans ?_
      rcases or with held | ⟨-, -, open_⟩
      · exact State.readoutStart_of_shut (held.shut now.1)
      · exact State.readoutStart_of_empty (by rw [port, only_mark now.1 now.2]; exact if_neg open_)
    · refine (if_neg now).trans (State.intakeRun_of_held ?_)
      have held : s.Held l := or.resolve_right fun c => now ⟨c.1, c.2.1⟩
      exact held.append rfl rfl ((congrArg Port.buffer port).trans (buffer.trans (List.append_assoc ..)))
  · exact State.rowTaken_of rising locked (frame.trans (if_pos ⟨empty, yes⟩)) none counts same
      (own _ (only_mark empty yes) Q.lane Q.relay)
  · obtain ⟨sr, more, split_⟩ := List.exists_cons_of_ne_nil alive
    obtain ⟨measuring, unclaimed⟩ := State.open_of_not_held free
    have claimed : s.lockedFrame l bytes = (s.onPort l { Q with buffer := .row { p.cfg.rowOf bytes with slots := live } :: endMark bytes }
        (h.continued l p bytes)).claim (.intake l) := by
      refine (ran fresh).trans ?_
      rw [State.intakeRun_of_row (s := s.onPort l Q (h.continued l p bytes)) measuring unclaimed
        ((congrArg Port.buffer port).trans (fresh_row empty fresh)) split_, setBuffer, ← split_]
    obtain ⟨u, run, ⟨lane, relay, at_⟩, host, others, keeps, held⟩ := exec_lockedFrame_claims rising locked claimed state none
    obtain ⟨good, bad, cfg⟩ := counts
    refine ⟨⟨u, run, ?_, ?_, ?_, ?_, others, keeps, fun quiet still => host.trans (same quiet still)⟩, _, run, ?_⟩
    · rw [at_]
      exact shown _ lane relay
    · rw [at_]
      exact good
    · rw [at_]
      exact bad
    · rw [at_]
      exact cfg
    · rw [State.outboundGrant_holdsClaim]
      exact held
  · obtain ⟨measuring, unclaimed⟩ := State.open_of_not_held free
    have row := fresh_row empty fresh
    rw [endMark, if_neg open_] at row
    have dropped : s.lockedFrame l bytes = s.onPort l { Q with buffer := [] } (h.continued l p bytes) := by
      refine (ran fresh).trans ?_
      rw [State.intakeRun_of_dead_row (s := s.onPort l Q (h.continued l p bytes)) measuring unclaimed
        ((congrArg Port.buffer port).trans row) dead, State.intakeItems_nil, setBuffer]
    exact State.rowReaches_of rising locked dropped state none counts same (shown [])

/-- A ROW frame without START that is not of the readout under way is stale. -/
theorem exec_rowFrame_outside (rising : Bool) (idle : s.host.requests = []) (sound : (s.port l).cfg.judge bytes = none)
    (kind : frameKind bytes = 3) (start : frameStart bytes = false) (locked : (s.port l).state ∈ [.synced, .reading])
    (outside : ∀ c, (s.port l).ctx = some c → frameTag bytes ≠ c.exposure) :
    let p := s.port l
    s.RowReaches l rising bytes s.host fun q =>
      q.state = p.state ∧ q.ctx = p.ctx ∧ p.RowCounted true q ∧ q.buffer = p.buffer := by
  intro p
  obtain ⟨part, hk, relay, h, requests, quiet, frame⟩ := State.lockedFrame_row sound kind
  have staleRow : p.staleRow bytes = true := by
    rw [Port.staleRow, if_neg (by rw [start]; decide)]
    cases ctx : p.ctx with
    | none => rfl
    | some c => exact decide_eq_true (.inl (outside c ctx))
  have counted : s.lockedFrame l bytes = s.onPort l { p.met part hk relay true with stale := min 4294967295 (p.stale + 1) } h := by
    rw [frame, staleRow, State.rowFrame, if_neg (by rw [start]; decide)]
    cases ctx : p.ctx with
    | none =>
      have same : ((s.onPort l (p.met part hk relay true) h).port l).ctx = none := by
        rw [State.onPort_port_self]
        exact ctx
      rw [same]
      exact State.countStale_onPort ..
    | some c =>
      have same : ((s.onPort l (p.met part hk relay true) h).port l).ctx = some c := by
        rw [State.onPort_port_self]
        exact ctx
      rw [same]
      exact State.rowInReadout_other _ _ _ _ _ _ (outside c ctx)
  refine State.rowReaches_of rising locked counted locked (requests.trans idle) ⟨rfl, rfl, rfl⟩ quiet
    fun lane relay' => ⟨rfl, rfl, ⟨rfl, rfl, ?_⟩, rfl⟩
  exact (if_neg fun both => nomatch both.1).symm

end

/-- Settles O16: a ROW frame that starts a readout, one of the readout under way, and one outside any. -/
theorem rowFramesEnterTheBuffer : Obligations.RowFramesEnterTheBuffer := by
  intro s l rising bytes idle p tag row ends room held told good kind sound reaches taken counted
  refine ⟨fun start locked => ?_, fun c start reading ctx => ?_, fun start locked ctx => ?_⟩
  · intro stale opened begun said
    have spec := exec_rowFrame_starts rising idle good kind start locked
    have said_eq : s.host.started l p bytes = said := HostLink.started_of_locked s.host locked
    dsimp only at spec
    rw [said_eq] at spec
    exact spec
  · intro stale acts tail judged said live
    by_cases mine : frameTag bytes = c.exposure
    · have acts_iff : acts ↔ ends := and_iff_left mine
      have tail_eq : endMark bytes = tail := if_congr acts_iff.symm rfl rfl
      have said_eq : s.host.continued l p bytes = said :=
        (HostLink.continued_of_reading s.host reading).trans (if_congr acts_iff.symm rfl rfl)
      have spec := exec_rowFrame_reads rising idle good kind start reading ctx mine
      dsimp only at spec
      rw [said_eq, tail_eq] at spec
      obtain ⟨enters, takes, writes, drops⟩ := spec
      exact ⟨fun or => enters (or.imp_right fun c => ⟨c.1, c.2.1, fun h => c.2.2 (acts_iff.2 h)⟩), fun empty yes _ _ => takes empty yes,
        writes, fun empty fresh free dead open_ => drops empty fresh free dead fun h => open_ (acts_iff.2 h)⟩
    · have still : ¬acts := fun h => mine h.2
      have yes : stale = true := decide_eq_true (.inl mine)
      have said_eq : said = s.host := if_neg still
      have tail_eq : tail = [] := if_neg still
      have spec := exec_rowFrame_outside rising idle good kind start (by rw [reading]; decide) fun c' h => by
        obtain rfl : c = c' := Option.some.inj (ctx.symm.trans h)
        exact mine
      obtain ⟨u, run, ⟨state, same, counts, buffer⟩, rest⟩ := spec
      refine ⟨fun _ => ⟨u, run, ⟨?_, ?_, ?_, ?_⟩, ?_⟩, fun _ _ act => absurd act still, fun _ fresh => (nomatch yes.symm.trans fresh),
        fun _ fresh => (nomatch yes.symm.trans fresh)⟩
      · exact (state.trans reading).trans (if_neg still).symm
      · refine (same.trans ctx).trans ((if_neg still).trans ?_).symm
        rw [yes]
        rfl
      · rw [yes]
        exact counts
      · rw [tail_eq, List.append_nil, if_neg fun both => Bool.false_ne_true (both.1.symm.trans yes), List.append_nil]
        exact buffer
      · rw [said_eq]
        exact rest
  · obtain ⟨u, run, ⟨state, same, counts, buffer⟩, rest⟩ := exec_rowFrame_outside rising idle good kind start locked fun c h =>
      nomatch ctx.symm.trans h
    exact ⟨u, run, ⟨state, same.trans ctx, counts, buffer⟩, rest⟩

end Sys2Proof.Machine
end

section
/-!
PROOF. The abandonment of one slot (R52, R53, R124), part by part: its tiles leave or are detached, its segments are resolved, it ends,
and the placement of its tile is stopped.
-/

namespace Sys2Proof.Machine

/-! ## The parts -/

section
variable (s : State) (k : Fin 4)

/-- The slot's tiles that leave at once. -/
def State.goneOf : List (Fin 40) := (s.tilesOf k).filter fun t => decide ((s.tile t).state ≠ .placing)

/-- The slot's tiles being placed. -/
def State.placingOf : List (Fin 40) := (s.tilesOf k).filter fun t => decide ((s.tile t).state = .placing)

/-- Tiles discarded one after another. -/
def State.discards (o : TileOutcome) (l : List (Fin 40)) : State := l.foldl (fun s t => s.discardTile t o) s

/-- Tiles that lose their owner. -/
def State.detach (l : List (Fin 40)) : State := l.foldl (fun s t => s.modTile t fun x => { x with owner := none }) s

/-- Segments resolved one after another, without what follows a resolution. -/
def State.records (why : Reason) (l : List (Fin 96)) : State := l.foldl (fun s g => s.recordResolution k g why) s

/-- The part as the slot's tiles have left it. -/
def State.cleared : State := (s.discards .abandoned (s.goneOf k)).detach (s.placingOf k)

/-- The part as the slot's segments are resolved. -/
def State.writtenUp : State := (s.cleared k).records k .abandoned ((s.cleared k).slot k).abandoned

theorem State.abandonSlot_eq :
    s.abandonSlot k = (s.placingOf k).foldl State.stopDetached ((s.writtenUp k).endSlot k .abandoned) := rfl

variable {s k}

theorem State.mem_goneOf {n : Fin 40} :
    n ∈ s.goneOf k ↔ (s.tile n).state ≠ .free ∧ (s.tile n).owner = some k ∧ (s.tile n).state ≠ .placing := by
  rw [State.goneOf, List.mem_filter, State.mem_tilesOf, decide_eq_true_iff, and_assoc]

theorem State.mem_placingOf {n : Fin 40} : n ∈ s.placingOf k ↔ (s.tile n).owner = some k ∧ (s.tile n).state = .placing := by
  rw [State.placingOf, List.mem_filter, State.mem_tilesOf, decide_eq_true_iff]
  exact ⟨fun h => ⟨h.1.2, h.2⟩, fun h => ⟨⟨by rw [h.2]; exact nofun, h.1⟩, h.2⟩⟩

end

/-! ## Steps within one slot -/

/-- What a step of the abandonment of slot `k` keeps. -/
structure SlotStep (k : Fin 4) (s t : State) : Prop where
  rest : { t with slots := s.slots, tiles := s.tiles, host := s.host, store := s.store, measuring := s.measuring, canvas := s.canvas,
                  drain := s.drain, place := s.place } = s
  others : ∀ j, j ≠ k → t.slot j = s.slot j
  zeroQueue : t.store.zeroQueue = s.store.zeroQueue
  reading : t.store.access = some .drainRead ↔ s.store.access = some .drainRead
  quiet : ∀ l, s.measure l = [] → t.measure l = []
  idle : s.place = none → t.place = none ∧ (t.holdsClaim .placement = true → s.holdsClaim .placement = true)
  flight : ∀ ctx, s.place = some ctx → ctx.phase = .inFlight → t.place = some ctx
  ground : ∀ ctx, s.place = some ctx → ctx.phase ≠ .inFlight → ∃ c, t.place = some c ∧ c.tile = ctx.tile ∧ c.phase ≠ .inFlight

section
variable {k : Fin 4} {s t u : State}

theorem SlotStep.refl (k : Fin 4) (s : State) : SlotStep k s s :=
  ⟨rfl, fun _ _ => rfl, rfl, Iff.rfl, fun _ => id, fun h => ⟨h, id⟩, fun _ h _ => h, fun ctx h ground => ⟨ctx, h, rfl, ground⟩⟩

theorem SlotStep.trans (a : SlotStep k s t) (b : SlotStep k t u) : SlotStep k s u where
  rest := (congrArg (fun x : State => ({ x with
      slots := s.slots, tiles := s.tiles, host := s.host, store := s.store, measuring := s.measuring, canvas := s.canvas,
      drain := s.drain, place := s.place } : State)) b.rest).trans a.rest
  others j h := (b.others j h).trans (a.others j h)
  zeroQueue := b.zeroQueue.trans a.zeroQueue
  reading := b.reading.trans a.reading
  quiet l h := b.quiet l (a.quiet l h)
  idle h := ⟨(b.idle (a.idle h).1).1, (a.idle h).2 ∘ (b.idle (a.idle h).1).2⟩
  flight ctx h flying := b.flight ctx (a.flight ctx h flying) flying
  ground ctx h ground := by
    obtain ⟨c, at_, tile, phase⟩ := a.ground ctx h ground
    obtain ⟨c', at', tile', phase'⟩ := b.ground c at_ phase
    exact ⟨c', at', tile'.trans tile, phase'⟩

theorem SlotStep.foldl {α : Type} (f : State → α → State) (step : ∀ s a, SlotStep k s (f s a)) :
    ∀ (l : List α) (s : State), SlotStep k s (l.foldl f s)
  | [], s => .refl k s
  | a :: l, s => (step s a).trans (SlotStep.foldl f step l _)

theorem SlotStep.carry (h : SlotStep k s t) : t.carry = s.carry := (congrArg State.carry h.rest :)
theorem SlotStep.mem (h : SlotStep k s t) : t.mem = s.mem := (congrArg State.mem h.rest :)

/-- A step that leaves the placement unit. -/
theorem SlotStep.of_place
    (rest : { t with slots := s.slots, tiles := s.tiles, host := s.host, store := s.store, measuring := s.measuring } = s)
    (others : ∀ j, j ≠ k → t.slot j = s.slot j) (zeroQueue : t.store.zeroQueue = s.store.zeroQueue)
    (reading : t.store.access = some .drainRead ↔ s.store.access = some .drainRead)
    (quiet : ∀ l, s.measure l = [] → t.measure l = [])
    (claims : t.holdsClaim .placement = true → s.holdsClaim .placement = true) : SlotStep k s t := by
  have place : t.place = s.place := (congrArg State.place rest :)
  refine ⟨?_, others, zeroQueue, reading, quiet, fun h => ⟨place.trans h, claims⟩, fun _ h _ => place.trans h,
    fun ctx h ground => ⟨ctx, place.trans h, rfl, ground⟩⟩
  exact (congrArg (fun x : State => ({ x with canvas := s.canvas, drain := s.drain, place := s.place } : State)) rest :)

theorem StoreCtl.withdraw_reading (st : StoreCtl) {c : Claim} (other : c ≠ .drainRead) :
    (st.withdraw c).access = some .drainRead ↔ st.access = some .drainRead := by
  show (if st.access = some c then none else st.access) = _ ↔ _
  split
  · next same =>
    rw [same]
    exact ⟨nofun, fun h => absurd (Option.some.inj h) other⟩
  · exact Iff.rfl

theorem State.withdrawWrite_reading (s : State) (g : Fin 96) :
    (s.withdrawWrite g).store.access = some .drainRead ↔ s.store.access = some .drainRead := by
  unfold State.withdrawWrite
  split
  · exact s.store.withdraw_reading nofun
  · exact Iff.rfl

theorem State.dropMeasuring_reading (s : State) (n : Fin 40) (l : Fin 12) :
    (s.dropMeasuring n l).store.access = some .drainRead ↔ s.store.access = some .drainRead := by
  unfold State.dropMeasuring
  split
  · exact Iff.rfl
  · split
    · exact StoreCtl.withdraw_reading _ nofun
    · exact Iff.rfl

theorem State.discardTile_reading (s : State) (n : Fin 40) (o : TileOutcome) :
    (s.discardTile n o).store.access = some .drainRead ↔ s.store.access = some .drainRead := by
  unfold State.discardTile
  dsimp only
  split
  · split
    · rw [State.leaveStore_store]
      exact State.withdrawWrite_reading _ _
    · rw [State.leaveStore_store]
      exact State.dropMeasuring_reading _ _ _
  · rw [State.leaveStore_store]

theorem State.dropMeasuring_quiet {s : State} {i : Fin 12} (quiet : s.measure i = []) (n : Fin 40) (l : Fin 12) :
    (s.dropMeasuring n l).measure i = [] := by
  unfold State.dropMeasuring
  split
  · exact quiet
  · next busy =>
    have other : l ≠ i := fun same => by
      rw [same, quiet] at busy
      cases busy
    split
    · exact ((State.measure_setMeasure ..).trans (if_neg other)).trans quiet
    · exact ((State.measure_setMeasure ..).trans (if_neg other)).trans quiet

theorem State.discardTile_quiet {s : State} {l : Fin 12} (quiet : s.measure l = []) (n : Fin 40) (o : TileOutcome) :
    (s.discardTile n o).measure l = [] := by
  have left : ∀ u : State, u.measure l = [] → (u.leaveStore n o).measure l = [] := fun u h => by
    rw [State.measure, show (u.leaveStore n o).measuring = u.measuring from (congrArg State.measuring (u.leaveStore_rest n o) :)]
    exact h
  unfold State.discardTile
  dsimp only
  split
  · split
    · refine left _ ?_
      rw [State.measure, show (s.withdrawWrite _).measuring = s.measuring from (congrArg State.measuring (s.withdrawWrite_rest _) :)]
      exact quiet
    · exact left _ (State.dropMeasuring_quiet quiet _ _)
  · exact left s quiet

theorem SlotStep.discardTile (n : Fin 40) (o : TileOutcome) (owner : ∀ j, (s.tile n).owner = some j → j = k) :
    SlotStep k s (s.discardTile n o) := by
  refine .of_place (s.discardTile_rest n o) (fun j other => ?_) (s.discardTile_zeroQueue n o) (s.discardTile_reading n o)
    (fun _ quiet => State.discardTile_quiet quiet n o) State.discardTile_holds
  rw [State.discardTile_slot, if_neg fun h => other (owner j h)]

theorem SlotStep.modTile (n : Fin 40) (f : Tile → Tile) : SlotStep k s (s.modTile n f) :=
  .of_place rfl (fun _ _ => rfl) rfl Iff.rfl (fun _ => id) id

theorem SlotStep.setSlot (y : ExpSlot) : SlotStep k s (s.setSlot k y) :=
  .of_place rfl (fun j other => by rw [State.slot_setSlot, if_neg (Ne.symm other)]) rfl Iff.rfl (fun _ => id) id

theorem SlotStep.endSlot (o : DoneOutcome) : SlotStep k s (s.endSlot k o) :=
  .of_place rfl (fun j other => (State.slot_setSlot ..).trans (if_neg (Ne.symm other))) rfl Iff.rfl (fun _ => id) id

theorem StoreCtl.claim_access (st : StoreCtl) (c : Claim) : (st.claim c).access = st.access := by
  unfold StoreCtl.claim
  split <;> rfl

/-- The wait of the unit on a cell ends at most. -/
theorem SlotStep.leaveWait (i : Nat) : SlotStep k s (s.leaveWait i) := by
  have side := CanvasSide.leaveWait s i
  refine ⟨?_, fun j _ => side.slot j, s.leaveWait_zeroQueue i, ?_, fun l h => (side.tilesSame.measure l).trans h, fun h => ?_,
    fun ctx h flying => ?_, fun ctx h ground => ?_⟩
  · exact (congrArg (fun x : State => ({ x with
      slots := s.slots, tiles := s.tiles, host := s.host, measuring := s.measuring } : State)) side.rest :)
  · unfold State.leaveWait
    split
    · exact Iff.rfl
    · split
      · dsimp only
        split
        · rw [State.claimRow, State.claim]
          rw [StoreCtl.claim_access]
        · exact Iff.rfl
      · exact Iff.rfl
  · rw [State.leaveWait, h]
    exact ⟨h, id⟩
  · have still : s.leaveWait i = s := by
      rw [State.leaveWait, h]
      exact if_neg fun waits => by
        rw [flying] at waits
        exact nomatch waits.1
    rw [still]
    exact h
  · by_cases waiting : ctx.phase = .waitingZero ∧ i ∈ ctx.waitSet
    · rw [State.leaveWait_mem h waiting.1 waiting.2]
      split
      · exact ⟨_, rfl, rfl, nofun⟩
      · exact ⟨_, rfl, rfl, ground⟩
    · have still : s.leaveWait i = s := by
        rw [State.leaveWait, h]
        exact if_neg waiting
      rw [still]
      exact ⟨ctx, h, rfl, ground⟩

/-- A change of the cells and of the drain's queue alone. -/
theorem SlotStep.cells (canvas : Canvas) (drain : Drain) : SlotStep k s { s with canvas := canvas, drain := drain } :=
  ⟨rfl, fun _ _ => rfl, rfl, Iff.rfl, fun _ => id, fun h => ⟨h, id⟩, fun _ h _ => h, fun ctx h ground => ⟨ctx, h, rfl, ground⟩⟩

theorem SlotStep.payCell (placed : Bool) (s : State) (i : Nat) : SlotStep k s (State.payCell placed s i) := by
  unfold State.payCell
  split
  · exact .refl k s
  · dsimp only
    split
    · split
      · unfold State.completeCell
        exact (SlotStep.cells _ _).trans (.leaveWait i)
      · exact .cells _ s.drain
    · exact .cells _ s.drain

theorem SlotStep.payCells (placed : Bool) (cells : List Nat) : SlotStep k s (s.payCells placed cells) :=
  .foldl _ (fun s i => .payCell placed s i) cells s

theorem SlotStep.recordResolution (s : State) (g : Fin 96) (why : Reason) : SlotStep k s (s.recordResolution k g why) := by
  unfold State.recordResolution
  dsimp only
  split
  · exact .refl k s
  · split
    · split
      · exact (SlotStep.setSlot _).trans (.payCells _ _)
      · exact .setSlot _
    · exact .setSlot _

theorem SlotStep.records (why : Reason) (l : List (Fin 96)) : SlotStep k s (s.records k why l) :=
  .foldl _ (fun s g => .recordResolution s g why) l s

end

/-! ## Discards, detachment and resolutions, one after another -/

section
variable {k : Fin 4}

theorem State.discards_tile (o : TileOutcome) (l : List (Fin 40)) :
    ∀ (s : State) (m : Fin 40), (s.discards o l).tile m = if m ∈ l then .empty else s.tile m := by
  induction l with
  | nil => exact fun s m => (if_neg nofun).symm
  | cons n l ih =>
    intro s m
    refine (ih (s.discardTile n o) m).trans ?_
    rw [State.discardTile_tile]
    by_cases here : n = m
    · subst here
      rw [if_pos rfl, if_pos List.mem_cons_self]
      exact ite_self _
    · rw [if_neg here]
      refine if_congr ?_ rfl rfl
      rw [List.mem_cons, or_iff_right (Ne.symm here)]

theorem SlotStep.discards (o : TileOutcome) (l : List (Fin 40)) :
    ∀ s : State, (∀ n ∈ l, ∀ j, (s.tile n).owner = some j → j = k) → SlotStep k s (s.discards o l) := by
  induction l with
  | nil => exact fun s _ => .refl k s
  | cons n l ih =>
    intro s owner
    refine (SlotStep.discardTile n o (owner n List.mem_cons_self)).trans (ih _ fun m mem j h => ?_)
    rw [State.discardTile_tile] at h
    split at h
    · cases h
    · exact owner m (List.mem_cons_of_mem _ mem) j h

theorem State.detach_tile (l : List (Fin 40)) :
    ∀ (s : State) (m : Fin 40), (s.detach l).tile m = if m ∈ l then { s.tile m with owner := none } else s.tile m := by
  induction l with
  | nil => exact fun s m => (if_neg nofun).symm
  | cons n l ih =>
    intro s m
    refine (ih (s.modTile n fun x => { x with owner := none }) m).trans ?_
    rw [State.tile_modTile]
    by_cases here : n = m
    · subst here
      rw [if_pos rfl, if_pos List.mem_cons_self]
      exact ite_self _
    · rw [if_neg here]
      refine if_congr ?_ rfl rfl
      rw [List.mem_cons, or_iff_right (Ne.symm here)]

theorem State.detach_rest (l : List (Fin 40)) : ∀ s : State, { s.detach l with tiles := s.tiles } = s := by
  induction l with
  | nil => exact fun s => rfl
  | cons n l ih =>
    intro s
    exact (congrArg (fun x : State => ({ x with tiles := s.tiles } : State)) (ih (s.modTile n fun x => { x with owner := none })) :)

theorem SlotStep.detach (s : State) (l : List (Fin 40)) : SlotStep k s (s.detach l) :=
  .foldl _ (fun _ n => .modTile n _) l s

/-- Resolutions leave the tiles, and the host link. -/
theorem State.records_rest (why : Reason) (l : List (Fin 96)) : ∀ s : State,
    { s.records k why l with slots := s.slots, canvas := s.canvas, drain := s.drain, place := s.place, store := s.store } = s := by
  induction l with
  | nil => exact fun s => rfl
  | cons g l ih =>
    intro s
    have one : { s.recordResolution k g why with
        slots := s.slots, canvas := s.canvas, drain := s.drain, place := s.place, store := s.store } = s := by
      cases first : ((s.slot k).entry g).isResolved with
      | true =>
        rw [State.recordResolution_of_resolved first]
      | false =>
        have side := State.recordResolution_side first why
        exact (congrArg (fun x : State => ({ x with slots := s.slots } : State)) side.rest :)
    exact ((congrArg (fun x : State => ({ x with
      slots := s.slots, canvas := s.canvas, drain := s.drain, place := s.place, store := s.store } : State))
      (ih (s.recordResolution k g why))) :).trans one

/-- First resolutions of segments, one after another: the entries, and the tally of their reason. -/
theorem State.records_slot (why : Reason) (l : List (Fin 96)) : ∀ s : State, l.Nodup →
    (∀ g ∈ l, ((s.slot k).entry g).isResolved = false) →
    { (s.records k why l).slot k with entries := (s.slot k).entries, tallies := (s.slot k).tallies } = s.slot k
    ∧ (∀ g, ((s.records k why l).slot k).entry g = if g ∈ l then .resolved why else (s.slot k).entry g)
    ∧ ((s.records k why l).slot k).tallies[why.num] = (s.slot k).tallies[why.num] + l.length := by
  induction l with
  | nil => exact fun s _ _ => ⟨rfl, fun g => (if_neg nofun).symm, rfl⟩
  | cons g l ih =>
    intro s nodup open_
    obtain ⟨fresh, nodup⟩ := List.nodup_cons.1 nodup
    have first := open_ g List.mem_cons_self
    have slot : (s.recordResolution k g why).slot k = (s.slot k).resolve g why := by
      rw [(State.recordResolution_side first why).slot, State.slot_setSlot, if_pos rfl]
    have entry : ∀ j, ((s.recordResolution k g why).slot k).entry j = if g = j then .resolved why else (s.slot k).entry j := fun j => by
      rw [slot]
      exact ExpSlot.entry_setEntry (s.slot k) g j (.resolved why)
    obtain ⟨rest, entries, tally⟩ := ih (s.recordResolution k g why) nodup fun j mem => by
      rw [entry, if_neg (show ¬g = j from fun same => fresh (by rw [same]; exact mem))]
      exact open_ j (List.mem_cons_of_mem _ mem)
    refine ⟨?_, fun j => ?_, ?_⟩
    · rw [slot] at rest
      exact (congrArg (fun x : ExpSlot => ({ x with entries := (s.slot k).entries, tallies := (s.slot k).tallies } : ExpSlot)) rest :)
    · refine (entries j).trans ?_
      rw [entry]
      by_cases same : g = j
      · subst same
        rw [if_pos rfl, if_pos List.mem_cons_self]
        exact ite_self _
      · rw [if_neg same]
        refine if_congr ?_ rfl rfl
        rw [List.mem_cons, or_iff_right (Ne.symm same)]
    · refine tally.trans ?_
      rw [slot]
      show ((s.slot k).tallies.set why.num.val _ why.num.isLt)[why.num] + l.length = _
      rw [Fin.getElem_fin, Vector.getElem_set_self, List.length_cons, Nat.add_assoc, Nat.add_comm 1]

end

/-! ## The stop of the placement -/

section
variable {s : State}

theorem State.stops_of_idle (idle : s.place = none) (l : List (Fin 40)) : l.foldl State.stopDetached s = s := by
  induction l with
  | nil => rfl
  | cons n l ih =>
    have still : s.stopDetached n = s := by rw [State.stopDetached, idle]
    rw [List.foldl_cons, still]
    exact ih

variable {ctx : PlaceCtx}

theorem State.stopDetached_of_other (place : s.place = some ctx) {n : Fin 40} (other : ctx.tile ≠ n) : s.stopDetached n = s := by
  rw [State.stopDetached, place]
  exact if_neg other

theorem State.stops_of_absent (place : s.place = some ctx) (l : List (Fin 40)) (absent : ctx.tile ∉ l) :
    l.foldl State.stopDetached s = s := by
  induction l with
  | nil => rfl
  | cons n l ih =>
    rw [List.mem_cons, not_or] at absent
    rw [List.foldl_cons, State.stopDetached_of_other place absent.1]
    exact ih absent.2

/-- A row in flight is let finish. -/
theorem State.stops_of_flight (l : List (Fin 40)) : ∀ {s : State} {ctx : PlaceCtx}, s.place = some ctx → ctx.phase = .inFlight → ctx.tile ∈ l →
    l.foldl State.stopDetached s = { s with place := some { ctx with stop := true } } := by
  induction l with
  | nil => exact fun _ _ mem => nomatch mem
  | cons n l ih =>
    intro s ctx place flying mem
    by_cases here : ctx.tile = n
    · have step : s.stopDetached n = { s with place := some { ctx with stop := true } } := by
        rw [State.stopDetached, place]
        exact (if_pos here).trans (if_pos flying)
      rw [List.foldl_cons, step]
      by_cases again : ctx.tile ∈ l
      · exact ih (ctx := { ctx with stop := true }) rfl flying again
      · exact State.stops_of_absent (ctx := { ctx with stop := true }) rfl l again
    · rw [List.foldl_cons, State.stopDetached_of_other place here]
      exact ih place flying ((List.mem_cons.1 mem).resolve_left here)

/-- Any other placement is withdrawn, and its tile leaves. -/
theorem State.stops_of_ground (place : s.place = some ctx) (ground : ctx.phase ≠ .inFlight) (l : List (Fin 40)) (mem : ctx.tile ∈ l) :
    l.foldl State.stopDetached s = (s.withdraw .placement).stopTile ctx.tile := by
  induction l with
  | nil => cases mem
  | cons n l ih =>
    by_cases here : ctx.tile = n
    · have step : s.stopDetached n = (s.withdraw .placement).stopTile ctx.tile := by
        rw [State.stopDetached, place]
        exact ((if_pos here).trans (if_neg ground)).trans (by rw [here])
      rw [List.foldl_cons, step]
      exact State.stops_of_idle rfl l
    · rw [List.foldl_cons, State.stopDetached_of_other place here]
      exact ih ((List.mem_cons.1 mem).resolve_left here)

end

end Sys2Proof.Machine
end

section
/-!
PROOF. What the abandonment of slots leaves: the slots are empty, their tiles have left or are detached, and the placement unit is stopped.
-/

namespace Sys2Proof.Machine

/-! ## One slot, before the stop -/

/-- The part as the slot has ended, before its placement is stopped. -/
def State.shed (s : State) (k : Fin 4) : State := (s.writtenUp k).endSlot k .abandoned

section
variable {s : State} {k : Fin 4}

theorem State.abandonSlot_shed : s.abandonSlot k = (s.placingOf k).foldl State.stopDetached (s.shed k) := rfl

theorem SlotStep.cleared (s : State) (k : Fin 4) : SlotStep k s (s.cleared k) := by
  refine (SlotStep.discards .abandoned (s.goneOf k) s fun n mem j owner => ?_).trans (.detach _ _)
  obtain ⟨-, own, -⟩ := State.mem_goneOf.1 mem
  exact Option.some.inj (owner.symm.trans own)

theorem SlotStep.shed (s : State) (k : Fin 4) : SlotStep k s (s.shed k) :=
  ((SlotStep.cleared s k).trans (.records _ _)).trans (.endSlot _)

theorem State.cleared_tile (m : Fin 40) : (s.cleared k).tile m =
    if m ∈ s.goneOf k then .empty else if m ∈ s.placingOf k then { s.tile m with owner := none } else s.tile m := by
  rw [State.cleared, State.detach_tile, State.discards_tile]
  by_cases gone : m ∈ s.goneOf k
  · have still : m ∉ s.placingOf k := fun placing => (State.mem_goneOf.1 gone).2.2 (State.mem_placingOf.1 placing).2
    rw [if_pos gone, if_neg still, if_pos gone]
  · rw [if_neg gone, if_neg gone]

theorem State.records_tiles {why : Reason} {l : List (Fin 96)} : (s.records k why l).tiles = s.tiles :=
  (congrArg State.tiles (State.records_rest why l s) :)

theorem State.shed_tiles : (s.shed k).tiles = (s.cleared k).tiles :=
  (State.records_tiles (s := s.cleared k) (k := k) (why := .abandoned) (l := ((s.cleared k).slot k).abandoned) :)

theorem State.shed_tile (m : Fin 40) : (s.shed k).tile m =
    if m ∈ s.goneOf k then .empty else if m ∈ s.placingOf k then { s.tile m with owner := none } else s.tile m := by
  rw [← State.cleared_tile, State.tile, State.shed_tiles]
  rfl

theorem State.shed_slot (j : Fin 4) : (s.shed k).slot j = if k = j then .empty else s.slot j := by
  by_cases here : k = j
  · subst here
    exact (State.slot_setSlot ((s.writtenUp k).raise .exposureDone _) k k .empty).trans (by rw [if_pos rfl, if_pos rfl])
  · rw [if_neg here]
    exact (SlotStep.shed s k).others j (Ne.symm here)

/-- A detached tile of the slot. -/
theorem State.shed_detached {n : Fin 40} (placing : n ∈ s.placingOf k) : (s.shed k).tile n = { s.tile n with owner := none } := by
  have still : n ∉ s.goneOf k := fun gone => (State.mem_goneOf.1 gone).2.2 (State.mem_placingOf.1 placing).2
  rw [State.shed_tile, if_neg still, if_pos placing]

end

/-! ## The stop -/

section
variable {s t : State} {k : Fin 4}

/-- What the stop of the placement unit does, where its tile is one of `l` and has no owner. -/
structure Stopped (l : List (Fin 40)) (s t : State) : Prop where
  rest : { t with tiles := s.tiles, host := s.host, store := s.store, measuring := s.measuring, place := s.place } = s
  zeroQueue : t.store.zeroQueue = s.store.zeroQueue
  reading : t.store.access = some .drainRead ↔ s.store.access = some .drainRead
  quiet : ∀ l, s.measure l = [] → t.measure l = []
  tile : ∀ m, t.tile m = s.tile m ∨ m ∈ l ∧ t.tile m = .empty

theorem Stopped.refl (l : List (Fin 40)) (s : State) : Stopped l s s := ⟨rfl, rfl, Iff.rfl, fun _ => id, fun _ => .inl rfl⟩

theorem State.stopTile_slots {n : Fin 40} (owner : (s.tile n).owner = none) : (s.discardTile n .abandoned).slots = s.slots := by
  refine Vector.ext fun i hi => ?_
  have slot := State.discardTile_slot s n .abandoned ⟨i, hi⟩
  rw [if_neg (by rw [owner]; exact nofun)] at slot
  exact slot

theorem Stopped.stopTile {n : Fin 40} {l : List (Fin 40)} (mem : n ∈ l) (owner : (s.tile n).owner = none) :
    Stopped l s ((s.withdraw .placement).stopTile n) := by
  have slots := State.stopTile_slots (s := s.withdraw .placement) (n := n) owner
  have rest := (s.withdraw .placement).discardTile_rest n .abandoned
  generalize hu : (s.withdraw .placement).discardTile n .abandoned = u at slots rest
  have stop : (s.withdraw .placement).stopTile n = { u with place := none } := by rw [State.stopTile, hu]
  rw [stop]
  refine ⟨?_, ?_, ?_, fun i quiet => ?_, fun m => ?_⟩
  · have same := (congrArg (fun x : State => ({ x with store := s.store, slots := u.slots, place := s.place } : State)) rest :)
    exact same.trans (congrArg (fun y => ({ s with slots := y } : State)) slots)
  · subst hu
    exact State.discardTile_zeroQueue (s.withdraw .placement) n .abandoned
  · subst hu
    exact ((s.withdraw .placement).discardTile_reading n .abandoned).trans (s.store.withdraw_reading nofun)
  · subst hu
    exact State.discardTile_quiet (s := s.withdraw .placement) quiet n .abandoned
  · subst hu
    have after : ((s.withdraw .placement).discardTile n .abandoned).tile m = if n = m then .empty else s.tile m :=
      State.discardTile_tile (s.withdraw .placement) n .abandoned m
    by_cases here : n = m
    · subst here
      exact .inr ⟨mem, after.trans (if_pos rfl)⟩
    · exact .inl (after.trans (if_neg here))

/-- The stop of detached tiles. -/
theorem Stopped.stops (l : List (Fin 40)) (detached : ∀ n ∈ l, (s.tile n).owner = none) :
    Stopped l s (l.foldl State.stopDetached s) := by
  cases place : s.place with
  | none =>
    rw [State.stops_of_idle place]
    exact .refl l s
  | some ctx =>
    by_cases mem : ctx.tile ∈ l
    · by_cases flying : ctx.phase = .inFlight
      · rw [State.stops_of_flight l place flying mem]
        exact ⟨rfl, rfl, Iff.rfl, fun _ => id, fun _ => .inl rfl⟩
      · rw [State.stops_of_ground place flying l mem]
        exact .stopTile mem (detached _ mem)
    · rw [State.stops_of_absent place l mem]
      exact .refl l s

theorem Stopped.abandonSlot (s : State) (k : Fin 4) : Stopped (s.placingOf k) (s.shed k) (s.abandonSlot k) :=
  .stops _ fun n placing => by rw [State.shed_detached placing]

end

/-! ## One slot -/

section
variable {s : State} {k : Fin 4}

theorem State.abandonSlot_slot (j : Fin 4) : (s.abandonSlot k).slot j = if k = j then .empty else s.slot j := by
  rw [← State.shed_slot, State.slot, show (s.abandonSlot k).slots = (s.shed k).slots from (congrArg State.slots (Stopped.abandonSlot s k).rest :)]
  rfl

theorem State.abandonSlot_tile_gone {m : Fin 40} (gone : m ∈ s.goneOf k) : (s.abandonSlot k).tile m = .empty := by
  have shed : (s.shed k).tile m = .empty := by rw [State.shed_tile, if_pos gone]
  rcases (Stopped.abandonSlot s k).tile m with same | ⟨-, left⟩
  · exact same.trans shed
  · exact left

theorem State.abandonSlot_tile_other {m : Fin 40} (other : (s.tile m).owner ≠ some k) : (s.abandonSlot k).tile m = s.tile m := by
  have kept : m ∉ s.placingOf k := fun placing => other (State.mem_placingOf.1 placing).1
  rcases (Stopped.abandonSlot s k).tile m with same | ⟨placing, -⟩
  · rw [same, State.shed_tile, if_neg fun gone => other (State.mem_goneOf.1 gone).2.1, if_neg kept]
  · exact absurd placing kept

/-- No tile of the slot goes on filling, and none starts. -/
theorem State.abandonSlot_filling {m : Fin 40} (filling : ((s.abandonSlot k).tile m).state = .filling) :
    (s.tile m).state = .filling ∧ (s.tile m).owner ≠ some k := by
  by_cases own : (s.tile m).owner = some k
  · exfalso
    have shed : ((s.shed k).tile m).state ≠ .filling := by
      rw [State.shed_tile]
      split
      · exact nofun
      · next kept =>
        have none : (s.tile m).state ≠ .filling := fun h =>
          kept (State.mem_goneOf.2 ⟨by rw [h]; exact nofun, own, by rw [h]; exact nofun⟩)
        split
        · exact none
        · exact none
    rcases (Stopped.abandonSlot s k).tile m with same | ⟨-, left⟩
    · exact shed (by rw [← same]; exact filling)
    · rw [left] at filling
      cases filling
  · rw [State.abandonSlot_tile_other own] at filling
    exact ⟨filling, own⟩

/-! ## The placement -/

variable {ctx : PlaceCtx}

theorem State.abandonSlot_idle (idle : s.place = none) :
    (s.abandonSlot k).place = none ∧ ((s.abandonSlot k).holdsClaim .placement = true → s.holdsClaim .placement = true) := by
  obtain ⟨still, claims⟩ := (SlotStep.shed s k).idle idle
  rw [State.abandonSlot_shed, State.stops_of_idle still]
  exact ⟨still, claims⟩

theorem State.abandonSlot_flight_other (place : s.place = some ctx) (flying : ctx.phase = .inFlight)
    (other : (s.tile ctx.tile).owner ≠ some k) : (s.abandonSlot k).place = some ctx := by
  have still := (SlotStep.shed s k).flight ctx place flying
  rw [State.abandonSlot_shed, State.stops_of_absent still _ fun placing => other (State.mem_placingOf.1 placing).1]
  exact still

theorem State.abandonSlot_flight (place : s.place = some ctx) (flying : ctx.phase = .inFlight) (placing : ctx.tile ∈ s.placingOf k) :
    s.abandonSlot k = { s.shed k with place := some { ctx with stop := true } } :=
  State.stops_of_flight _ ((SlotStep.shed s k).flight ctx place flying) flying placing

theorem State.abandonSlot_ground_other (place : s.place = some ctx) (ground : ctx.phase ≠ .inFlight)
    (other : (s.tile ctx.tile).owner ≠ some k) :
    ∃ c, (s.abandonSlot k).place = some c ∧ c.tile = ctx.tile ∧ c.phase ≠ .inFlight := by
  obtain ⟨c, still, tile, phase⟩ := (SlotStep.shed s k).ground ctx place ground
  rw [State.abandonSlot_shed, State.stops_of_absent still _ fun placing => other (by rw [← tile]; exact (State.mem_placingOf.1 placing).1)]
  exact ⟨c, still, tile, phase⟩

theorem State.abandonSlot_ground (place : s.place = some ctx) (ground : ctx.phase ≠ .inFlight) (placing : ctx.tile ∈ s.placingOf k) :
    s.abandonSlot k = ((s.shed k).withdraw .placement).stopTile ctx.tile := by
  obtain ⟨c, still, tile, phase⟩ := (SlotStep.shed s k).ground ctx place ground
  rw [State.abandonSlot_shed, State.stops_of_ground still phase _ (by rw [tile]; exact placing), tile]

/-- A unit that is stopped at once is IDLE, and its claim is withdrawn. -/
theorem State.stopTile_placement (s : State) (n : Fin 40) : ((s.withdraw .placement).stopTile n).place = none
    ∧ ((s.withdraw .placement).stopTile n).tile n = .empty ∧ ((s.withdraw .placement).stopTile n).holdsClaim .placement = false := by
  refine ⟨rfl, ?_, ?_⟩
  · exact (State.discardTile_tile (s.withdraw .placement) n .abandoned n).trans (if_pos rfl)
  · cases held : ((s.withdraw .placement).stopTile n).holdsClaim .placement with
    | false => rfl
    | true =>
      have before : (s.withdraw .placement).holdsClaim .placement = true := State.discardTile_holds held
      rw [State.not_holdsClaim_withdraw] at before
      cases before

end

/-! ## One slot after another -/

/-- What the abandonment of slots keeps. -/
structure Abandoning (s t : State) : Prop where
  rest : { t with slots := s.slots, tiles := s.tiles, host := s.host, store := s.store, measuring := s.measuring, canvas := s.canvas,
                  drain := s.drain, place := s.place } = s
  zeroQueue : t.store.zeroQueue = s.store.zeroQueue
  reading : t.store.access = some .drainRead ↔ s.store.access = some .drainRead
  quiet : ∀ l, s.measure l = [] → t.measure l = []
  idle : s.place = none → t.place = none ∧ (t.holdsClaim .placement = true → s.holdsClaim .placement = true)

section
variable {s t u : State} {k : Fin 4}

theorem Abandoning.refl (s : State) : Abandoning s s := ⟨rfl, rfl, Iff.rfl, fun _ => id, fun h => ⟨h, id⟩⟩

theorem Abandoning.trans (a : Abandoning s t) (b : Abandoning t u) : Abandoning s u where
  rest := (congrArg (fun x : State => ({ x with
      slots := s.slots, tiles := s.tiles, host := s.host, store := s.store, measuring := s.measuring, canvas := s.canvas,
      drain := s.drain, place := s.place } : State)) b.rest).trans a.rest
  zeroQueue := b.zeroQueue.trans a.zeroQueue
  reading := b.reading.trans a.reading
  quiet l h := b.quiet l (a.quiet l h)
  idle h := ⟨(b.idle (a.idle h).1).1, (a.idle h).2 ∘ (b.idle (a.idle h).1).2⟩

theorem Abandoning.abandonSlot (s : State) (k : Fin 4) : Abandoning s (s.abandonSlot k) := by
  have shed := SlotStep.shed s k
  have stopped := Stopped.abandonSlot s k
  refine ⟨?_, stopped.zeroQueue.trans shed.zeroQueue, stopped.reading.trans shed.reading,
    fun l h => stopped.quiet l (shed.quiet l h), State.abandonSlot_idle⟩
  exact (congrArg (fun x : State => ({ x with
      slots := s.slots, tiles := s.tiles, host := s.host, store := s.store, measuring := s.measuring, canvas := s.canvas,
      drain := s.drain, place := s.place } : State)) stopped.rest).trans shed.rest

theorem Abandoning.foldl : ∀ (ks : List (Fin 4)) (s : State), Abandoning s (ks.foldl State.abandonSlot s)
  | [], s => .refl s
  | k :: ks, s => (Abandoning.abandonSlot s k).trans (Abandoning.foldl ks _)

theorem State.abandons_slot (j : Fin 4) : ∀ (ks : List (Fin 4)) (s : State),
    (ks.foldl State.abandonSlot s).slot j = if j ∈ ks then .empty else s.slot j := by
  intro ks
  induction ks with
  | nil => exact fun s => (if_neg nofun).symm
  | cons k ks ih =>
    intro s
    refine (ih (s.abandonSlot k)).trans ?_
    rw [State.abandonSlot_slot]
    by_cases here : k = j
    · subst here
      rw [if_pos rfl, if_pos List.mem_cons_self]
      exact ite_self _
    · rw [if_neg here]
      refine if_congr ?_ rfl rfl
      rw [List.mem_cons, or_iff_right (Ne.symm here)]

theorem State.abandons_tile_other {m : Fin 40} : ∀ (ks : List (Fin 4)) (s : State), (∀ k ∈ ks, (s.tile m).owner ≠ some k) →
    (ks.foldl State.abandonSlot s).tile m = s.tile m := by
  intro ks
  induction ks with
  | nil => exact fun s _ => rfl
  | cons k ks ih =>
    intro s other
    have still := State.abandonSlot_tile_other (s := s) (other k List.mem_cons_self)
    refine (ih (s.abandonSlot k) fun j mem => ?_).trans still
    rw [still]
    exact other j (List.mem_cons_of_mem _ mem)

theorem State.abandons_tile_gone {m : Fin 40} {k : Fin 4} (own : (s.tile m).owner = some k) (live : (s.tile m).state ≠ .free)
    (ground : (s.tile m).state ≠ .placing) : ∀ (ks : List (Fin 4)) {t : State}, t.tile m = s.tile m → k ∈ ks →
      (ks.foldl State.abandonSlot t).tile m = .empty := by
  intro ks
  induction ks with
  | nil => exact fun _ mem => nomatch mem
  | cons j ks ih =>
    intro t same mem
    by_cases here : j = k
    · subst here
      have gone : m ∈ t.goneOf j := State.mem_goneOf.2 (by rw [same]; exact ⟨live, own, ground⟩)
      have left := State.abandonSlot_tile_gone gone
      refine (State.abandons_tile_other ks (t.abandonSlot j) fun i _ => ?_).trans left
      rw [left]
      exact nofun
    · refine ih ?_ ((List.mem_cons.1 mem).resolve_left (Ne.symm here))
      rw [State.abandonSlot_tile_other, same]
      rw [same, own]
      exact fun h => here (Option.some.inj h).symm

theorem State.abandons_filling {m : Fin 40} : ∀ (ks : List (Fin 4)) (s : State),
    ((ks.foldl State.abandonSlot s).tile m).state = .filling → (s.tile m).state = .filling ∧ ∀ k ∈ ks, (s.tile m).owner ≠ some k := by
  intro ks
  induction ks with
  | nil => exact fun s h => ⟨h, fun _ mem => nomatch mem⟩
  | cons k ks ih =>
    intro s filling
    obtain ⟨now, others⟩ := ih (s.abandonSlot k) filling
    obtain ⟨before, own⟩ := State.abandonSlot_filling now
    refine ⟨before, List.forall_mem_cons.2 ⟨own, fun j mem => ?_⟩⟩
    rw [← State.abandonSlot_tile_other own]
    exact others j mem

/-! ## The placement, as slots are abandoned -/

variable {ctx : PlaceCtx}

theorem State.placing_of {t : State} {n : Fin 40} (same : t.tile n = s.tile n) (own : (s.tile n).owner = some k)
    (placing : (s.tile n).state = .placing) : n ∈ t.placingOf k :=
  State.mem_placingOf.2 (by rw [same]; exact ⟨own, placing⟩)

theorem State.abandons_stopped (flying : ctx.phase = .inFlight) : ∀ (ks : List (Fin 4)) (t : State), t.place = some ctx →
    (t.tile ctx.tile).owner = none →
    (ks.foldl State.abandonSlot t).place = some ctx := by
  intro ks
  induction ks with
  | nil => exact fun _ place _ => place
  | cons k ks ih =>
    intro t place owner
    have other : (t.tile ctx.tile).owner ≠ some k := by rw [owner]; exact nofun
    refine ih _ (State.abandonSlot_flight_other place flying other) ?_
    rw [State.abandonSlot_tile_other other]
    exact owner

/-- A row in flight of an abandoned slot: the placement is marked, its tile detached. -/
theorem State.abandons_flight (own : (s.tile ctx.tile).owner = some k) (placing : (s.tile ctx.tile).state = .placing)
    (flying : ctx.phase = .inFlight) : ∀ (ks : List (Fin 4)) {t : State}, t.place = some ctx → t.tile ctx.tile = s.tile ctx.tile → k ∈ ks →
      (ks.foldl State.abandonSlot t).place = some { ctx with stop := true }
      ∧ (ks.foldl State.abandonSlot t).tile ctx.tile = { s.tile ctx.tile with owner := none } := by
  intro ks
  induction ks with
  | nil => exact fun _ _ mem => nomatch mem
  | cons j ks ih =>
    intro t place same mem
    by_cases here : j = k
    · subst here
      have one := State.abandonSlot_flight place flying (State.placing_of same own placing)
      have tile : (t.abandonSlot j).tile ctx.tile = { s.tile ctx.tile with owner := none } := by
        rw [one]
        show (t.shed j).tile ctx.tile = _
        rw [State.shed_detached (State.placing_of same own placing), same]
      refine ⟨State.abandons_stopped (ctx := { ctx with stop := true }) flying ks (t.abandonSlot j) (by rw [one]) (by rw [tile]), ?_⟩
      refine (State.abandons_tile_other ks (t.abandonSlot j) fun i _ => ?_).trans tile
      rw [tile]
      exact nofun
    · have other : (t.tile ctx.tile).owner ≠ some j := by
        rw [same, own]
        exact fun h => here (Option.some.inj h).symm
      refine ih (State.abandonSlot_flight_other place flying other) ?_ ((List.mem_cons.1 mem).resolve_left (Ne.symm here))
      rw [State.abandonSlot_tile_other other, same]

/-- Any other placement of an abandoned slot is withdrawn, and its tile leaves. -/
theorem State.abandons_ground (own : (s.tile ctx.tile).owner = some k) (placing : (s.tile ctx.tile).state = .placing) :
    ∀ (ks : List (Fin 4)) {t : State} {c : PlaceCtx}, t.place = some c → c.tile = ctx.tile → c.phase ≠ .inFlight →
      t.tile ctx.tile = s.tile ctx.tile → k ∈ ks →
      (ks.foldl State.abandonSlot t).place = none ∧ (ks.foldl State.abandonSlot t).tile ctx.tile = .empty
      ∧ (ks.foldl State.abandonSlot t).holdsClaim .placement = false := by
  intro ks
  induction ks with
  | nil => exact fun _ _ _ _ mem => nomatch mem
  | cons j ks ih =>
    intro t c place tile ground same mem
    by_cases here : j = k
    · subst here
      have one := State.abandonSlot_ground (k := j) place ground (by rw [tile]; exact State.placing_of same own placing)
      obtain ⟨idle, left, claims⟩ := State.stopTile_placement (t.shed j) c.tile
      rw [← one] at idle left claims
      obtain ⟨still, held⟩ := (Abandoning.foldl ks (t.abandonSlot j)).idle idle
      refine ⟨still, (State.abandons_tile_other ks (t.abandonSlot j) fun i _ => ?_).trans (by rw [← tile]; exact left), ?_⟩
      · rw [← tile, left]
        exact nofun
      · exact Bool.eq_false_iff.2 fun h => Bool.false_ne_true (claims.symm.trans (held h))
    · have other : (t.tile ctx.tile).owner ≠ some j := by
        rw [same, own]
        exact fun h => here (Option.some.inj h).symm
      obtain ⟨c', place', tile', ground'⟩ := State.abandonSlot_ground_other (k := j) place ground (by rw [tile]; exact other)
      refine ih place' (tile'.trans tile) ground' ?_ ((List.mem_cons.1 mem).resolve_left (Ne.symm here))
      rw [State.abandonSlot_tile_other other, same]

end

end Sys2Proof.Machine
end

section
/-!
PROOF. The abandonment of the canvas (R147, R162).
-/

namespace Sys2Proof.Machine

/-! ## The drain (R162) -/

section
variable (s : State)

theorem State.drainAbandon_rest : { s.drainAbandon with drain := s.drain, host := s.host, store := s.store } = s := by
  unfold State.drainAbandon
  dsimp only
  split
  · rfl
  · split <;> rfl
  · rfl
  · rfl
  · rfl

theorem State.drainAbandon_zeroQueue : s.drainAbandon.store.zeroQueue = s.store.zeroQueue := by
  unfold State.drainAbandon
  dsimp only
  split
  · rfl
  · split <;> rfl
  · rfl
  · rfl
  · rfl

variable {s}

theorem State.drainAbandon_claims {c : Claim} (held : s.drainAbandon.holdsClaim c = true) : s.holdsClaim c = true := by
  unfold State.drainAbandon at held
  dsimp only at held
  split at held
  · exact held
  · split at held
    · exact held
    · exact State.withdraw_holds held
  · exact held
  · exact held
  · exact held

theorem State.drainAbandon_of_idle (idle : s.drain.state = .idle) :
    s.drainAbandon = { s with drain := { s.drain with queue := [] } } := by
  unfold State.drainAbandon
  dsimp only
  rw [idle]

theorem State.drainAbandon_queue : s.drainAbandon.drain.queue = [] ∧ s.drainAbandon.drain.hold = s.drain.hold := by
  unfold State.drainAbandon
  dsimp only
  split
  · exact ⟨rfl, rfl⟩
  · split
    · exact ⟨rfl, rfl⟩
    · exact ⟨rfl, rfl⟩
  · exact ⟨rfl, rfl⟩
  · exact ⟨rfl, rfl⟩
  · exact ⟨rfl, rfl⟩

/-- The unit has nothing in hand, or a picture block that has not been granted. -/
theorem State.drainAbandon_idle (state : s.drain.state ∈ [.idle, .offered, .stopped]) : s.drainAbandon.drain.state = .idle := by
  rw [List.mem_cons, List.mem_pair] at state
  unfold State.drainAbandon
  dsimp only
  rcases state with state | state | state
  · rw [state]
  · rw [state]
    rfl
  · rw [state]
    rfl

theorem State.drainAbandon_withdrawn (state : s.drain.state = .reading) (access : s.store.access ≠ some .drainRead) :
    s.drainAbandon.drain.state = .idle ∧ s.drainAbandon.holdsClaim .drainRead = false := by
  have step : s.drainAbandon = State.withdraw { s with drain := { Drain.reset with hold := s.drain.hold } } .drainRead := by
    unfold State.drainAbandon
    dsimp only
    rw [state]
    exact if_neg access
  rw [step]
  exact ⟨rfl, State.not_holdsClaim_withdraw ..⟩

theorem State.drainAbandon_ended (state : s.drain.state = .sending ∨ (s.drain.state = .reading ∧ s.store.access = some .drainRead)) :
    s.drainAbandon.drain = { s.drain with queue := [], ended := true } := by
  unfold State.drainAbandon
  dsimp only
  rcases state with state | ⟨state, access⟩
  · rw [state]
  · rw [state]
    exact congrArg State.drain (if_pos access)

end

/-! ## The canvas becomes IDLE (R125, R129) -/

section
variable (s : State)

theorem State.canvasToIdle_rest : { s.canvasToIdle with canvas := s.canvas, place := s.place, store := s.store } = s := by
  obtain ⟨rest, -⟩ := State.endPlacementCanvas_spec { s with canvas := .idle }
  exact (congrArg (fun x : State => ({ x with canvas := s.canvas } : State)) rest :)

theorem State.canvasToIdle_canvas : s.canvasToIdle.canvas = .idle := by
  obtain ⟨rest, -⟩ := State.endPlacementCanvas_spec { s with canvas := .idle }
  exact (congrArg State.canvas rest :)

theorem State.canvasToIdle_zeroQueue : s.canvasToIdle.store.zeroQueue = s.store.zeroQueue := by
  unfold State.canvasToIdle State.endPlacementCanvas
  split
  · rfl
  · dsimp only
    split
    · exact State.claim_zeroQueue _ _
    · rfl

variable {s}

theorem State.canvasToIdle_claims {c : Claim} (other : c ≠ .placement) (held : s.canvasToIdle.holdsClaim c = true) :
    s.holdsClaim c = true := by
  unfold State.canvasToIdle State.endPlacementCanvas at held
  split at held
  · exact held
  · dsimp only at held
    split at held
    · exact (State.holdsClaim_claim.1 held).resolve_left other
    · exact held

theorem State.canvasToIdle_of_none (idle : s.place = none) : s.canvasToIdle = { s with canvas := .idle } := by
  rw [State.canvasToIdle, State.endPlacementCanvas]
  dsimp only
  rw [idle]

theorem State.canvasToIdle_flight {ctx : PlaceCtx} (place : s.place = some ctx) (flying : ctx.phase = .inFlight) :
    s.canvasToIdle.place = some { ctx with ended := true } := by
  rw [State.canvasToIdle, State.endPlacementCanvas]
  dsimp only
  rw [place]
  exact congrArg State.place (if_neg (show ¬ctx.phase = .waitingZero by rw [flying]; exact nofun))

end

/-! ## Links without a tile to fill or to measure -/

section
variable {s : State} {l : Fin 12}

theorem State.fillingTile_of_still (still : ∀ n, (s.tile n).state ≠ .filling) (g : Fin 96) : s.fillingTile g = none :=
  State.fillingTile_eq_none.2 fun n h => still n h.1

theorem State.liveSlots_of_still (still : ∀ n, (s.tile n).state ≠ .filling) (l : Fin 12) (rows : List SlotRow) :
    s.liveSlots l rows = [] := by
  rw [State.liveSlots, List.dropWhile_eq_nil_iff]
  intro sr _
  rw [State.fillingTile_of_still still]
  rfl

/-- The intake takes what is in the buffer, to no effect. -/
theorem State.intakeItems_of_still (items : List BufItem) : ∀ s : State, (∀ n, (s.tile n).state ≠ .filling) →
    { s.intakeItems l items with ports := s.ports } = s := by
  induction items with
  | nil => exact fun s _ => rfl
  | cons item rest ih =>
    intro s still
    cases item with
    | truncation => rfl
    | start tag row => rfl
    | finish =>
      have next : { (s.setBuffer l rest).intakeItems l rest with ports := s.ports } = s :=
        (congrArg (fun x : State => ({ x with ports := s.ports } : State)) (ih (s.setBuffer l rest) still) :)
      have shut : (s.setBuffer l rest).openTiles l = [] := State.openTiles_eq_nil.2 fun a => State.fillingTile_of_still still _
      unfold State.intakeItems
      dsimp only
      rw [State.closeTiles_of_none shut]
      split
      · exact next
      · rfl
    | row b =>
      unfold State.intakeItems
      rw [State.liveSlots_of_still still]
      exact ih s still

theorem State.resumeLink_of_still (still : ∀ n, (s.tile n).state ≠ .filling) (quiet : s.measure l = []) :
    { s.resumeLink l with ports := s.ports } = s := by
  rw [State.resumeLink_of_idle quiet]
  unfold State.intakeRun
  split
  · exact State.intakeItems_of_still _ s still
  · rfl

theorem State.resumes_of_still (links : List (Fin 12)) : ∀ s : State, (∀ n, (s.tile n).state ≠ .filling) → (∀ l, s.measure l = []) →
    { links.foldl State.resumeLink s with ports := s.ports } = s := by
  induction links with
  | nil => exact fun s _ _ => rfl
  | cons l links ih =>
    intro s still quiet
    have one := State.resumeLink_of_still still (quiet l)
    have tiles : (s.resumeLink l).tiles = s.tiles := (congrArg State.tiles one :)
    have measuring : (s.resumeLink l).measuring = s.measuring := (congrArg State.measuring one :)
    refine (congrArg (fun x : State => ({ x with ports := s.ports } : State)) (ih (s.resumeLink l) ?_ ?_)).trans one
    · simpa only [State.tile, tiles] using still
    · simpa only [State.measure, measuring] using quiet

end

/-! ## CANVAS_ABANDON -/

section
variable (s : State)

/-- The slots that are not FREE, in slot order. -/
def State.live : List (Fin 4) := allSlots.filter fun k => decide ((s.slot k).state ≠ .free)

/-- Every slot has been abandoned. -/
def State.emptied : State := s.live.foldl State.abandonSlot s

/-- The canvas has ended. -/
def State.shutDown : State :=
  (s.emptied.drainAbandon.raise .canvasDone (s.emptied.drainAbandon.canvas.doneContent (some s.live.length))).canvasToIdle

/-- The links of the tiles of all slots go on. -/
def State.wentOn : State := (s.linksOf (allSlots.flatMap s.tilesOf)).foldl State.resumeLink s.shutDown

variable {s}

theorem State.canvasAbandon_eq (begun : s.canvas.state ≠ .idle) :
    s.canvasAbandon = State.done s.wentOn.settle (code8 s.live.length) := if_neg begun

theorem State.mem_live {k : Fin 4} : k ∈ s.live ↔ (s.slot k).state ≠ .free := by
  rw [State.live, List.mem_filter, decide_eq_true_iff]
  exact and_iff_right (mem_allSlots k)

/-- What the end of the canvas keeps of the emptied part. -/
theorem State.shutDown_rest :
    { s.shutDown with drain := s.drain, host := s.host, store := s.store, canvas := s.canvas, place := s.place }
      = { s.emptied with drain := s.drain, host := s.host, store := s.store, canvas := s.canvas, place := s.place } := by
  have idle := State.canvasToIdle_rest
    (s.emptied.drainAbandon.raise .canvasDone (s.emptied.drainAbandon.canvas.doneContent (some s.live.length)))
  have drain := s.emptied.drainAbandon_rest
  exact (congrArg (fun x : State => ({ x with
      drain := s.drain, host := s.host, store := s.store, canvas := s.canvas, place := s.place } : State)) idle :).trans
    (congrArg (fun x : State => ({ x with
      drain := s.drain, host := s.host, store := s.store, canvas := s.canvas, place := s.place } : State)) drain :)

theorem State.shutDown_slot (k : Fin 4) : s.shutDown.slot k = if k ∈ s.live then .empty else s.slot k := by
  rw [← State.abandons_slot]
  exact (congrArg (fun x : State => x.slot k) (State.shutDown_rest (s := s)) :)

theorem State.shutDown_tile (n : Fin 40) : s.shutDown.tile n = s.emptied.tile n :=
  (congrArg (fun x : State => x.tile n) (State.shutDown_rest (s := s)) :)

theorem State.shutDown_measure (l : Fin 12) : s.shutDown.measure l = s.emptied.measure l :=
  (congrArg (fun x : State => x.measure l) (State.shutDown_rest (s := s)) :)

theorem State.shutDown_drain : s.shutDown.drain = s.emptied.drainAbandon.drain :=
  (congrArg State.drain (State.canvasToIdle_rest
    (s.emptied.drainAbandon.raise .canvasDone (s.emptied.drainAbandon.canvas.doneContent (some s.live.length)))) :)

theorem State.shutDown_zeroQueue : s.shutDown.store.zeroQueue = s.store.zeroQueue :=
  (State.canvasToIdle_zeroQueue _).trans ((State.drainAbandon_zeroQueue _).trans (Abandoning.foldl s.live s).zeroQueue)

/-- No slot is left. -/
theorem State.shutDown_free (k : Fin 4) : (s.shutDown.slot k).state = .free := by
  rw [State.shutDown_slot]
  split
  · rfl
  · next dead => exact Decidable.not_not.1 fun h => dead (State.mem_live.2 h)

theorem State.shutDown_ended {ctx : PlaceCtx} (place : s.shutDown.place = some ctx) : ctx.ended = true :=
  (State.endPlacementCanvas_spec _).2 ctx place

/-- The drain unit's state is that of the part's. -/
theorem State.emptied_drain : { s.emptied.drain with queue := s.drain.queue } = s.drain :=
  (Inner.foldl (f := State.abandonSlot) .abandonSlot s.live s).drain

/-- The links and the store leave what the end of the canvas has left. -/
theorem State.wentOn_flow : TileFlow (fun _ => False) s.shutDown s.wentOn.settle :=
  (TileFlow.foldl (e := fun _ => False) _ TileFlow.resumeLink _ _).trans (.settle _)

/-- Nothing of the requests, the pixels and the flats changes. -/
theorem State.canvasAbandon_keeps : s.canvasAbandon.1.host.requests = s.host.requests ∧ s.canvasAbandon.1.mem = s.mem
    ∧ s.canvasAbandon.1.flats = s.flats := by
  rcases s.canvasAbandon_state with same | ⟨t, before, after⟩
  · rw [same]
    exact ⟨rfl, rfl, rfl⟩
  · rw [after.requests, after.mem, after.flats, ← before.requests, ← before.mem, ← before.flats]
    rcases t.drainAbandon_state with drain | ⟨v, drain, removed⟩
    · exact ⟨drain.requests, drain.mem, drain.flats⟩
    · rw [removed, ← drain.requests, ← drain.mem, ← drain.flats]
      exact ⟨(v.host.removeSource_keeps .blocks).2.2.1, State.removeSource_mem .., State.removeSource_flats ..⟩

end

/-! ## The placement at the end of the canvas -/

section
variable {s : State} {ctx : PlaceCtx} {k : Fin 4}

/-- With every tile of a slot and no measurement under way, the links find nothing to do. -/
theorem State.wentOn_still (quiet : ∀ l, s.measure l = [])
    (owned : ∀ m, (s.tile m).state ≠ .free → ∃ j, (s.tile m).owner = some j ∧ (s.slot j).state ≠ .free) :
    { s.wentOn with ports := s.shutDown.ports } = s.shutDown := by
  refine State.resumes_of_still _ _ (fun n filling => ?_) fun l => ?_
  · rw [State.shutDown_tile] at filling
    obtain ⟨before, others⟩ := State.abandons_filling s.live s filling
    obtain ⟨j, own, live⟩ := owned n (by rw [before]; exact nofun)
    exact others j (State.mem_live.2 live) own
  · rw [State.shutDown_measure]
    exact (Abandoning.foldl s.live s).quiet l (quiet l)

theorem State.shutDown_flight (place : s.emptied.place = some ctx) (flying : ctx.phase = .inFlight) :
    s.shutDown.place = some { ctx with ended := true } := by
  refine State.canvasToIdle_flight ?_ flying
  exact (congrArg State.place (s.emptied.drainAbandon_rest) :).trans place

theorem State.shutDown_idle (idle : s.emptied.place = none) : s.shutDown.place = none
    ∧ (s.shutDown.holdsClaim .placement = true → s.emptied.holdsClaim .placement = true) := by
  have still : s.emptied.drainAbandon.place = none := (congrArg State.place (s.emptied.drainAbandon_rest) :).trans idle
  rw [State.shutDown, State.canvasToIdle_of_none (by exact still)]
  exact ⟨still, State.drainAbandon_claims⟩

end

/-! ## Slots without tiles and without data in the store -/

section
variable {s : State} {k : Fin 4}

theorem State.goneOf_of_bare (bare : s.tilesOf k = []) : s.goneOf k = [] := by rw [State.goneOf, bare, List.filter_nil]

theorem State.placingOf_of_bare (bare : s.tilesOf k = []) : s.placingOf k = [] := by rw [State.placingOf, bare, List.filter_nil]

theorem State.cleared_of_bare (bare : s.tilesOf k = []) : s.cleared k = s := by
  rw [State.cleared, State.goneOf_of_bare bare, State.placingOf_of_bare bare]
  rfl

/-- A slot with nothing to resolve ends. -/
theorem State.abandonSlot_of_bare (bare : s.tilesOf k = []) (open_ : (s.slot k).abandoned = []) :
    s.abandonSlot k = s.endSlot k .abandoned := by
  rw [State.abandonSlot_shed, State.placingOf_of_bare bare, State.shed, State.writtenUp, State.cleared_of_bare bare, open_]
  rfl

theorem ExpSlot.abandoned_of_opened {x : ExpSlot} (state : x.state ∈ [.free, .opened]) (none : ∀ g, x.entry g ≠ .inStore) :
    x.abandoned = [] := by
  rw [ExpSlot.abandoned, List.filter_eq_nil_iff]
  intro g _
  rw [ExpSlot.not_isCommitted_iff.2 state]
  exact fun h => none g (of_decide_eq_true h)

theorem State.abandons_of_bare (y : Fin 4 → ExpSlot) : ∀ (ks : List (Fin 4)) (t : State), ks.Nodup →
    (∀ k ∈ ks, t.tilesOf k = [] ∧ t.slot k = y k ∧ (y k).abandoned = []) →
    { ks.foldl State.abandonSlot t with slots := t.slots } =
      { t with host := ks.foldl (fun h k => h.raise .exposureDone ((y k).doneContent k .abandoned)) t.host } := by
  intro ks
  induction ks with
  | nil => exact fun t _ _ => rfl
  | cons k ks ih =>
    intro t nodup bare
    obtain ⟨fresh, nodup⟩ := List.nodup_cons.1 nodup
    obtain ⟨tiles, slot, open_⟩ := bare k List.mem_cons_self
    have one := State.abandonSlot_of_bare tiles (by rw [slot]; exact open_)
    rw [List.foldl_cons, List.foldl_cons, one, ← slot]
    refine (congrArg (fun x : State => ({ x with slots := t.slots } : State)) (ih (t.endSlot k .abandoned) nodup fun j mem => ?_) :)
    obtain ⟨tiles', slot', open'⟩ := bare j (List.mem_cons_of_mem _ mem)
    refine ⟨tiles', ?_, open'⟩
    refine (State.slot_setSlot ..).trans ((if_neg fun same => fresh ?_).trans slot')
    rw [same]
    exact mem

/-- The notices of a canvas abandoned with its slots' data gone. -/
theorem State.canvasAbandon_host (bare : ∀ k, s.tilesOf k = []) (opened : ∀ k, (s.slot k).state ∈ [.free, .opened])
    (none : ∀ k g, (s.slot k).entry g ≠ .inStore) (idle : s.drain.state = .idle) :
    s.wentOn.settle.host = (s.live.foldl (fun h k => h.raise .exposureDone ((s.slot k).doneContent k .abandoned)) s.host).raise .canvasDone
      (s.canvas.doneContent (some s.live.length)) := by
  have ended := State.abandons_of_bare s.slot s.live s (allSlots_nodup.filter _) fun k _ =>
    ⟨bare k, rfl, ExpSlot.abandoned_of_opened (opened k) (none k)⟩
  have drain : s.emptied.drain = s.drain := (congrArg State.drain ended :)
  have host : s.emptied.host = _ := (congrArg State.host ended :)
  have canvas : s.emptied.canvas = s.canvas := (congrArg State.canvas ended :)
  have links : s.linksOf (allSlots.flatMap s.tilesOf) = [] := by
    rw [List.flatMap_eq_nil_iff.2 fun k _ => bare k]
    rfl
  rw [(Settled.settle _).host, State.wentOn, links, List.foldl_nil, State.shutDown, (congrArg State.host (State.canvasToIdle_rest _) :),
    State.drainAbandon_of_idle (by rw [drain]; exact idle)]
  show s.emptied.host.raise .canvasDone (s.emptied.canvas.doneContent _) = _
  rw [host, canvas]

end

/-- Settles O47: every slot ends, then the drain, the canvas and the placement; the links of the tiles go on at the end. -/
theorem canvasAbandonEndsTheCanvas : Obligations.CanvasAbandonEndsTheCanvas := by
  intro s tag hs
  refine ⟨fun shut => exec_of_refused .canvasAbandon hs (show s.owner tag .canvasAbandon = _ from if_pos shut), fun begun => ?_⟩
  have owner : s.owner tag .canvasAbandon = State.done s.wentOn.settle (code8 s.live.length) := State.canvasAbandon_eq begun
  obtain ⟨requests, mem, flats⟩ := s.canvasAbandon_keeps
  rw [State.canvasAbandon_eq begun] at requests mem flats
  have flow := s.wentOn_flow
  have quietly := Abandoning.foldl s.live s
  have drain := s.emptied_drain
  have dstate : s.emptied.drain.state = s.drain.state := (congrArg Drain.state drain :)
  have dhold : s.emptied.drain.hold = s.drain.hold := (congrArg Drain.hold drain :)
  obtain ⟨canvas, ddrain, claims⟩ := flow.shut (State.canvasToIdle_canvas _)
  rw [State.shutDown_drain] at ddrain
  refine ⟨s.wentOn.settle, exec_of_done .canvasAbandon hs owner (requests.trans hs.2.1), canvas,
    fun k => flow.free k (State.shutDown_free k), ?_, ?_, fun state => ?_, fun state access => ?_, fun state => ?_,
    flow.placing (State.canvasToIdle_canvas _) fun ctx => State.shutDown_ended, ?_, fun m k own live ground held => ?_,
    fun ctx k place own placing quiet owned => ⟨fun flying => ?_, fun ground => ?_⟩, State.canvasAbandon_host, mem,
    flow.zeroQueue.trans State.shutDown_zeroQueue, flats⟩
  · rw [ddrain]
    exact State.drainAbandon_queue.1
  · rw [ddrain]
    exact State.drainAbandon_queue.2.trans dhold
  · rw [ddrain]
    exact State.drainAbandon_idle (by rw [dstate]; exact state)
  · rw [ddrain]
    obtain ⟨idle, withdrawn⟩ := State.drainAbandon_withdrawn (s := s.emptied) (dstate.trans state) (mt quietly.reading.1 access)
    refine ⟨idle, Bool.eq_false_iff.2 fun held => Bool.false_ne_true (withdrawn.symm.trans ?_)⟩
    exact State.canvasToIdle_claims (s := s.emptied.drainAbandon.raise .canvasDone _) (c := .drainRead) nofun (claims held)
  · rw [ddrain, State.drainAbandon_ended (by rw [dstate]; exact state.imp_right (And.imp_right quietly.reading.2))]
    exact (congrArg (fun d : Drain => ({ d with queue := [], ended := true } : Drain)) drain :)
  · refine (flow.carry fun k => ExpSlot.not_isCommitted_of_free (State.shutDown_free k)).trans ?_
    exact (congrArg State.carry State.shutDown_rest :).trans (congrArg State.carry quietly.rest :)
  · have left : s.shutDown.tile m = .empty := by
      rw [State.shutDown_tile]
      exact State.abandons_tile_gone own held ground s.live rfl (State.mem_live.2 live)
    rcases (flow.tile m).unowned (by rw [left]; rfl) with same | gone
    · rw [same, left]
      rfl
    · rw [gone]
      rfl
  all_goals
    obtain ⟨j, own', live⟩ := owned ctx.tile (by rw [placing]; exact nofun)
    obtain rfl : k = j := Option.some.inj (own.symm.trans own')
    have still := State.wentOn_still quiet owned
    have tile : s.wentOn.settle.tile ctx.tile = s.emptied.tile ctx.tile := by
      rw [(Settled.settle _).tilesSame.tile, ← State.shutDown_tile]
      exact (congrArg (fun x : State => x.tile ctx.tile) still :)
    have wplace : s.wentOn.place = s.shutDown.place := (congrArg State.place still :)
  · obtain ⟨marked, detached⟩ := State.abandons_flight own placing flying s.live place rfl (State.mem_live.2 live)
    refine ⟨?_, tile.trans detached⟩
    have before := wplace.trans (State.shutDown_flight marked flying)
    refine (State.grant_place_some _ ((State.drainTake_place _).trans before)).trans ?_
    rw [if_neg]
    show ¬(ctx.phase = .claiming ∧ _)
    rw [flying]
    exact fun h => nomatch h.1
  · obtain ⟨idle, left, withdrawn⟩ := State.abandons_ground own placing s.live place rfl ground rfl (State.mem_live.2 live)
    obtain ⟨still', held⟩ := State.shutDown_idle idle
    have before := wplace.trans still'
    refine ⟨State.grant_place_none _ ((State.drainTake_place _).trans before), ?_, ?_⟩
    · rw [tile]
      exact congrArg Tile.state left
    · refine Bool.eq_false_iff.2 fun h => Bool.false_ne_true (withdrawn.symm.trans (held ?_))
      have shut : s.wentOn.canvas = .idle := (congrArg State.canvas still :).trans (State.canvasToIdle_canvas _)
      have taken : s.wentOn.drainTake = s.wentOn := if_neg fun can => can.2.2.1 (congrArg Canvas.state shut)
      rw [State.settle, taken] at h
      have claimed := State.holdsClaim_of_grant s.wentOn (c := .placement) nofun h
      rw [State.holdsClaim, show s.wentOn.store = s.shutDown.store from (congrArg State.store still :)] at claimed
      exact claimed

end Sys2Proof.Machine
end

section
/-!
PROOF. What resolutions without a placed tile do to a cell of a canvas that gathers (R46, R136), and what the end of an event does to it.
-/

namespace Sys2Proof.Machine

/-! ## A cell written off -/

/-- A cell after `n` more resolutions, none by a placed tile. -/
def Cell.writeOff (c : Cell) (n : Nat) : Cell :=
  { c with owed := c.owed - n, resolved := min 65535 (c.resolved + n), writtenOff := min 65535 (c.writtenOff + n) }

theorem Cell.resolve_false (c : Cell) : { c.resolve false with owed := c.owed - 1 } = c.writeOff 1 := by
  simp [Cell.resolve, Cell.writeOff, satAdd_eq_min, Config.sat16]

theorem Cell.writeOff_zero {c : Cell} (resolved : c.resolved ≤ 65535) (writtenOff : c.writtenOff ≤ 65535) : c.writeOff 0 = c := by
  rw [Cell.writeOff, Nat.add_zero, Nat.add_zero, Nat.min_eq_right resolved, Nat.min_eq_right writtenOff]
  rfl

theorem Cell.writeOff_add (c : Cell) (m n : Nat) : (c.writeOff m).writeOff n = c.writeOff (m + n) := by
  have cap : ∀ a, min 65535 (min 65535 (a + m) + n) = min 65535 (a + (m + n)) := fun a => by omega
  show ({ c with owed := c.owed - m - n, resolved := _, writtenOff := _ } : Cell) = _
  rw [Nat.sub_sub]
  show ({ c with owed := _, resolved := min 65535 (min 65535 (c.resolved + m) + n),
                 writtenOff := min 65535 (min 65535 (c.writtenOff + m) + n) } : Cell) = _
  rw [cap, cap]
  rfl

/-! ## Payments of a canvas that gathers -/

/-- A step of a canvas that goes on gathering: no cell completes. -/
structure Gathers (s t : State) : Prop where
  canvas : t.canvas.state = .gathering
  drain : t.drain = s.drain

section
variable {s : State} {i : Nat} {c : Cell}

theorem State.cell?_setCell_self (cell : s.cell? i = some c) (d : Cell) : (s.setCell i d).cell? i = some d := by
  rw [State.cell?_setCell, if_pos rfl, if_pos (List.getElem?_eq_some_iff.1 cell).1]

theorem State.payCell_gathers (gathering : s.canvas.state = .gathering) (placed : Bool) (j : Nat) :
    Gathers s (State.payCell placed s j) := by
  unfold State.payCell
  split
  · exact ⟨gathering, rfl⟩
  · dsimp only
    split
    · split
      · next shut => exact absurd (gathering.symm.trans shut.2) nofun
      · exact ⟨gathering, rfl⟩
    · exact ⟨gathering, rfl⟩

theorem State.payCell_other {j : Nat} (gathering : s.canvas.state = .gathering) (placed : Bool) (other : j ≠ i) :
    (State.payCell placed s j).cell? i = s.cell? i := by
  have set : ∀ d, (s.setCell j d).cell? i = s.cell? i := fun d => (State.cell?_setCell ..).trans (if_neg other)
  unfold State.payCell
  split
  · rfl
  · dsimp only
    split
    · split
      · next shut => exact absurd (gathering.symm.trans shut.2) nofun
      · exact set _
    · exact set _

theorem State.payCell_here (gathering : s.canvas.state = .gathering) (cell : s.cell? i = some c) (pending : c.state = .pending) :
    (State.payCell false s i).cell? i = some (c.writeOff 1) := by
  have open_ : ¬({ c.resolve false with owed := c.owed - 1 }.owed = 0 ∧ s.canvas.state = .closed) := fun shut =>
    absurd (gathering.symm.trans shut.2) nofun
  rw [State.payCell, cell]
  show (if c.state = .pending then _ else _ : State).cell? i = _
  rw [if_pos pending, ← Cell.resolve_false]
  exact (congrArg (State.cell? · i) (if_neg open_)).trans (State.cell?_setCell_self cell _)

theorem State.payCells_gathers (placed : Bool) (cells : List Nat) : ∀ {s : State}, s.canvas.state = .gathering →
    Gathers s (s.payCells placed cells) := by
  induction cells with
  | nil => exact fun gathering => ⟨gathering, rfl⟩
  | cons j cells ih =>
    intro s gathering
    have one := State.payCell_gathers gathering placed j
    have more := ih one.canvas
    exact ⟨more.canvas, more.drain.trans one.drain⟩

/-- A list of cells, each named once, is paid once. -/
theorem State.payCells_cell (cells : List Nat) : ∀ {s : State} {c : Cell}, s.canvas.state = .gathering → s.cell? i = some c →
    c.state = .pending → cells.Nodup →
    (s.payCells false cells).cell? i = some (if i ∈ cells then c.writeOff 1 else c) := by
  have away : ∀ (cells : List Nat) {s : State}, s.canvas.state = .gathering → i ∉ cells →
      (s.payCells false cells).cell? i = s.cell? i := by
    intro cells
    induction cells with
    | nil => exact fun _ _ => rfl
    | cons j cells ih =>
      intro s gathering absent
      rw [List.mem_cons, not_or] at absent
      exact (ih (State.payCell_gathers gathering false j).canvas absent.2).trans
        (State.payCell_other gathering false (Ne.symm absent.1))
  induction cells with
  | nil => exact fun _ cell _ _ => cell
  | cons j cells ih =>
    intro s c gathering cell pending nodup
    obtain ⟨fresh, nodup⟩ := List.nodup_cons.1 nodup
    have one := State.payCell_gathers gathering false j
    by_cases here : j = i
    · subst here
      rw [if_pos List.mem_cons_self]
      exact (away cells one.canvas fresh).trans (State.payCell_here gathering cell pending)
    · refine (ih one.canvas ((State.payCell_other gathering false here).trans cell) pending nodup).trans (congrArg some ?_)
      exact if_congr (by rw [List.mem_cons, or_iff_right (Ne.symm here)]) rfl rfl

end

/-! ## Resolutions -/

/-- The cells that a resolution of segment `g` reaches. -/
def ExpSlot.cellsOf (x : ExpSlot) (g : Fin 96) : List Nat := ((x.placementFor g).map Placement.cells).getD []

section
variable {s : State} {k : Fin 4} {i : Nat} {c : Cell}

theorem State.recordResolution_committed {g : Fin 96} (first : ((s.slot k).entry g).isResolved = false) (why : Reason)
    (committed : (s.slot k).isCommitted = true) :
    s.recordResolution k g why =
      (s.setSlot k ((s.slot k).resolve g why)).payCells (decide (why = .placed)) ((s.slot k).cellsOf g) := by
  cases listed : (s.slot k).placementFor g with
  | none =>
    rw [State.recordResolution_of_unlisted first why (.inr listed), ExpSlot.cellsOf, listed]
    rfl
  | some p =>
    rw [State.recordResolution_of_listed first why committed listed, ExpSlot.cellsOf, listed]
    rfl

theorem State.recordResolution_gathers (gathering : s.canvas.state = .gathering) (g : Fin 96) (why : Reason) :
    Gathers s (s.recordResolution k g why) := by
  unfold State.recordResolution
  dsimp only
  split
  · exact ⟨gathering, rfl⟩
  · split
    · split
      · have paid := fun y b cells => State.payCells_gathers (s := s.setSlot k y) b cells gathering
        exact ⟨(paid _ _ _).canvas, (paid _ _ _).drain⟩
      · exact ⟨gathering, rfl⟩
    · exact ⟨gathering, rfl⟩

theorem State.records_gathers (why : Reason) (l : List (Fin 96)) : ∀ {s : State}, s.canvas.state = .gathering →
    Gathers s (s.records k why l) := by
  induction l with
  | nil => exact fun gathering => ⟨gathering, rfl⟩
  | cons g l ih =>
    intro s gathering
    have one := State.recordResolution_gathers (k := k) gathering g why
    have more := ih one.canvas
    exact ⟨more.canvas, more.drain.trans one.drain⟩

/-- First resolutions of a committed slot pay a cell as often as their segments name it. -/
theorem State.records_cell {why : Reason} (unplaced : why ≠ .placed) (l : List (Fin 96)) : ∀ {s : State} {c : Cell}, l.Nodup →
    (∀ g ∈ l, ((s.slot k).entry g).isResolved = false) → (s.slot k).isCommitted = true →
    (∀ g, ((s.slot k).cellsOf g).Nodup) → s.canvas.state = .gathering → s.cell? i = some c → c.state = .pending →
    c.resolved ≤ 65535 → c.writtenOff ≤ 65535 →
    (s.records k why l).cell? i = some (c.writeOff (l.countP fun g => decide (i ∈ (s.slot k).cellsOf g))) := by
  induction l with
  | nil => exact fun _ _ _ _ _ cell _ resolved writtenOff => cell.trans (congrArg some (Cell.writeOff_zero resolved writtenOff).symm)
  | cons g l ih =>
    intro s c nodup open_ committed lists gathering cell pending resolved writtenOff
    obtain ⟨fresh, nodup⟩ := List.nodup_cons.1 nodup
    have first := open_ g List.mem_cons_self
    have one := State.recordResolution_gathers (k := k) gathering g why
    have slot : (s.recordResolution k g why).slot k = (s.slot k).resolve g why := by
      rw [(State.recordResolution_side first why).slot, State.slot_setSlot, if_pos rfl]
    have step : (s.recordResolution k g why).cell? i
        = some (c.writeOff (if decide (i ∈ (s.slot k).cellsOf g) = true then 1 else 0)) := by
      rw [State.recordResolution_committed first why committed, decide_eq_false unplaced]
      refine (State.payCells_cell (s := s.setSlot k ((s.slot k).resolve g why)) _ gathering cell pending (lists g)).trans ?_
      by_cases named : i ∈ (s.slot k).cellsOf g
      · rw [if_pos named, if_pos (decide_eq_true named)]
      · rw [if_neg named, if_neg (by rw [decide_eq_false named]; exact nofun), Cell.writeOff_zero resolved writtenOff]
    refine (ih nodup (fun j mem => ?_) ?_ ?_ one.canvas step pending ?_ ?_).trans ?_
    · have entry : ((s.recordResolution k g why).slot k).entry j = if g = j then .resolved why else (s.slot k).entry j := by
        rw [slot]
        exact ExpSlot.entry_setEntry (s.slot k) g j (.resolved why)
      rw [entry, if_neg (show ¬g = j from fun same => fresh (by rw [same]; exact mem))]
      exact open_ j (List.mem_cons_of_mem _ mem)
    · rw [slot]
      exact committed
    · rw [slot]
      exact lists
    · exact Nat.min_le_left ..
    · exact Nat.min_le_left ..
    · rw [slot, Cell.writeOff_add, List.countP_cons, Nat.add_comm]
      rfl

end

/-! ## The placements of a slot, each of its own segment -/

section
variable {x : ExpSlot}

theorem ExpSlot.placementFor_of_mem (sorted : x.placements.Pairwise fun p q => p.segment < q.segment) {p : Placement}
    (mem : p ∈ x.placements) : x.placementFor p.segment = some p := by
  rw [ExpSlot.placementFor]
  generalize x.placements = l at sorted mem
  induction l with
  | nil => cases mem
  | cons q l ih =>
    obtain ⟨first, sorted⟩ := List.pairwise_cons.1 sorted
    rw [List.find?_cons]
    by_cases here : q.segment = p.segment
    · rw [decide_eq_true here]
      rcases List.mem_cons.1 mem with same | later
      · rw [same]
      · exact absurd here (ne_of_lt (first p later))
    · rw [decide_eq_false here]
      exact ih sorted ((List.mem_cons.1 mem).resolve_left fun same => here (congrArg Placement.segment same).symm)

theorem ExpSlot.cellsOf_of_mem (sorted : x.placements.Pairwise fun p q => p.segment < q.segment) {p : Placement}
    (mem : p ∈ x.placements) : x.cellsOf p.segment = p.cells := by
  rw [ExpSlot.cellsOf, ExpSlot.placementFor_of_mem sorted mem]
  rfl

theorem ExpSlot.planned_iff {g : Fin 96} : x.planned g = true ↔ ∃ p ∈ x.placements, p.segment = g := by
  simp [ExpSlot.planned, ExpSlot.placementFor, List.find?_isSome]

theorem ExpSlot.cellsOf_nodup (lists : ∀ p ∈ x.placements, p.cells.Nodup) (g : Fin 96) : (x.cellsOf g).Nodup := by
  rw [ExpSlot.cellsOf]
  cases found : x.placementFor g with
  | none => exact List.nodup_nil
  | some p => exact lists p (List.mem_of_find?_eq_some found)

/-- The segments of some placements. -/
theorem ExpSlot.perm_segments (sorted : x.placements.Pairwise fun p q => p.segment < q.segment) (keep : Placement → Bool)
    {l : List (Fin 96)} (nodup : l.Nodup) (spec : ∀ g, g ∈ l ↔ ∃ p ∈ x.placements, keep p = true ∧ p.segment = g) :
    l.Perm ((x.placements.filter keep).map Placement.segment) := by
  refine (List.perm_ext_iff_of_nodup nodup ?_).2 fun g => ?_
  · rw [List.Nodup, List.pairwise_map]
    exact (sorted.filter keep).imp fun below => ne_of_lt below
  · rw [spec, List.mem_map]
    simp only [List.mem_filter, and_assoc]

/-- As many segments of those name a cell as placements do. -/
theorem ExpSlot.countP_segments (sorted : x.placements.Pairwise fun p q => p.segment < q.segment) (keep : Placement → Bool)
    {l : List (Fin 96)} (nodup : l.Nodup) (spec : ∀ g, g ∈ l ↔ ∃ p ∈ x.placements, keep p = true ∧ p.segment = g) (i : Nat) :
    l.countP (fun g => decide (i ∈ x.cellsOf g)) = x.placements.countP fun p => decide (i ∈ p.cells) && keep p := by
  rw [(ExpSlot.perm_segments sorted keep nodup spec).countP_eq, List.countP_map, List.countP_filter]
  refine List.countP_congr fun p mem => ?_
  show ((decide (i ∈ x.cellsOf p.segment) && keep p) = true ↔ _)
  rw [ExpSlot.cellsOf_of_mem sorted mem]

end

/-! ## The end of the event -/

section
variable {s : State} {i : Nat} {c : Cell}

theorem lowestOpen_spec {cells : List Cell} : ∀ {k j : Nat} {d : Cell}, lowestOpen k cells = some (j, d) → k ≤ j ∧ cells[j - k]? = some d := by
  induction cells with
  | nil => exact nofun
  | cons e cells ih =>
    intro k j d found
    rw [lowestOpen] at found
    split at found
    · obtain ⟨above, at_⟩ := ih found
      refine ⟨Nat.le_of_succ_le above, ?_⟩
      rw [show j - k = (j - (k + 1)) + 1 by omega]
      exact at_
    · cases found
      rw [Nat.sub_self]
      exact ⟨Nat.le_refl _, rfl⟩

/-- The drain takes no cell that is PENDING and not in its queue. -/
theorem State.drainCandidate_ne (queue : i ∉ s.drain.queue) (cell : s.cell? i = some c) (pending : c.state = .pending) :
    s.drainCandidate ≠ some i := by
  intro named
  unfold State.drainCandidate at named
  split at named
  · split at named
    · cases named
    · next j rest full =>
      split at named
      · split at named
        · cases named
          exact queue (full ▸ List.mem_cons_self)
        · cases named
      · cases named
  · split at named
    · next j d found =>
      split at named
      · next ripe =>
        cases named
        obtain ⟨-, at_⟩ := lowestOpen_spec found
        obtain rfl : d = c := Option.some.inj (at_.symm.trans cell)
        rw [pending] at ripe
        cases ripe.1
      · cases named
    · cases named

theorem State.settle_cell (queue : i ∉ s.drain.queue) (cell : s.cell? i = some c) (pending : c.state = .pending) :
    s.settle.cell? i = some c := by
  rw [State.settle, State.cell?, (State.grant_canvas_drain _).1]
  by_cases ready : s.drainReady
  · cases named : s.drainCandidate with
    | none =>
      rw [State.drainTake_of_none named]
      exact cell
    | some j =>
      have other : j ≠ i := fun same => State.drainCandidate_ne queue cell pending (by rw [← same]; exact named)
      rw [State.drainTake_of_some ready named]
      cases taken : s.cell? j with
      | none =>
        rw [State.drainCell, taken]
        exact cell
      | some d =>
        rw [State.drainCell_of taken]
        exact (List.getElem?_set_ne other).trans cell
  · rw [State.drainTake_of_shut ready]
    exact cell

/-- The end of the event makes no claim but the drain's and the refresh. -/
theorem State.holdsClaim_of_settle {d : Claim} (other : d ≠ .drainRead) (fresh : d ≠ .refresh) (held : s.settle.holdsClaim d = true) :
    s.holdsClaim d = true := by
  have taken := State.holdsClaim_of_grant s.drainTake fresh held
  unfold State.drainTake at taken
  split at taken
  · split at taken
    · unfold State.drainCell at taken
      have before := (State.holdsClaim_claim.1 taken).resolve_left other
      split at before <;> exact before
    · exact taken
  · exact taken

end

end Sys2Proof.Machine
end

section
/-!
PROOF. EXPOSURE_ABANDON (R52, R53, R124).
-/

namespace Sys2Proof.Machine

/-! ## The command -/

section
variable {s : State} {k : Fin 4}

/-- The part as the links of the abandoned slot's tiles have gone on. -/
def State.leftBy (s : State) (k : Fin 4) : State :=
  (s.linksOf (s.tilesOf k)).foldl State.resumeLink ((s.abandonSlot k).takeFreed s.place)

theorem State.exposureAbandon_eq {exposure : Nat} (found : s.slotOf exposure = some k) :
    s.exposureAbandon exposure = State.done (s.leftBy k).settle (code8 k.val) := by
  unfold State.exposureAbandon
  rw [found]
  rfl

theorem exec_exposureAbandon {exposure : Nat} {tag : Byte} (hs : s.Ready) (found : s.slotOf exposure = some k) :
    exec (.exposureAbandon tag exposure) s = .next (State.answered (s.leftBy k).settle tag 0x0C (code8 k.val)) := by
  have owner : s.owner tag (.exposureAbandon exposure) = _ := State.exposureAbandon_eq found
  have requests := (Cascade.exposureAbandon s exposure).requests.trans hs.2.1
  rw [State.exposureAbandon_eq found] at requests
  exact exec_of_done (.exposureAbandon exposure) hs owner requests

theorem State.abandonSlot_ended (s : State) (k : Fin 4) : (s.abandonSlot k).Ended k := by
  refine ⟨by rw [State.abandonSlot_slot, if_pos rfl], fun n own filling => ?_⟩
  obtain ⟨-, other⟩ := State.abandonSlot_filling filling
  rw [State.abandonSlot_tile_other other] at own
  exact other own

theorem Routing.takeFreed (e : Fin 4 → Prop) (s : State) (before : Option PlaceCtx) : Routing e s (s.takeFreed before) := by
  unfold State.takeFreed
  split
  · exact .take s
  · exact .refl e s

theorem State.leftBy_flow (s : State) (k : Fin 4) : TileFlow (fun _ => False) (s.abandonSlot k) (s.leftBy k) :=
  (Routing.takeFreed _ _ _).toTileFlow.trans (TileFlow.foldl _ TileFlow.resumeLink _ _)

/-! ## A slot with a placed tile at most -/

theorem SlotStep.busy {t : State} (h : SlotStep k s t) (busy : s.place ≠ none) : t.place ≠ none := by
  obtain ⟨ctx, place⟩ := Option.ne_none_iff_exists'.1 busy
  by_cases flying : ctx.phase = .inFlight
  · rw [h.flight ctx place flying]
    exact nofun
  · obtain ⟨c, after, -⟩ := h.ground ctx place flying
    rw [after]
    exact nofun

theorem State.takeFreed_of_busy {before : Option PlaceCtx} (busy : before ≠ none → s.place ≠ none) : s.takeFreed before = s :=
  if_neg fun freed => busy freed.1 freed.2

theorem ExpSlot.mem_abandoned {x : ExpSlot} (committed : x.isCommitted = true) {g : Fin 96} :
    g ∈ x.abandoned ↔ x.planned g = true ∧ (x.entry g).isResolved = false := by
  rw [ExpSlot.abandoned, List.mem_filter, if_pos committed, Bool.and_eq_true, Bool.not_eq_true']
  exact and_iff_right (by simp [allSegments])

theorem ExpSlot.abandoned_nodup (x : ExpSlot) : x.abandoned.Nodup := (List.nodup_finRange 96).filter _

theorem ExpSlot.abandoned_length {x : ExpSlot} (committed : x.isCommitted = true) :
    x.abandoned.length = allSegments.countP fun g => decide (x.planned g = true ∧ (x.entry g).isResolved = false) := by
  rw [ExpSlot.abandoned, ← List.countP_eq_length_filter]
  refine List.countP_congr fun g _ => ?_
  rw [if_pos committed, Bool.and_eq_true, Bool.not_eq_true', decide_eq_true_iff]

theorem State.cleared_of_kept (kept : s.goneOf k = []) : { s.cleared k with tiles := s.tiles } = s := by
  rw [State.cleared, kept]
  exact State.detach_rest _ s

theorem State.cleared_slot (kept : s.goneOf k = []) (j : Fin 4) : (s.cleared k).slot j = s.slot j :=
  (congrArg (fun x : State => x.slot j) (State.cleared_of_kept kept) :)

/-- The slot's record at its end. -/
theorem State.writtenUp_slot (kept : s.goneOf k = []) (committed : (s.slot k).isCommitted = true) :
    let x := (s.writtenUp k).slot k
    { x with entries := (s.slot k).entries, tallies := (s.slot k).tallies } = s.slot k
    ∧ (∀ g, x.entry g = if (s.slot k).planned g = true ∧ ((s.slot k).entry g).isResolved = false then .resolved .abandoned
        else (s.slot k).entry g)
    ∧ x.tallies[Reason.abandoned.num] = (s.slot k).tallies[Reason.abandoned.num]
        + allSegments.countP fun g => decide ((s.slot k).planned g = true ∧ ((s.slot k).entry g).isResolved = false) := by
  have slot := State.cleared_slot kept k
  obtain ⟨rest, entries, tally⟩ := State.records_slot (k := k) .abandoned (s.slot k).abandoned (s.cleared k) (ExpSlot.abandoned_nodup _)
    fun g mem => by rw [slot]; exact ((ExpSlot.mem_abandoned committed).1 mem).2
  rw [ExpSlot.abandoned_length committed] at tally
  have same : s.writtenUp k = (s.cleared k).records k .abandoned (s.slot k).abandoned := by rw [State.writtenUp, slot]
  rw [slot, ← same] at rest tally entries
  refine ⟨rest, fun g => (entries g).trans (if_congr (ExpSlot.mem_abandoned committed) rfl rfl), tally⟩

theorem State.shed_host (kept : s.goneOf k = []) :
    (s.shed k).host = s.host.raise .exposureDone (((s.writtenUp k).slot k).doneContent k .abandoned) := by
  have host : (s.writtenUp k).host = s.host :=
    (congrArg State.host (State.records_rest (k := k) .abandoned ((s.cleared k).slot k).abandoned (s.cleared k)) :).trans
      (congrArg State.host (State.cleared_of_kept kept) :)
  show (s.writtenUp k).host.raise .exposureDone _ = _
  rw [host]

end

/-! ## A slot without tiles -/

section
variable {s : State} {k : Fin 4}

theorem State.abandonSlot_of_tileless (bare : s.tilesOf k = []) : s.abandonSlot k = s.shed k := by
  rw [State.abandonSlot_shed, State.placingOf_of_bare bare]
  rfl

theorem State.leftBy_of_tileless (bare : s.tilesOf k = []) : s.leftBy k = s.shed k := by
  have same := State.takeFreed_of_busy (s := s.shed k) (before := s.place) (SlotStep.shed s k).busy
  rw [State.leftBy, State.abandonSlot_of_tileless bare, same, bare]
  rfl

theorem State.endSlot_rest (s : State) (k : Fin 4) (o : DoneOutcome) : { s.endSlot k o with slots := s.slots, host := s.host } = s := rfl

theorem State.shed_canvas : (s.shed k).canvas = (s.writtenUp k).canvas := (congrArg State.canvas (State.endSlot_rest _ k .abandoned) :)

theorem State.shed_drain : (s.shed k).drain = (s.writtenUp k).drain := (congrArg State.drain (State.endSlot_rest _ k .abandoned) :)

theorem State.shed_tiles_of_tileless (bare : s.tilesOf k = []) : (s.shed k).tiles = s.tiles := by
  rw [State.shed_tiles, State.cleared_of_bare bare]

/-- Each open placement of the slot that names a cell writes it off once. -/
theorem State.leftBy_cell (bare : s.tilesOf k = []) (committed : (s.slot k).isCommitted = true)
    (sorted : (s.slot k).placements.Pairwise fun p q => p.segment < q.segment) (lists : ∀ p ∈ (s.slot k).placements, p.cells.Nodup)
    (gathering : s.canvas.state = .gathering) {i : Nat} {c : Cell} (cell : s.cell? i = some c) (pending : c.state = .pending)
    (queue : i ∉ s.drain.queue) (resolved : c.resolved ≤ 65535) (writtenOff : c.writtenOff ≤ 65535) :
    (s.leftBy k).settle.cell? i = some (c.writeOff ((s.slot k).placements.countP fun p =>
      decide (i ∈ p.cells ∧ (s.slot k).planned p.segment = true ∧ ((s.slot k).entry p.segment).isResolved = false))) := by
  have written : s.writtenUp k = s.records k .abandoned (s.slot k).abandoned := by
    rw [State.writtenUp, State.cleared_of_bare bare]
  have after := State.records_cell (why := .abandoned) nofun (s.slot k).abandoned (ExpSlot.abandoned_nodup _)
    (fun g mem => ((ExpSlot.mem_abandoned committed).1 mem).2) committed (ExpSlot.cellsOf_nodup lists) gathering cell pending resolved
    writtenOff
  have drain := (State.records_gathers (k := k) .abandoned (s.slot k).abandoned gathering).drain
  rw [← written] at drain
  rw [← written, State.cell?, ← State.shed_canvas] at after
  rw [← State.shed_drain] at drain
  rw [State.leftBy_of_tileless bare]
  refine (State.settle_cell (s := s.shed k) (by rw [drain]; exact queue) after pending).trans ?_
  rw [ExpSlot.countP_segments sorted (fun p => !((s.slot k).entry p.segment).isResolved) (ExpSlot.abandoned_nodup _) fun g => ?_]
  · refine congrArg (fun n => some (c.writeOff n)) (List.countP_congr fun p mem => ?_)
    rw [Bool.and_eq_true, Bool.not_eq_true', decide_eq_true_iff, decide_eq_true_iff]
    exact and_congr_right fun _ => (and_iff_right (ExpSlot.planned_iff.2 ⟨p, mem, rfl⟩)).symm
  · rw [ExpSlot.mem_abandoned committed, ExpSlot.planned_iff]
    constructor
    · rintro ⟨⟨p, mem, rfl⟩, open_⟩
      exact ⟨p, mem, by rw [open_]; rfl, rfl⟩
    · rintro ⟨p, mem, open_, rfl⟩
      exact ⟨⟨p, mem, rfl⟩, by rwa [Bool.not_eq_true'] at open_⟩

end

/-! ## A slot with its placed tile alone -/

section
variable {s : State} {k : Fin 4} {n : Fin 40} {ctx : PlaceCtx}

theorem State.only_placing (tiles : s.tilesOf k = [n]) (placing : (s.tile n).state = .placing) :
    s.goneOf k = [] ∧ s.placingOf k = [n] := by
  rw [State.goneOf, State.placingOf, tiles, List.filter_singleton, List.filter_singleton, placing]
  exact ⟨rfl, rfl⟩

theorem State.shed_tile_other (tiles : s.tilesOf k = [n]) (placing : (s.tile n).state = .placing) {m : Fin 40} (other : m ≠ n) :
    (s.shed k).tile m = s.tile m := by
  obtain ⟨kept, placed⟩ := State.only_placing tiles placing
  rw [State.shed_tile, kept, placed, if_neg (by exact nofun), if_neg (by rw [List.mem_singleton]; exact other)]

theorem State.shed_queue (kept : s.goneOf k = []) : (s.shed k).tiles.queue = s.tiles.queue := by
  have queue : ∀ (l : List (Fin 40)) (t : State), (t.detach l).tiles.queue = t.tiles.queue := by
    intro l
    induction l with
    | nil => exact fun t => rfl
    | cons m l ih => exact fun t => ih (t.modTile m fun x => { x with owner := none })
  rw [State.shed_tiles, State.cleared, kept]
  exact queue _ s

/-- A link with nothing to measure and nothing to take in. -/
theorem State.resumeLink_of_empty {l : Fin 12} (quiet : s.measure l = []) (empty : (s.port l).buffer = []) :
    { s.resumeLink l with ports := s.ports } = s := by
  rw [State.resumeLink_of_idle quiet]
  unfold State.intakeRun
  split
  · rw [empty]
    rfl
  · rfl

/-- The link of the placed tile finds nothing to do. -/
theorem State.leftBy_of_placing (tiles : s.tilesOf k = [n]) (quiet : s.measure (linkOf (s.tile n).segment) = [])
    (empty : (s.port (linkOf (s.tile n).segment)).buffer = []) :
    { s.leftBy k with ports := s.ports } = (s.abandonSlot k).takeFreed s.place := by
  have inner : Inner s ((s.abandonSlot k).takeFreed s.place) := (Inner.abandonSlot s k).trans (.takeFreed _ _)
  have still : ((s.abandonSlot k).takeFreed s.place).measure (linkOf (s.tile n).segment) = [] := by
    rw [State.measure, (Routing.takeFreed (fun _ => False) (s.abandonSlot k) s.place).measuring]
    exact (Abandoning.abandonSlot s k).quiet _ quiet
  have resumed := State.resumeLink_of_empty still (by rw [inner.port]; exact empty)
  rw [inner.ports] at resumed
  have links : s.linksOf (s.tilesOf k) = [linkOf (s.tile n).segment] := by
    rw [tiles]
    rfl
  rw [State.leftBy, links]
  exact resumed

/-- The slots as they are left, where the links find nothing to do. -/
theorem State.left_slot {v : State} (went : { s.leftBy k with ports := s.ports } = v) (slots : v.slots = (s.abandonSlot k).slots) (j : Fin 4) :
    (s.leftBy k).settle.slot j = if k = j then .empty else s.slot j := by
  rw [(Settled.settle _).tilesSame.slot, ← State.abandonSlot_slot, State.slot, State.slot, ← slots]
  exact (congrArg (fun x : State => x.slots[j]) went :)

theorem State.left_carry {v : State} (went : { s.leftBy k with ports := s.ports } = v) (carry : v.carry = (s.abandonSlot k).carry) :
    (s.leftBy k).settle.carry = s.carry := by
  have after : (s.leftBy k).settle.carry = (s.leftBy k).carry := (congrArg State.carry (Settled.settle _).rest :)
  exact after.trans ((congrArg State.carry went :).trans (carry.trans (congrArg State.carry (Abandoning.abandonSlot s k).rest :)))

theorem State.left_tile {v : State} (went : { s.leftBy k with ports := s.ports } = v) (m : Fin 40) :
    (s.leftBy k).settle.tile m = v.tile m := by
  rw [(Settled.settle _).tilesSame.tile]
  exact (congrArg (fun x : State => x.tile m) went :)

theorem State.left_host {v : State} (went : { s.leftBy k with ports := s.ports } = v) : (s.leftBy k).settle.host = v.host :=
  (Settled.settle _).host.trans (congrArg State.host went :)

/-- The row in flight is let finish. -/
theorem State.abandonSlot_of_flight (tiles : s.tilesOf k = [n]) (placing : (s.tile n).state = .placing) (place : s.place = some ctx)
    (on : ctx.tile = n) (flying : ctx.phase = .inFlight) :
    (s.abandonSlot k).takeFreed s.place = { s.shed k with place := some { ctx with stop := true } } := by
  have mem : ctx.tile ∈ s.placingOf k := by
    rw [(State.only_placing tiles placing).2, on]
    exact List.mem_singleton_self n
  rw [State.abandonSlot_flight place flying mem]
  exact State.takeFreed_of_busy fun _ => nofun

theorem State.abandonSlot_of_ground (tiles : s.tilesOf k = [n]) (placing : (s.tile n).state = .placing) (place : s.place = some ctx)
    (on : ctx.tile = n) (ground : ctx.phase ≠ .inFlight) :
    s.abandonSlot k = ((s.shed k).withdraw .placement).stopTile n := by
  have mem : ctx.tile ∈ s.placingOf k := by
    rw [(State.only_placing tiles placing).2, on]
    exact List.mem_singleton_self n
  rw [State.abandonSlot_ground place ground mem, on]

/-- Any other placement is withdrawn. -/
theorem State.stopTile_spec (s : State) (n : Fin 40) :
    let u := (s.withdraw .placement).stopTile n
    u.host = s.host.raise .tileReport ((s.tile n).report n .abandoned)
    ∧ u.tiles.queue = s.tiles.queue.filter (fun m => decide (m ≠ n))
    ∧ ∀ m, m ≠ n → u.tile m = s.tile m := by
  refine ⟨State.discardTile_host (s.withdraw .placement) n .abandoned, ?_, fun m other => ?_⟩
  · exact (congrArg TileStore.queue (State.discardTile_tiles (s.withdraw .placement) n .abandoned) :)
  · exact (State.discardTile_tile (s.withdraw .placement) n .abandoned m).trans (if_neg (Ne.symm other))

/-- The next tile of the queue is taken by the unit that has been stopped. -/
theorem State.takeFreed_of_started {v : State} {before : Option PlaceCtx} {m : Fin 40} {rest : List (Fin 40)} {j : Fin 4} {p : Placement}
    {r : Nat} (busy : before ≠ none) (idle : v.place = none) (queue : v.tiles.queue = m :: rest) (owner : (v.tile m).owner = some j)
    (listed : (v.slot j).placementFor (v.tile m).segment = some p) (held : (v.tile m).nextHeld 0 = some r) :
    let u := v.takeFreed before
    u.slots = v.slots ∧ u.carry = v.carry ∧ (u.tile m).state = .placing ∧ (∀ n, n ≠ m → u.tile n = v.tile n)
    ∧ ∃ c, u.place = some c ∧ c.tile = m ∧ c.plan = p ∧ c.stop = false := by
  have taken := State.take_of_started idle queue owner listed held
  have freed : v.takeFreed before = v.take := if_pos ⟨busy, idle⟩
  rw [freed, taken]
  generalize hctx : ({ v with tiles := { v.tiles with queue := rest } } : State).placeContext m (v.tile m) (v.slot j) p = ctx
  have on : ctx.tile = m := by rw [← hctx]; rfl
  generalize hw : ({ ({ v with tiles := { v.tiles with queue := rest } } : State).setTile m { v.tile m with state := .placing } with
    place := some ctx } : State) = w
  have wtile : ∀ n, w.tile n = if m = n then { v.tile m with state := .placing } else v.tile n := fun n => by
    rw [← hw]
    exact State.tile_setTile ..
  obtain ⟨place, after, -⟩ := w.startRow_spec ctx r
  have tile : ∀ n, (w.startRow ctx r).tile n = if m = n then { w.tile m with reached := r } else w.tile n := fun n => by
    have set := State.tile_setTile w ctx.tile n { w.tile ctx.tile with reached := r }
    rw [on] at set
    rw [on] at after
    exact (congrArg (fun x : State => x.tile n) after :).trans set
  refine ⟨?_, ?_, ?_, fun n other => ?_, w.rowContext ctx r, place, on, ?_, ?_⟩
  · refine (congrArg State.slots after :).trans ?_
    rw [← hw]
    rfl
  · refine (congrArg State.carry after :).trans ?_
    rw [← hw]
    rfl
  · rw [tile, if_pos rfl, wtile, if_pos rfl]
  · rw [tile, if_neg (Ne.symm other), wtile, if_neg (Ne.symm other)]
  · rw [← hctx]
    rfl
  · rw [← hctx]
    rfl

end

end Sys2Proof.Machine
end

section
/-!
PROOF. The ends of a slot: abandonment (R52, R53), overrun (R48), the expiry of its limit (R49) and its settling (R33).
-/

namespace Sys2Proof.Machine

/-! ## Settling (R33) -/

/-- The four cases of a slot's settling. -/
theorem State.settleSlot_cases (s : State) (k : Fin 4) :
    let x := s.slot k
    let waits := ∃ p ∈ x.placements, x.entry p.segment = .notStarted
    let left := (∃ p ∈ x.placements, ∀ w, x.entry p.segment ≠ .resolved w) ∨ ∃ n, (s.tile n).state ≠ .free ∧ (s.tile n).owner = some k
    (x.state ∈ [.free, .opened] → s.settleSlot k = s)
    ∧ (x.state ∈ [.committed, .reading, .placing] →
      (x.timer = .notStarted → s.settleSlot k = s.setSlot k { x with state := .committed })
      ∧ (x.timer = .running → waits → s.settleSlot k = s.setSlot k { x with state := .reading })
      ∧ (x.timer ≠ .notStarted → x.timer ≠ .running ∨ ¬waits → left → s.settleSlot k = s.setSlot k
          { x with state := .placing, timer := if x.timer = .running then .stopped else x.timer })
      ∧ (x.timer ≠ .notStarted → x.timer ≠ .running ∨ ¬waits → ¬left → s.settleSlot k =
          State.setSlot (State.raise { s with carry := x.photo.scale } .exposureDone (x.doneContent k .finished)) k .empty)) := by
  intro x waits left
  have awaits : x.awaits = true ↔ waits := ExpSlot.awaits_iff
  have keeps : (x.allResolved = false ∨ s.tilesOf k ≠ []) ↔ left := or_congr ExpSlot.not_allResolved_iff State.tilesOf_ne_nil
  have ended : x.timer ≠ .running ∨ ¬waits → x.timer ≠ .running ∨ x.awaits = false := Or.imp_right fun none => by
    rwa [← awaits, Bool.not_eq_true] at none
  refine ⟨fun state => State.settleSlot_of_uncommitted (ExpSlot.not_isCommitted_iff.2 state), fun state => ?_⟩
  have committed : x.isCommitted = true := ExpSlot.isCommitted_iff.2 state
  refine ⟨State.settleSlot_of_notStarted committed, fun running wait => State.settleSlot_of_running committed running (awaits.2 wait),
    fun started none some => ?_, fun started none gone => ?_⟩
  · exact (State.settleSlot_of_ended committed started (ended none)).trans (if_pos (keeps.2 some))
  · exact (State.settleSlot_of_ended committed started (ended none)).trans (if_neg (mt keeps.1 gone))

/-! ## Abandonment (R52, R53) -/

/-- An abandoned slot ends, and its tiles that are not being placed leave. -/
theorem State.abandonment_ends {s : State} {tag : Byte} {exposure : Nat} {k : Fin 4} (hs : s.Ready) (found : s.slotOf exposure = some k) :
    ∃ t, exec (.exposureAbandon tag exposure) s = .next t ∧ t.slot k = .empty
      ∧ ∀ n, (s.tile n).owner = some k → (s.tile n).state ≠ .placing → (s.tile n).state ≠ .free → (t.tile n).state = .free := by
  have flow := s.leftBy_flow k
  have same := TilesSame.answered_settled (s.leftBy k) tag 0x0C (code8 k.val)
  refine ⟨_, exec_exposureAbandon hs found, (same.slot k).trans (flow.empty k id (s.abandonSlot_ended k)), fun n own ground live => ?_⟩
  have gone : (s.abandonSlot k).tile n = .empty := State.abandonSlot_tile_gone (State.mem_goneOf.2 ⟨live, own, ground⟩)
  rw [same.tile]
  rcases (flow.tile n).unowned (by rw [gone]; rfl) with same | left
  · rw [same, gone]
    rfl
  · rw [left]
    rfl

section
variable {s : State} {tag : Byte} {exposure : Nat} {k : Fin 4}

/-- An OPEN slot without tiles and data ends at once. -/
theorem exec_exposureAbandon_opened (hs : s.Ready) (found : s.slotOf exposure = some k) (opened : (s.slot k).state = .opened)
    (bare : s.tilesOf k = []) (none : ∀ g, (s.slot k).entry g ≠ .inStore) :
    exec (.exposureAbandon tag exposure) s = .next (State.answered (State.settle
      ((s.raise .exposureDone ((s.slot k).doneContent k .abandoned)).setSlot k .empty)) tag 0x0C (code8 k.val)) := by
  have open_ : (s.slot k).abandoned = [] := ExpSlot.abandoned_of_opened (by rw [opened]; decide) none
  have ended : s.leftBy k = s.endSlot k .abandoned := by
    rw [State.leftBy_of_tileless bare, ← State.abandonSlot_of_tileless bare, State.abandonSlot_of_bare bare open_]
  rw [exec_exposureAbandon hs found, ended]
  rfl

end

end Sys2Proof.Machine
end

section
/-!
PROOF. The readout limit (R47 to R49) in a slot whose photometry does not settle, or that is OPEN.
-/

namespace Sys2Proof.Machine

section
variable {s : State} {k : Fin 4}

/-- R48. An OPEN slot without tiles overruns. -/
theorem exec_readoutLimitExpiry_opened (idle : s.host.requests = []) (running : (s.slot k).timer = .running)
    (opened : (s.slot k).state = .opened) (bare : s.tilesOf k = []) :
    exec (.readoutLimitExpiry k) s = .next (State.outboundGrant (State.settle
      ((s.raise .exposureDone ((s.slot k).doneContent k .overrun)).setSlot k .empty))) := by
  have expired : s.limitExpiry k = s.overrun k := by
    unfold State.limitExpiry
    dsimp only
    rw [if_neg (not_not.2 running), if_pos opened]
  have ended : s.overrun k = (s.endSlot k .overrun).settle := by
    unfold State.overrun
    rw [bare]
    rfl
  show Host.Outcome.next (s.limitExpiry k).pump = _
  rw [State.pump_idle _ ((Cascade.limitExpiry s k).requests.trans idle), expired, ended]
  rfl

/-- R49. A committed slot that keeps a tile is PLACING once its late segments are resolved. -/
theorem exec_readoutLimitExpiry_placing (idle : s.host.requests = []) (running : (s.slot k).timer = .running)
    (reading : (s.slot k).state = .reading) (held : s.tilesOf k ≠ []) (mode : (s.slot k).photo.mode ≠ .settled) :
    ∃ t, exec (.readoutLimitExpiry k) s = .next t ∧ (t.slot k).state = .placing ∧ (t.slot k).timer = .expired
      ∧ (∀ g, (t.slot k).entry g = if (s.slot k).planned g = true ∧ (s.slot k).entry g = .notStarted
          then .resolved .noReadout else (s.slot k).entry g)
      ∧ (t.slot k).placements = (s.slot k).placements ∧ t.tiles = s.tiles ∧ ∀ j, j ≠ k → t.slot j = s.slot j := by
  have committed : (s.slot k).isCommitted = true := ExpSlot.isCommitted_iff.2 (by rw [reading]; decide)
  have slot := s.timedOut_slot k
  obtain ⟨all, mem, after, still⟩ := (State.timedOut_writingOff committed held).loop_unfreezable (by rw [slot])
    (by rw [slot]; exact mode) (s.slot k).late ⟨rfl, rfl⟩ fun g late => by
      rw [slot]
      exact (ExpSlot.mem_late.1 late).2
  have step := exec_readoutLimitExpiry_committed idle running committed
  rw [State.writtenOff] at step
  generalize (s.slot k).late.foldl (fun s g => s.resolve State.take k g .noReadout) (s.timedOut k) = u at after still step
  obtain ⟨settled, timer, placements, entries⟩ := after.settled fun g => (mem g).trans (or_iff_left (by exact nofun))
  have same := TilesSame.settled_granted (u.settleSlot k)
  have final : (u.settleSlot k).slot k = { u.slot k with state := .placing } := by rw [settled, State.slot_setSlot, if_pos rfl]
  refine ⟨_, step, ?_, ?_, fun g => ?_, ?_, ?_, fun j other => ?_⟩
  · rw [same.slot, final]
  · rw [same.slot, final]
    exact timer
  · rw [same.slot, final]
    exact entries g
  · rw [same.slot, final]
    exact placements
  · rw [same.tiles, settled]
    exact still.tiles
  · rw [same.slot, settled, State.slot_setSlot, if_neg (Ne.symm other), after.others j other]
    exact (State.slot_modSlot ..).trans (if_neg (Ne.symm other))

end

/-! ## A slot without tiles finishes -/

section
variable {s u : State} {k : Fin 4} {done l : List (Fin 96)} {g : Fin 96}

/-- The segments of `done` have been resolved late, and those of `l` are left. -/
structure State.Spending (s u : State) (k : Fin 4) (done l : List (Fin 96)) : Prop where
  slot : { u.slot k with state := (s.slot k).state, entries := (s.slot k).entries, tallies := (s.slot k).tallies } = s.slot k
  committed : (u.slot k).isCommitted = true
  entry : ∀ g, (u.slot k).entry g = if g ∈ done then .resolved .noReadout else (s.slot k).entry g
  tally : (u.slot k).tallies[Reason.noReadout.num] = (s.slot k).tallies[Reason.noReadout.num] + done.length
  others : ∀ j, j ≠ k → u.slot j = s.slot j
  tiles : u.tiles = s.tiles
  host : u.host = s.host
  nodup : l.Nodup
  left : ∀ g ∈ l, g ∉ done ∧ (s.slot k).entry g = .notStarted ∧ (s.slot k).planned g = true
  rest : ∀ p ∈ (s.slot k).placements, p.segment ∉ done → p.segment ∉ l → ((s.slot k).entry p.segment).isResolved = true

theorem State.Spending.first (h : s.Spending u k done (g :: l)) : ((u.slot k).entry g).isResolved = false := by
  obtain ⟨fresh, late, -⟩ := h.left g List.mem_cons_self
  rw [h.entry, if_neg fresh, late]
  rfl

/-- The next late segment, without the settling. -/
theorem State.Spending.record (h : s.Spending u k done (g :: l)) : s.Spending (u.recordResolution k g .noReadout) k (g :: done) l := by
  obtain ⟨other, nodup⟩ := List.nodup_cons.1 h.nodup
  have side := State.recordResolution_side h.first .noReadout
  have slot : (u.recordResolution k g .noReadout).slot k = (u.slot k).resolve g .noReadout := by
    rw [side.slot, State.slot_setSlot, if_pos rfl]
  refine ⟨?_, ?_, fun j => ?_, ?_, fun j apart => ?_, ?_, ?_, nodup, fun j mem => ?_, fun p mem out left => ?_⟩
  · rw [slot]
    exact h.slot
  · rw [slot]
    exact h.committed
  · rw [slot]
    refine (ExpSlot.entry_setEntry (u.slot k) g j (.resolved .noReadout)).trans ?_
    by_cases same : g = j
    · subst same
      rw [if_pos rfl, if_pos List.mem_cons_self]
    · rw [if_neg same, h.entry]
      exact if_congr (by rw [List.mem_cons, or_iff_right (Ne.symm same)]) rfl rfl
  · rw [slot]
    show ((u.slot k).tallies.set Reason.noReadout.num.val _ Reason.noReadout.num.isLt)[Reason.noReadout.num] = _
    rw [Fin.getElem_fin, Vector.getElem_set_self, h.tally, List.length_cons, Nat.add_assoc]
  · rw [side.slot, State.slot_setSlot, if_neg (Ne.symm apart)]
    exact h.others j apart
  · exact side.tiles.trans h.tiles
  · exact (congrArg State.host side.rest :).trans h.host
  · obtain ⟨out, late, planned⟩ := h.left j (List.mem_cons_of_mem _ mem)
    refine ⟨fun inside => ?_, late, planned⟩
    rcases List.mem_cons.1 inside with same | before
    · exact other (same ▸ mem)
    · exact out before
  · rw [List.mem_cons, not_or] at out
    refine h.rest p mem out.2 fun inside => ?_
    rcases List.mem_cons.1 inside with same | later
    · exact out.1 same
    · exact left later

theorem State.Spending.setState (h : s.Spending u k done l) {state : SlotState} (committed : state ∈ [.committed, .reading, .placing]) :
    s.Spending (u.setSlot k { u.slot k with state := state }) k done l := by
  have slot : (u.setSlot k { u.slot k with state := state }).slot k = { u.slot k with state := state } :=
    (State.slot_setSlot ..).trans (if_pos rfl)
  refine { h with slot := ?_, committed := ?_, entry := fun g => ?_, tally := ?_, others := fun j apart => ?_ }
  · rw [slot]
    exact h.slot
  · rw [slot]
    exact ExpSlot.isCommitted_iff.2 committed
  · rw [slot]
    exact h.entry g
  · rw [slot]
    exact h.tally
  · rw [State.slot_setSlot, if_neg (Ne.symm apart)]
    exact h.others j apart

/-- The slot has finished, with record `x`. -/
structure State.Spent (s v : State) (k : Fin 4) (x : ExpSlot) : Prop where
  ended : v.slot k = .empty
  carry : v.carry = (s.slot k).photo.scale
  host : v.host = s.host.raise .exposureDone (x.doneContent k .finished)
  others : ∀ j, j ≠ k → v.slot j = s.slot j

variable (timer : (s.slot k).timer = .expired) (bare : s.tilesOf k = [])
include timer bare

/-- With no segment left, the slot finishes. -/
theorem State.Spending.finish (h : s.Spending u k done []) : s.Spent (u.settleSlot k) k (u.slot k) := by
  have expired : (u.slot k).timer = .expired := ((congrArg ExpSlot.timer h.slot :)).trans timer
  have placements : (u.slot k).placements = (s.slot k).placements := (congrArg ExpSlot.placements h.slot :)
  have scale : (u.slot k).photo = (s.slot k).photo := (congrArg ExpSlot.photo h.slot :)
  have resolved : ¬((u.slot k).allResolved = false ∨ u.tilesOf k ≠ []) := by
    rintro (open_ | held)
    · obtain ⟨p, mem, unresolved⟩ := ExpSlot.not_allResolved_iff.1 open_
      rw [placements] at mem
      have entry := h.entry p.segment
      split at entry
      · exact unresolved _ entry
      · next out =>
        obtain ⟨w, why⟩ := Entry.isResolved_iff.1 (h.rest p mem out (by exact nofun))
        exact unresolved w (entry.trans why)
    · refine held ?_
      simp only [State.tilesOf, State.tile, h.tiles]
      exact bare
  have settled := State.settleSlot_of_ended h.committed (by rw [expired]; exact nofun) (.inl (by rw [expired]; exact nofun))
  rw [if_neg resolved] at settled
  rw [settled]
  refine ⟨(State.slot_setSlot ..).trans (if_pos rfl), congrArg Photometry.scale scale, ?_, fun j apart => ?_⟩
  · show u.host.raise _ _ = _
    rw [h.host]
  · exact ((State.slot_setSlot ..).trans (if_neg (Ne.symm apart))).trans (h.others j apart)

omit bare in
/-- While segments are left, the slot is PLACING. -/
theorem State.Spending.settle (h : s.Spending u k done (g :: l)) : u.settleSlot k = u.setSlot k { u.slot k with state := .placing } := by
  have expired : (u.slot k).timer = .expired := ((congrArg ExpSlot.timer h.slot :)).trans timer
  have placements : (u.slot k).placements = (s.slot k).placements := (congrArg ExpSlot.placements h.slot :)
  obtain ⟨-, -, planned⟩ := h.left g List.mem_cons_self
  obtain ⟨p, mem, segment⟩ := ExpSlot.planned_iff.1 planned
  have open_ : (u.slot k).allResolved = false := by
    refine ExpSlot.not_allResolved_iff.2 ⟨p, by rw [placements]; exact mem, ?_⟩
    rw [segment]
    exact Entry.not_isResolved_iff.1 h.first
  have settled := State.settleSlot_of_ended h.committed (by rw [expired]; exact nofun) (.inl (by rw [expired]; exact nofun))
  rw [if_pos (.inl open_), expired, if_neg (by exact nofun)] at settled
  rw [settled, ← expired]

omit timer bare in
theorem State.settleSlot_of_empty (ended : u.slot k = .empty) : u.settleSlot k = u :=
  State.settleSlot_of_uncommitted (by rw [ended]; rfl)

/-- All late segments of a slot without tiles. -/
theorem State.Spending.loop (mode : (s.slot k).photo.mode ≠ .settled) (l : List (Fin 96)) : ∀ {u : State} {done : List (Fin 96)},
    s.Spending u k done l → ∃ (w : State) (all : List (Fin 96)), s.Spending w k all [] ∧ all.length = done.length + l.length
      ∧ (∀ g, g ∈ all ↔ g ∈ done ∨ g ∈ l)
      ∧ s.Spent (State.settleSlot (l.foldl (fun s g => s.resolve State.take k g .noReadout) u) k) k (w.slot k) := by
  induction l with
  | nil => exact fun {u done} h => ⟨u, done, h, rfl, fun g => by simp, h.finish timer bare⟩
  | cons g l ih =>
    intro u done h
    have next := h.record
    have unfreezable : ∀ {w : State} {done l : List (Fin 96)}, s.Spending w k done l → (w.slot k).freezable = false := fun h => by
      have photo := (congrArg ExpSlot.photo h.slot :)
      refine decide_eq_false fun can => mode ?_
      rw [← photo]
      exact can.2.1
    rw [List.foldl_cons, State.resolve_of_first _ h.first]
    cases l with
    | nil =>
      have spent := next.finish timer bare
      have ended : ((State.settleSlot (u.recordResolution k g .noReadout) k).slot k).isCommitted = false := by
        rw [spent.ended]
        rfl
      refine ⟨_, _, next, rfl, fun j => ?_, ?_⟩
      · rw [List.mem_cons, List.mem_singleton, or_comm]
      · rw [State.exhaustedTest_of_uncommitted _ ended, List.foldl_nil, State.settleSlot_of_empty spent.ended]
        exact spent
    | cons g' l =>
      have placed := next.setState (state := .placing) (by decide)
      rw [next.settle timer, State.exhaustedTest_of_not_freezable _ (unfreezable placed)]
      obtain ⟨w, all, spending, length, mem, spent⟩ := ih placed
      refine ⟨w, all, spending, ?_, fun j => ?_, spent⟩
      · simp only [length, List.length_cons]
        omega
      · rw [mem, List.mem_cons]
        simp only [List.mem_cons]
        tauto

end

end Sys2Proof.Machine
end

section
/-!
PROOF. Slots that are abandoned, overrun or written off.
-/

namespace Sys2Proof.Machine

/-! ## The readout limit of a slot without tiles -/

section
variable {s : State} {k : Fin 4}

theorem ExpSlot.late_nodup {x : ExpSlot} (sorted : x.placements.Pairwise fun p q => p.segment < q.segment) : x.late.Nodup := by
  rw [ExpSlot.late, List.Nodup, List.pairwise_filterMap]
  refine sorted.imp fun below g hg g' hg' => ?_
  split at hg <;> cases hg
  split at hg' <;> cases hg'
  exact ne_of_lt below

theorem ExpSlot.late_length (x : ExpSlot) : x.late.length = x.placements.countP fun p => decide (x.entry p.segment = .notStarted) := by
  rw [ExpSlot.late, List.length_filterMap_eq_countP]
  refine List.countP_congr fun p _ => ?_
  split
  · next late => simp [late]
  · next late => simp [late]

/-- The start of a writing off. -/
theorem State.timedOut_spending (committed : (s.slot k).isCommitted = true)
    (sorted : (s.slot k).placements.Pairwise fun p q => p.segment < q.segment)
    (read : ∀ p ∈ (s.slot k).placements, (s.slot k).entry p.segment ≠ .inStore) :
    (s.timedOut k).Spending (s.timedOut k) k [] (s.slot k).late := by
  have slot := s.timedOut_slot k
  refine ⟨rfl, by rw [slot]; exact committed, fun g => (if_neg nofun).symm, rfl, fun _ _ => rfl, rfl, rfl, ExpSlot.late_nodup sorted,
    fun g mem => ?_, fun p mem _ out => ?_⟩
  · obtain ⟨planned, late⟩ := ExpSlot.mem_late.1 mem
    rw [slot]
    exact ⟨nofun, late, planned⟩
  · rw [slot] at mem ⊢
    have started : (s.slot k).entry p.segment ≠ .notStarted := fun late =>
      out (ExpSlot.mem_late.2 ⟨ExpSlot.planned_iff.2 ⟨p, mem, rfl⟩, late⟩)
    have stored := read p mem
    show ((s.slot k).entry p.segment).isResolved = true
    cases entry : (s.slot k).entry p.segment with
    | notStarted => exact absurd entry started
    | inStore => exact absurd entry stored
    | resolved w => rfl

/-- R49, R50. The slot finishes with its late segments resolved. -/
theorem exec_readoutLimitExpiry_finishing (idle : s.host.requests = []) (running : (s.slot k).timer = .running)
    (reading : (s.slot k).state = .reading) (bare : s.tilesOf k = []) (mode : (s.slot k).photo.mode ≠ .settled)
    (sorted : (s.slot k).placements.Pairwise fun p q => p.segment < q.segment)
    (read : ∀ p ∈ (s.slot k).placements, (s.slot k).entry p.segment ≠ .inStore) :
    ∃ (x : ExpSlot) (u : State), exec (.readoutLimitExpiry k) s = .next u.outboundGrant ∧ u.slot k = .empty
      ∧ u.carry = (s.slot k).photo.scale ∧ u.host = s.host.raise .exposureDone (x.doneContent k .finished)
      ∧ { x with entries := (s.slot k).entries, tallies := (s.slot k).tallies } = s.slot k
      ∧ (∀ g, x.entry g = if (s.slot k).planned g = true ∧ (s.slot k).entry g = .notStarted
          then .resolved .noReadout else (s.slot k).entry g)
      ∧ x.tallies[Reason.noReadout.num] = (s.slot k).tallies[Reason.noReadout.num]
          + (s.slot k).placements.countP (fun p => decide ((s.slot k).entry p.segment = .notStarted))
      ∧ ∀ j, j ≠ k → u.slot j = s.slot j := by
  have committed : (s.slot k).isCommitted = true := ExpSlot.isCommitted_iff.2 (by rw [reading]; decide)
  have slot := s.timedOut_slot k
  obtain ⟨w, all, spending, length, mem, spent⟩ := State.Spending.loop (s := s.timedOut k) (k := k) (by rw [slot]) bare
    (by rw [slot]; exact mode) (s.slot k).late (State.timedOut_spending committed sorted read)
  have same : s.writtenOff k = State.settleSlot ((s.slot k).late.foldl (fun s g => s.resolve State.take k g .noReadout) (s.timedOut k)) k := rfl
  rw [← same] at spent
  have settled := Settled.settle (s.writtenOff k)
  refine ⟨{ w.slot k with state := (s.slot k).state, timer := (s.slot k).timer }, (s.writtenOff k).settle,
    exec_readoutLimitExpiry_committed idle running committed, (settled.tilesSame.slot k).trans spent.ended, ?_, ?_, ?_, fun g => ?_, ?_,
    fun j other => ?_⟩
  · refine ((congrArg State.carry settled.rest :)).trans (spent.carry.trans ?_)
    rw [slot]
  · exact settled.host.trans spent.host
  · have kept := spending.slot
    rw [slot] at kept
    exact (congrArg (fun y : ExpSlot => ({ y with timer := (s.slot k).timer } : ExpSlot)) kept :)
  · show (w.slot k).entry g = _
    rw [spending.entry g, slot]
    refine if_congr ?_ rfl rfl
    rw [mem, or_iff_right (by exact nofun)]
    exact ExpSlot.mem_late
  · show (w.slot k).tallies[Reason.noReadout.num] = _
    rw [spending.tally, length, slot, List.length_nil, Nat.zero_add, ExpSlot.late_length]
  · rw [settled.tilesSame.slot, spent.others j other]
    exact (State.slot_modSlot ..).trans (if_neg (Ne.symm other))

end

/-! ## A late segment reaches its cells -/

section
variable {s : State} {k : Fin 4}

/-- A settling leaves the part, changes the slot's record but its photometry, or ends the slot. -/
theorem State.settleSlot_shape (s : State) (k : Fin 4) : s.settleSlot k = s
    ∨ (∃ y : ExpSlot, s.settleSlot k = s.setSlot k y ∧ y.photo = (s.slot k).photo)
    ∨ s.settleSlot k = State.setSlot (State.raise { s with carry := (s.slot k).photo.scale } .exposureDone
        ((s.slot k).doneContent k .finished)) k .empty := by
  cases committed : (s.slot k).isCommitted with
  | false => exact .inl (State.settleSlot_of_uncommitted committed)
  | true =>
    by_cases idle : (s.slot k).timer = .notStarted
    · exact .inr (.inl ⟨_, State.settleSlot_of_notStarted committed idle, rfl⟩)
    · by_cases ended : (s.slot k).timer ≠ .running ∨ (s.slot k).awaits = false
      · rw [State.settleSlot_of_ended committed idle ended]
        split
        · exact .inr (.inl ⟨_, rfl, rfl⟩)
        · exact .inr (.inr rfl)
      · rw [not_or, not_not, Bool.not_eq_false] at ended
        exact .inr (.inl ⟨_, State.settleSlot_of_running committed ended.1 ended.2, rfl⟩)

theorem State.settleSlot_rest (s : State) (k : Fin 4) :
    { s.settleSlot k with slots := s.slots, carry := s.carry, host := s.host } = s := by
  rcases s.settleSlot_shape k with h | ⟨y, h, -⟩ | h
  · rw [h]
  · rw [h]
    rfl
  · rw [h]
    rfl

/-- A settling does not make a slot freezable whose photometry does not settle. -/
theorem State.settleSlot_unfreezable (mode : (s.slot k).photo.mode ≠ .settled) : ((s.settleSlot k).slot k).freezable = false := by
  rcases s.settleSlot_shape k with h | ⟨y, h, photo⟩ | h
  · rw [h]
    exact decide_eq_false fun can => mode can.2.1
  · rw [h, State.slot_setSlot, if_pos rfl]
    refine decide_eq_false fun can => mode ?_
    rw [← photo]
    exact can.2.1
  · rw [h, State.slot_setSlot, if_pos rfl]
    rfl

/-- A first resolution in a slot whose photometry does not settle changes the canvas as its record does. -/
theorem State.resolve_canvas {g : Fin 96} (first : ((s.slot k).entry g).isResolved = false) (why : Reason)
    (mode : (s.slot k).photo.mode ≠ .settled) :
    (s.resolve State.take k g why).canvas = (s.recordResolution k g why).canvas
    ∧ (s.resolve State.take k g why).drain = (s.recordResolution k g why).drain := by
  have slot : (s.recordResolution k g why).slot k = (s.slot k).resolve g why := by
    rw [(State.recordResolution_side first why).slot, State.slot_setSlot, if_pos rfl]
  have rest := (s.recordResolution k g why).settleSlot_rest k
  rw [State.resolve_of_first _ first, State.exhaustedTest_of_not_freezable _ (State.settleSlot_unfreezable (by rw [slot]; exact mode))]
  exact ⟨(congrArg State.canvas rest :), (congrArg State.drain rest :)⟩

/-- R49, R136. The cells of the one late segment are written off. -/
theorem exec_readoutLimitExpiry_cells {p : Placement} (idle : s.host.requests = []) (running : (s.slot k).timer = .running)
    (reading : (s.slot k).state = .reading) (one : (s.slot k).placements = [p]) (late : (s.slot k).entry p.segment = .notStarted)
    (mode : (s.slot k).photo.mode ≠ .settled) (gathering : s.canvas.state = .gathering) (nodup : p.cells.Nodup) :
    ∃ t, exec (.readoutLimitExpiry k) s = .next t
      ∧ ∀ i c, i ∈ p.cells → s.cell? i = some c → c.state = .pending → i ∉ s.drain.queue → t.cell? i = some (c.writeOff 1) := by
  have committed : (s.slot k).isCommitted = true := ExpSlot.isCommitted_iff.2 (by rw [reading]; decide)
  have slot := s.timedOut_slot k
  have list : (s.slot k).late = [p.segment] := by
    rw [ExpSlot.late, one, List.filterMap_cons, if_pos late, List.filterMap_nil]
  have first : (((s.timedOut k).slot k).entry p.segment).isResolved = false := by
    rw [slot]
    show ((s.slot k).entry p.segment).isResolved = false
    rw [late]
    rfl
  have cells : ((s.timedOut k).slot k).cellsOf p.segment = p.cells := by
    rw [slot]
    show (s.slot k).cellsOf p.segment = _
    exact ExpSlot.cellsOf_of_mem (by rw [one]; exact List.pairwise_singleton _ _) (by rw [one]; exact List.mem_singleton_self p)
  have record := State.recordResolution_committed (s := s.timedOut k) (k := k) first .noReadout (by rw [slot]; exact committed)
  rw [cells] at record
  obtain ⟨canvas, drain⟩ := State.resolve_canvas (s := s.timedOut k) (k := k) first .noReadout (by rw [slot]; exact mode)
  have gathers := State.recordResolution_gathers (s := s.timedOut k) (k := k) gathering p.segment .noReadout
  have rest := ((s.timedOut k).resolve State.take k p.segment .noReadout).settleSlot_rest k
  have written : s.writtenOff k = ((s.timedOut k).resolve State.take k p.segment .noReadout).settleSlot k := by
    rw [State.writtenOff, list]
    rfl
  refine ⟨_, exec_readoutLimitExpiry_committed idle running committed, fun i c named cell pending queue => ?_⟩
  have paid : ((s.timedOut k).recordResolution k p.segment .noReadout).cell? i = some (c.writeOff 1) := by
    rw [record]
    have step := State.payCells_cell (s := (s.timedOut k).setSlot k (((s.timedOut k).slot k).resolve p.segment .noReadout)) p.cells gathering
      cell pending nodup
    rw [if_pos named] at step
    exact step
  rw [State.cell?, show (State.outboundGrant (s.writtenOff k).settle).canvas = (s.writtenOff k).settle.canvas from
    (congrArg State.canvas (Outbound.outboundGrant _).rest :)]
  refine State.settle_cell (s := s.writtenOff k) (c := c.writeOff 1) ?_ ?_ pending
  · rw [written, (congrArg State.drain rest :), drain, gathers.drain]
    exact queue
  · rw [written, State.cell?, (congrArg State.canvas rest :), canvas]
    exact paid

end

/-! ## The slot of the tile being placed -/

section
variable {s : State} {k : Fin 4} {n : Fin 40} {ctx : PlaceCtx}

/-- The slots and the carry scale after an abandonment that ends no other slot. -/
structure State.LeftAlone (s : State) (k : Fin 4) : Prop where
  slot : ∀ j, (s.leftBy k).settle.slot j = if k = j then .empty else s.slot j
  carry : (s.leftBy k).settle.carry = s.carry

theorem State.LeftAlone.of_went {v : State} (went : { s.leftBy k with ports := s.ports } = v) (slots : v.slots = (s.abandonSlot k).slots)
    (carry : v.carry = (s.abandonSlot k).carry) : s.LeftAlone k :=
  ⟨State.left_slot went slots, State.left_carry went carry⟩

theorem State.leftAlone_of_tileless (bare : s.tilesOf k = []) : s.LeftAlone k := by
  have settled := Settled.settle (s.leftBy k)
  rw [State.leftBy_of_tileless bare] at settled
  constructor
  · rw [State.leftBy_of_tileless bare]
    exact fun j => (settled.tilesSame.slot j).trans (State.shed_slot j)
  · rw [State.leftBy_of_tileless bare]
    exact (congrArg State.carry settled.rest :).trans (SlotStep.shed s k).carry

variable (tiles : s.tilesOf k = [n]) (placing : (s.tile n).state = .placing) (place : s.place = some ctx) (on : ctx.tile = n)
  (quiet : s.measure (linkOf (s.tile n).segment) = []) (empty : (s.port (linkOf (s.tile n).segment)).buffer = [])
include tiles placing place on quiet empty

omit place on quiet empty in
theorem State.only_detached : (s.shed k).tile n = { s.tile n with owner := none } := by
  refine State.shed_detached ?_
  rw [(State.only_placing tiles placing).2]
  exact List.mem_singleton_self n

/-- A row in flight is let finish. -/
theorem State.left_flight (flying : ctx.phase = .inFlight) : s.LeftAlone k
    ∧ (s.leftBy k).settle.host = s.host.raise .exposureDone (((s.writtenUp k).slot k).doneContent k .abandoned)
    ∧ (s.leftBy k).settle.place = some { ctx with stop := true }
    ∧ (s.leftBy k).settle.tile n = { s.tile n with owner := none } ∧ ∀ m, m ≠ n → (s.leftBy k).settle.tile m = s.tile m := by
  obtain ⟨kept, placed⟩ := State.only_placing tiles placing
  have went := State.leftBy_of_placing tiles quiet empty
  have flight := State.abandonSlot_of_flight tiles placing place on flying
  have same := State.abandonSlot_flight (k := k) place flying (by rw [placed, on]; exact List.mem_singleton_self n)
  have host := State.shed_host kept
  have detached := State.only_detached tiles placing
  have kept' : ∀ m, m ≠ n → (s.shed k).tile m = s.tile m := fun _ => State.shed_tile_other tiles placing
  have alone : s.LeftAlone k := .of_went went (by rw [flight, same]) (by rw [flight, same])
  rw [flight] at went
  generalize s.shed k = w at went host detached kept'
  have tile := State.left_tile went
  have unit : (s.leftBy k).place = some { ctx with stop := true } := (congrArg State.place went :)
  refine ⟨alone, (State.left_host went).trans host, ?_, (tile n).trans detached, fun m other => (tile m).trans (kept' m other)⟩
  refine (State.grant_place_some _ ((State.drainTake_place _).trans unit)).trans ?_
  rw [if_neg (show ¬(ctx.phase = .claiming ∧ _) from fun h => by rw [flying] at h; exact nomatch h.1)]

/-- Any other placement is withdrawn, and the unit finds no tile to take. -/
theorem State.left_ground (ground : ctx.phase ≠ .inFlight) (queue : s.tiles.queue = []) : s.LeftAlone k
    ∧ (s.leftBy k).settle.host = (s.host.raise .exposureDone (((s.writtenUp k).slot k).doneContent k .abandoned)).raise .tileReport
      (Tile.report { s.tile n with owner := none } n .abandoned)
    ∧ (s.leftBy k).settle.place = none ∧ ((s.leftBy k).settle.tile n).state = .free
    ∧ (s.leftBy k).settle.holdsClaim .placement = false ∧ ∀ m, m ≠ n → (s.leftBy k).settle.tile m = s.tile m := by
  obtain ⟨kept, -⟩ := State.only_placing tiles placing
  have went := State.leftBy_of_placing tiles quiet empty
  have stop := State.abandonSlot_of_ground tiles placing place on ground
  obtain ⟨host, queued, others⟩ := (s.shed k).stopTile_spec n
  obtain ⟨unit, gone, claim⟩ := (s.shed k).stopTile_placement n
  rw [← stop] at host queued others unit gone claim
  have same : (s.abandonSlot k).takeFreed s.place = s.abandonSlot k := by
    rw [State.takeFreed]
    split
    · refine State.take_of_empty _ ?_
      rw [queued, State.shed_queue kept, queue]
      rfl
    · rfl
  rw [same] at went
  have tile := State.left_tile went
  refine ⟨.of_went went rfl rfl, ?_, ?_, ?_, ?_, fun m other => ?_⟩
  · rw [State.left_host went, host, State.shed_host kept, State.only_detached tiles placing]
  · exact State.grant_place_none _ ((State.drainTake_place _).trans ((congrArg State.place went :).trans unit))
  · rw [tile, gone]
    rfl
  · refine Bool.eq_false_iff.2 fun held => Bool.false_ne_true (claim.symm.trans ?_)
    have before := State.holdsClaim_of_settle (d := .placement) nofun nofun held
    rw [State.holdsClaim, show (s.leftBy k).store = (s.abandonSlot k).store from (congrArg State.store went :)] at before
    exact before
  · rw [tile, others m other]
    exact State.shed_tile_other tiles placing other

/-- Any other placement is withdrawn, and the unit takes the next tile of the queue. -/
theorem State.left_taken {m : Fin 40} {rest : List (Fin 40)} {j : Fin 4} {p : Placement} {r : Nat} (ground : ctx.phase ≠ .inFlight)
    (queue : s.tiles.queue = m :: rest) (owner : (s.tile m).owner = some j) (other : j ≠ k)
    (listed : (s.slot j).placementFor (s.tile m).segment = some p) (held : (s.tile m).nextHeld 0 = some r) : s.LeftAlone k
    ∧ ((s.leftBy k).settle.tile n).state = .free ∧ ((s.leftBy k).settle.tile m).state = .placing
    ∧ ∃ c, (s.leftBy k).settle.place = some c ∧ c.tile = m ∧ c.plan = p ∧ c.stop = false := by
  obtain ⟨kept, placed⟩ := State.only_placing tiles placing
  have went := State.leftBy_of_placing tiles quiet empty
  have stop := State.abandonSlot_of_ground tiles placing place on ground
  obtain ⟨-, queued, others⟩ := (s.shed k).stopTile_spec n
  obtain ⟨unit, gone, -⟩ := (s.shed k).stopTile_placement n
  rw [← stop] at queued others unit gone
  have own : (s.tile n).owner = some k := (State.mem_placingOf.1 (by rw [placed]; exact List.mem_singleton_self n)).1
  have apart : m ≠ n := fun same => other (by rw [same, own] at owner; exact (Option.some.inj owner).symm)
  have tile : (s.abandonSlot k).tile m = s.tile m := (others m apart).trans (State.shed_tile_other tiles placing apart)
  have line : (s.abandonSlot k).tiles.queue = m :: rest.filter (fun a => decide (a ≠ n)) := by
    rw [queued, State.shed_queue kept, queue]
    exact List.filter_cons_of_pos (decide_eq_true apart)
  have slot : (s.abandonSlot k).slot j = s.slot j := (State.abandonSlot_slot j).trans (if_neg (Ne.symm other))
  obtain ⟨slots, carry, taken, kept', c, unit', on', plan, stop'⟩ := State.takeFreed_of_started (before := s.place)
    (by rw [place]; exact nofun) unit line (by rw [tile]; exact owner) (by rw [tile, slot]; exact listed) (by rw [tile]; exact held)
  refine ⟨.of_went went slots carry, ?_, ?_, ?_⟩
  · rw [State.left_tile went, kept' n (Ne.symm apart), gone]
    rfl
  · rw [State.left_tile went]
    exact taken
  · obtain ⟨phase, final⟩ := State.settle_place (s := s.leftBy k) ((congrArg State.place went :).trans unit')
    exact ⟨_, final, on', plan, stop'⟩

end

/-! ## The slots that end -/

/-- Settles O25: the abandonment, the overrun, the writing off and the settling of a slot. -/
theorem abandonedAndOverrunSlotsEnd : Obligations.AbandonedAndOverrunSlotsEnd := by
  refine ⟨fun s tag exposure k hs found => ⟨exec_exposureAbandon_opened hs found, State.abandonment_ends hs found⟩,
    fun s tag exposure k hs found state => ?_, fun s k idle running => ⟨exec_readoutLimitExpiry_opened idle running,
      exec_readoutLimitExpiry_placing idle running, fun reading bare mode => exec_readoutLimitExpiry_finishing idle running reading bare mode,
      fun p reading one late mode gathering nodup => exec_readoutLimitExpiry_cells idle running reading one late mode gathering nodup⟩,
    State.settleSlot_cases⟩
  have committed : (s.slot k).isCommitted = true := ExpSlot.isCommitted_iff.2 state
  have step := exec_exposureAbandon (tag := tag) hs found
  intro open_ ends leads
  have led : s.goneOf k = [] → s.LeftAlone k → ∀ f : ExpSlot → State → Prop, f ((s.writtenUp k).slot k) (s.leftBy k).settle → leads f :=
    fun kept alone f holds => ⟨_, _, step, State.writtenUp_slot kept committed, (alone.slot k).trans (if_pos rfl), alone.carry,
      fun j other => (alone.slot j).trans (if_neg (Ne.symm other)), holds⟩
  refine ⟨fun bare => ?_, fun ctx n place on tiles placing quiet empty => ?_⟩
  · have kept := State.goneOf_of_bare bare
    have left := State.leftBy_of_tileless bare
    refine led kept (State.leftAlone_of_tileless bare) _ ⟨?_, ?_,
      fun sorted lists gathering i c cell pending queue resolved writtenOff =>
        State.leftBy_cell bare committed sorted lists gathering cell pending queue resolved writtenOff⟩
    · rw [(Settled.settle _).host, left]
      exact State.shed_host kept
    · rw [(Settled.settle _).tilesSame.tiles, left]
      exact State.shed_tiles_of_tileless bare
  · have kept := (State.only_placing tiles placing).1
    refine ⟨fun flying => ?_, fun ground queue => ?_, fun m rest j p r ground queue owner other listed held => ?_⟩
    · obtain ⟨alone, facts⟩ := State.left_flight tiles placing place on quiet empty flying
      exact led kept alone _ facts
    · obtain ⟨alone, facts⟩ := State.left_ground tiles placing place on quiet empty ground queue
      exact led kept alone _ facts
    · obtain ⟨alone, facts⟩ := State.left_taken tiles placing place on quiet empty ground queue owner other listed held
      exact led kept alone _ facts

end Sys2Proof.Machine
end

section
/-!
PROOF. What a commit, and each resolution after it, makes of the cells (R41, R46, R135, R136).
-/

namespace Sys2Proof.Machine

/-! ## Saturating counts -/

/-- A saturating 16-bit count after `n` more; a count that does not move keeps its value. -/
def count16 (a n : Nat) : Nat := if n = 0 then a else min 65535 (a + n)

theorem count16_of_le {a : Nat} (bound : a ≤ 65535) (n : Nat) : count16 a n = min 65535 (a + n) := by
  rw [count16]
  split
  · next zero => rw [zero, Nat.add_zero, Nat.min_eq_right bound]
  · rfl

theorem count16_add (a m n : Nat) : count16 (count16 a m) n = count16 a (m + n) := by
  unfold count16
  split_ifs <;> omega

/-- A cell with `m` more promises and `n` more resolutions, none by a placed tile. -/
def Cell.promised (c : Cell) (m n : Nat) : Cell :=
  { c with owed := c.owed + m, resolved := count16 c.resolved n, writtenOff := count16 c.writtenOff n }

theorem Cell.promised_zero (c : Cell) : c.promised 0 0 = c := rfl

theorem Cell.promised_add (c : Cell) (m n m' n' : Nat) : (c.promised m n).promised m' n' = c.promised (m + m') (n + n') := by
  simp [Cell.promised, count16_add, Nat.add_assoc]

theorem Cell.promised_late (c : Cell) : c.resolve false = c.promised 0 1 := by
  simp [Cell.resolve, Cell.promised, count16, satAdd_eq_min, Config.sat16]

/-! ## Promises -/

section
variable {s : State} {i : Nat} {c : Cell}

theorem State.promise_rest (owes : Bool) (s : State) (j : Nat) : { s.promise owes j with canvas := s.canvas } = s := by
  unfold State.promise
  split
  · rfl
  · split <;> rfl

theorem State.promise_other {j : Nat} (owes : Bool) (other : j ≠ i) : (s.promise owes j).cell? i = s.cell? i := by
  unfold State.promise
  split
  · rfl
  · split <;> exact (State.cell?_setCell ..).trans (if_neg other)

theorem State.promise_here (cell : s.cell? i = some c) (owes : Bool) :
    (s.promise owes i).cell? i = some (c.promised owes.toNat (!owes).toNat) := by
  unfold State.promise
  rw [cell]
  cases owes with
  | true => exact State.cell?_setCell_self cell _
  | false =>
    rw [Bool.toNat_false, Bool.not_false, Bool.toNat_true, ← Cell.promised_late]
    exact State.cell?_setCell_self cell _

theorem State.promises_cell (owes : Bool) (cells : List Nat) : ∀ {s : State} {c : Cell}, s.cell? i = some c → cells.Nodup →
    (cells.foldl (State.promise owes) s).cell? i = some (c.promised (decide (i ∈ cells) && owes).toNat (decide (i ∈ cells) && !owes).toNat) := by
  have away : ∀ (cells : List Nat) {s : State}, i ∉ cells → (cells.foldl (State.promise owes) s).cell? i = s.cell? i := by
    intro cells
    induction cells with
    | nil => exact fun _ => rfl
    | cons j cells ih =>
      intro s absent
      rw [List.mem_cons, not_or] at absent
      exact (ih absent.2).trans (State.promise_other owes (Ne.symm absent.1))
  induction cells with
  | nil => exact fun cell _ => cell
  | cons j cells ih =>
    intro s c cell nodup
    obtain ⟨fresh, nodup⟩ := List.nodup_cons.1 nodup
    by_cases here : j = i
    · subst here
      rw [decide_eq_true List.mem_cons_self, Bool.true_and, Bool.true_and]
      exact (away cells fresh).trans (State.promise_here cell owes)
    · have same : decide (i ∈ j :: cells) = decide (i ∈ cells) := decide_eq_decide.2 (by rw [List.mem_cons, or_iff_right (Ne.symm here)])
      rw [same]
      exact ih ((State.promise_other owes here).trans cell) nodup

/-- The commit's promises, placement after placement. -/
def State.promises (owes : Placement → Bool) (l : List Placement) (s : State) : State :=
  l.foldl (fun s p => p.cells.foldl (State.promise (owes p)) s) s

theorem State.promises_rest (owes : Placement → Bool) (l : List Placement) : ∀ s : State, { s.promises owes l with canvas := s.canvas } = s := by
  have one : ∀ (b : Bool) (cells : List Nat) (s : State), { cells.foldl (State.promise b) s with canvas := s.canvas } = s := by
    intro b cells
    induction cells with
    | nil => exact fun s => rfl
    | cons j cells ih =>
      intro s
      exact ((congrArg (fun x : State => ({ x with canvas := s.canvas } : State)) (ih (s.promise b j)) :)).trans (State.promise_rest b s j)
  induction l with
  | nil => exact fun s => rfl
  | cons p l ih =>
    intro s
    exact ((congrArg (fun x : State => ({ x with canvas := s.canvas } : State)) (ih (p.cells.foldl (State.promise (owes p)) s)) :)).trans
      (one (owes p) p.cells s)

theorem State.promises_cell_of (owes : Placement → Bool) (l : List Placement) : ∀ {s : State} {c : Cell}, s.cell? i = some c →
    (∀ p ∈ l, p.cells.Nodup) →
    (s.promises owes l).cell? i = some (c.promised (l.countP fun p => decide (i ∈ p.cells) && owes p)
      (l.countP fun p => decide (i ∈ p.cells) && !owes p)) := by
  induction l with
  | nil => exact fun cell _ => cell
  | cons p l ih =>
    intro s c cell lists
    have one := State.promises_cell (owes p) p.cells cell (lists p List.mem_cons_self)
    refine (ih one fun q mem => lists q (List.mem_cons_of_mem _ mem)).trans ?_
    rw [Cell.promised_add, List.countP_cons, List.countP_cons, Nat.add_comm, Nat.add_comm (Bool.toNat _)]
    cases decide (i ∈ p.cells) <;> cases owes p <;> rfl

end

/-! ## Touches -/

section
variable {s : State} {i : Nat} {c : Cell}

theorem State.queueZeroing_rest (s : State) (j : Nat) : { s.queueZeroing j with store := s.store } = s := by
  unfold State.queueZeroing
  split
  · rfl
  · dsimp only
    split <;> rfl

theorem State.queueZeroing_queue (s : State) (j : Nat) :
    (s.queueZeroing j).store.zeroQueue = if j ∈ s.store.zeroQueue then s.store.zeroQueue else s.store.zeroQueue ++ [j] := by
  unfold State.queueZeroing
  split
  · rfl
  · dsimp only
    split
    · exact State.claim_zeroQueue _ _
    · rfl

theorem State.touch_rest (s : State) (j : Nat) : { s.touch j with canvas := s.canvas, store := s.store } = s := by
  unfold State.touch
  split
  · rfl
  · split
    · exact (congrArg (fun x : State => ({ x with canvas := s.canvas, store := s.store } : State)) (State.queueZeroing_rest _ j) :)
    · rfl

theorem State.touch_queue {j : Nat} (mem : i ∈ s.store.zeroQueue) : i ∈ (s.touch j).store.zeroQueue := by
  unfold State.touch
  split
  · exact mem
  · split
    · rw [State.queueZeroing_queue]
      split
      · exact mem
      · exact List.mem_append_left _ mem
    · exact mem

theorem State.touch_other {j : Nat} (other : j ≠ i) : (s.touch j).cell? i = s.cell? i := by
  unfold State.touch
  split
  · rfl
  · split
    · rw [State.cell?, (congrArg State.canvas (State.queueZeroing_rest _ j) :)]
      exact (State.cell?_setCell ..).trans (if_neg other)
    · rfl

theorem State.touch_here (cell : s.cell? i = some c) (open_ : c.state = .untouched ∨ c.state = .pending) :
    (s.touch i).cell? i = some { c with state := .pending } ∧ (c.state = .untouched → i ∈ (s.touch i).store.zeroQueue) := by
  unfold State.touch
  rw [cell]
  dsimp only
  rcases open_ with fresh | pending
  · rw [if_pos fresh]
    refine ⟨?_, fun _ => ?_⟩
    · rw [State.cell?, (congrArg State.canvas (State.queueZeroing_rest _ i) :)]
      exact State.cell?_setCell_self cell _
    · rw [State.queueZeroing_queue]
      split
      · assumption
      · exact List.mem_append_right _ (List.mem_singleton_self i)
  · rw [if_neg (by rw [pending]; exact nofun)]
    refine ⟨cell.trans ?_, fun fresh => nomatch fresh.symm.trans pending⟩
    rw [← pending]

theorem State.touches_rest (l : List Nat) : ∀ s : State, { l.foldl State.touch s with canvas := s.canvas, store := s.store } = s := by
  induction l with
  | nil => exact fun s => rfl
  | cons j l ih =>
    intro s
    exact ((congrArg (fun x : State => ({ x with canvas := s.canvas, store := s.store } : State)) (ih (s.touch j)) :)).trans (s.touch_rest j)

theorem State.touches_queue (l : List Nat) : ∀ {s : State}, i ∈ s.store.zeroQueue → i ∈ (l.foldl State.touch s).store.zeroQueue := by
  induction l with
  | nil => exact id
  | cons j l ih => exact fun mem => ih (State.touch_queue mem)

/-- A cell named by the commit is PENDING, and queued for its zeroing where it was UNTOUCHED. -/
theorem State.touches_cell (l : List Nat) : ∀ {s : State} {c : Cell}, s.cell? i = some c → c.state = .untouched ∨ c.state = .pending →
    i ∈ l → (l.foldl State.touch s).cell? i = some { c with state := .pending }
      ∧ (c.state = .untouched → i ∈ (l.foldl State.touch s).store.zeroQueue) := by
  have still : ∀ (l : List Nat) {s : State} {c : Cell}, s.cell? i = some c → c.state = .pending →
      (l.foldl State.touch s).cell? i = some c := by
    intro l
    induction l with
    | nil => exact fun cell _ => cell
    | cons j l ih =>
      intro s c cell pending
      refine ih ?_ pending
      by_cases here : j = i
      · subst here
        rw [(State.touch_here cell (.inr pending)).1, ← pending]
      · rw [State.touch_other here]
        exact cell
  induction l with
  | nil => exact fun _ _ mem => nomatch mem
  | cons j l ih =>
    intro s c cell open_ mem
    by_cases here : j = i
    · subst here
      obtain ⟨touched, queued⟩ := State.touch_here cell open_
      exact ⟨still l touched rfl, fun fresh => State.touches_queue l (queued fresh)⟩
    · exact ih ((State.touch_other here).trans cell) open_ ((List.mem_cons.1 mem).resolve_left (Ne.symm here))

end

/-! ## The commit's part in the canvas (R41) -/

section
variable (s : State) (x : ExpSlot)

/-- The placement owes: its segment is not resolved. -/
def ExpSlot.owes (x : ExpSlot) (p : Placement) : Bool := !(x.entry p.segment).isResolved

theorem State.commitCells_eq : s.commitCells x =
    let u := (x.placements.flatMap Placement.cells).foldl State.touch (s.promises x.owes x.placements)
    { u with canvas := { u.canvas with commits := satAdd Config.sat16 u.canvas.commits 1 } } := rfl

theorem State.commitCells_rest : { s.commitCells x with canvas := s.canvas, store := s.store } = s := by
  rw [State.commitCells_eq]
  exact ((congrArg (fun y : State => ({ y with canvas := s.canvas, store := s.store } : State)) (State.touches_rest _ _) :)).trans
    (congrArg (fun y : State => ({ y with store := s.store } : State)) (State.promises_rest _ _ s) :)

variable {s x} {i : Nat} {c : Cell}

theorem State.commitCells_cell (cell : s.cell? i = some c) (open_ : c.state = .untouched ∨ c.state = .pending)
    (lists : ∀ p ∈ x.placements, p.cells.Nodup) (named : ∃ p ∈ x.placements, i ∈ p.cells) :
    (s.commitCells x).cell? i = some { c.promised (x.placements.countP fun p => decide (i ∈ p.cells) && x.owes p)
        (x.placements.countP fun p => decide (i ∈ p.cells) && !x.owes p) with state := .pending }
    ∧ (c.state = .untouched → i ∈ (s.commitCells x).store.zeroQueue) := by
  have promised := State.promises_cell_of x.owes x.placements cell lists
  rw [State.commitCells_eq]
  exact State.touches_cell (x.placements.flatMap Placement.cells) promised open_ (List.mem_flatMap.2 named)

/-! ## The count of commits -/

theorem State.promise_commits (owes : Bool) (s : State) (j : Nat) : (s.promise owes j).canvas.commits = s.canvas.commits := by
  unfold State.promise
  split
  · rfl
  · split <;> rfl

theorem State.promises_commits (owes : Placement → Bool) (l : List Placement) : ∀ s : State,
    (s.promises owes l).canvas.commits = s.canvas.commits := by
  have one : ∀ (b : Bool) (cells : List Nat) (s : State), (cells.foldl (State.promise b) s).canvas.commits = s.canvas.commits := by
    intro b cells
    induction cells with
    | nil => exact fun s => rfl
    | cons j cells ih => exact fun s => (ih (s.promise b j)).trans (s.promise_commits b j)
  induction l with
  | nil => exact fun s => rfl
  | cons p l ih => exact fun s => (ih (p.cells.foldl (State.promise (owes p)) s)).trans (one (owes p) p.cells s)

theorem State.touches_commits (l : List Nat) : ∀ s : State, (l.foldl State.touch s).canvas.commits = s.canvas.commits := by
  have one : ∀ (s : State) (j : Nat), (s.touch j).canvas.commits = s.canvas.commits := by
    intro s j
    unfold State.touch
    split
    · rfl
    · split
      · rw [(congrArg State.canvas (State.queueZeroing_rest _ j) :)]
        rfl
      · rfl
  induction l with
  | nil => exact fun s => rfl
  | cons j l ih => exact fun s => (ih (s.touch j)).trans (one s j)

theorem State.commitCells_commits (s : State) (x : ExpSlot) : (s.commitCells x).canvas.commits = min 65535 (s.canvas.commits + 1) := by
  rw [State.commitCells_eq]
  show satAdd Config.sat16 (State.canvas _).commits 1 = _
  rw [State.touches_commits, State.promises_commits, satAdd_eq_min]
  rfl

theorem State.settle_commits (s : State) : s.settle.canvas.commits = s.canvas.commits := by
  rw [State.settle, (State.grant_canvas_drain _).1]
  unfold State.drainTake
  split
  · split
    · unfold State.drainCell
      dsimp only
      split <;> rfl
    · rfl
  · rfl

end

/-! ## A payment (R135 to R137) -/

section
variable {s : State} {i : Nat} {c : Cell}

theorem Cell.resolve_eq (c : Cell) (placed : Bool) : c.resolve placed = { c with
    resolved := min 65535 (c.resolved + 1)
    placed := if placed = true then min 65535 (c.placed + 1) else c.placed
    writtenOff := if placed = true then c.writtenOff else min 65535 (c.writtenOff + 1) } := by
  simp only [Cell.resolve, satAdd_eq_min, Config.sat16]

theorem State.payCell_of_closed (cell : s.cell? i = some c) (shut : c.state ≠ .pending) (placed : Bool) :
    State.payCell placed s i = s.setCell i (c.resolve placed) := by
  rw [State.payCell, cell]
  exact if_neg shut

theorem State.payCell_of_owing (cell : s.cell? i = some c) (pending : c.state = .pending) (placed : Bool)
    (more : 1 < c.owed ∨ s.canvas.state ≠ .closed) :
    State.payCell placed s i = s.setCell i { c.resolve placed with owed := c.owed - 1 } := by
  rw [State.payCell, cell]
  refine (if_pos pending).trans (if_neg ?_)
  rintro ⟨spent, closed⟩
  rcases more with owed | open_
  · have : c.owed - 1 = 0 := spent
    omega
  · exact open_ closed

theorem State.payCell_of_last (cell : s.cell? i = some c) (pending : c.state = .pending) (placed : Bool) (last : c.owed ≤ 1)
    (closed : s.canvas.state = .closed) :
    let u := State.payCell placed s i
    u.cell? i = some { c.resolve placed with state := .complete, owed := 0 } ∧ (∀ j, j ≠ i → u.cell? j = s.cell? j)
    ∧ u.drain = { s.drain with queue := s.drain.queue ++ [i] }
    ∧ { u with canvas := s.canvas, drain := s.drain, place := s.place, store := s.store } = s := by
  have owed : c.owed - 1 = 0 := by omega
  have step : State.payCell placed s i = s.completeCell i { c.resolve placed with owed := c.owed - 1 } := by
    rw [State.payCell, cell]
    exact (if_pos pending).trans (if_pos ⟨owed, closed⟩)
  intro u
  have rest := State.leaveWait_rest
    { s.setCell i { c.resolve placed with state := .complete, owed := 0 } with drain := { s.drain with queue := s.drain.queue ++ [i] } } i
  have same : u = State.leaveWait
    { s.setCell i { c.resolve placed with state := .complete, owed := 0 } with drain := { s.drain with queue := s.drain.queue ++ [i] } } i := by
    refine step.trans ?_
    rw [owed]
    rfl
  have canvas : u.canvas = (s.setCell i { c.resolve placed with state := .complete, owed := 0 }).canvas := by
    rw [same]
    exact (congrArg State.canvas rest :)
  have cells : ∀ j, u.cell? j = (s.setCell i { c.resolve placed with state := .complete, owed := 0 }).cell? j := fun j => by
    rw [State.cell?, canvas, State.cell?]
  refine ⟨(cells i).trans (State.cell?_setCell_self cell _), fun j other => (cells j).trans ?_, ?_, ?_⟩
  · exact (State.cell?_setCell ..).trans (if_neg (Ne.symm other))
  · rw [same]
    exact (congrArg State.drain rest :)
  · rw [same]
    exact (congrArg (fun x : State => ({ x with canvas := s.canvas, drain := s.drain, place := s.place, store := s.store } : State)) rest :)

end

end Sys2Proof.Machine
end

section
/-!
PROOF. What a commit makes of the tiles of its slot (R42).
-/

namespace Sys2Proof.Machine

/-! ## The tiles that move on -/

/-- Tiles held for the scale one after another take consecutive numbers. -/
theorem State.holdTiles_moves (l : List (Fin 40)) : ∀ s : State, l.Nodup → s.tiles.holdCounter < 65536 →
    (∀ n, (l.foldl State.holdTile s).tile n = if n ∈ l then
      { s.tile n with state := .heldScale, holdOrder := some ((s.tiles.holdCounter + l.idxOf n) % 65536) } else s.tile n)
    ∧ (l.foldl State.holdTile s).tiles.holdCounter = (s.tiles.holdCounter + l.length) % 65536
    ∧ (l.foldl State.holdTile s).tiles.holding = s.tiles.holding ++ l ∧ (l.foldl State.holdTile s).tiles.queue = s.tiles.queue
    ∧ { l.foldl State.holdTile s with tiles := s.tiles } = s := by
  induction l with
  | nil =>
    intro s _ small
    exact ⟨fun n => (if_neg nofun).symm, (Nat.mod_eq_of_lt small).symm, (List.append_nil _).symm, rfl, rfl⟩
  | cons t l ih =>
    intro s nodup small
    obtain ⟨fresh, nodup⟩ := List.nodup_cons.1 nodup
    obtain ⟨tile, counter, holding, queue, rest⟩ := s.holdTile_moves t
    have counter' : (s.holdTile t).tiles.holdCounter = (s.tiles.holdCounter + 1) % 65536 := counter
    obtain ⟨tiles, counters, holdings, queues, rests⟩ := ih (s.holdTile t) nodup (by rw [counter']; exact Nat.mod_lt _ (by decide))
    refine ⟨fun n => (tiles n).trans ?_, ?_, ?_, queues.trans queue, ?_⟩
    · rw [tile, counter']
      by_cases here : n = t
      · subst here
        rw [if_neg fresh, if_pos rfl, if_pos List.mem_cons_self, List.idxOf_cons_self, Nat.add_zero, Nat.mod_eq_of_lt small]
      · rw [if_neg here]
        by_cases mem : n ∈ l
        · rw [if_pos mem, if_pos (List.mem_cons_of_mem _ mem), List.idxOf_cons_ne _ (Ne.symm here), Nat.mod_add_mod, Nat.add_assoc,
            Nat.add_comm 1]
        · rw [if_neg mem, if_neg fun h => (List.mem_cons.1 h).elim here mem]
    · rw [List.foldl_cons, counters, counter', Nat.mod_add_mod, List.length_cons, Nat.add_assoc, Nat.add_comm 1]
    · rw [List.foldl_cons, holdings, holding, List.append_assoc, List.singleton_append]
    · exact ((congrArg (fun x : State => ({ x with tiles := s.tiles } : State)) rests :)).trans rest

section
variable {s : State} {x : ExpSlot} {moving : List (Fin 40)}

theorem State.commitMoves_of_settled (settles : x.photo.mode = .settled ∧ x.photo.frozen = false) :
    s.commitMoves x moving = moving.foldl State.holdTile s := by
  have step : (fun (s : State) t => if x.photo.mode = .settled ∧ x.photo.frozen = false then s.holdTile t else s.queueTile t)
      = State.holdTile := by
    funext s t
    exact if_pos settles
  rw [State.commitMoves, step]

theorem State.commitMoves_of_unsettled (moves : ¬(x.photo.mode = .settled ∧ x.photo.frozen = false)) :
    s.commitMoves x moving = moving.foldl State.queueTile s := by
  have step : (fun (s : State) t => if x.photo.mode = .settled ∧ x.photo.frozen = false then s.holdTile t else s.queueTile t)
      = State.queueTile := by
    funext s t
    exact if_neg moves
  rw [State.commitMoves, step]

theorem State.commitMoves_rest : { s.commitMoves x moving with tiles := s.tiles } = s := by
  have holds : ∀ (l : List (Fin 40)) (s : State), { l.foldl State.holdTile s with tiles := s.tiles } = s := by
    intro l
    induction l with
    | nil => exact fun s => rfl
    | cons n l ih => exact fun s => (congrArg (fun y : State => ({ y with tiles := s.tiles } : State)) (ih (s.holdTile n)) :)
  by_cases settles : x.photo.mode = .settled ∧ x.photo.frozen = false
  · rw [State.commitMoves_of_settled settles]
    exact holds moving s
  · rw [State.commitMoves_of_unsettled settles]
    exact (State.queueTiles_moves moving s).2.2.2.2

end

/-! ## The tiles that are dropped -/

section
variable {b : State} {k : Fin 4} {n : Fin 40}

/-- What the drop of the tiles `l` of the OPEN slot `k`, with records `y`, makes of the part `b`. -/
structure State.Dropping (b : State) (k : Fin 4) (y : Fin 40 → Tile) (l : List (Fin 40)) (c : State) : Prop where
  tile : ∀ m, c.tile m = if m ∈ l then .empty else b.tile m
  queue : c.tiles.queue = b.tiles.queue.filter fun m => decide (m ∉ l)
  holding : c.tiles.holding = b.tiles.holding.filter fun m => decide (m ∉ l)
  counter : c.tiles.holdCounter = b.tiles.holdCounter
  host : c.host = l.foldl (fun h m => h.raise .tileReport ((y m).report m .unlisted)) b.host
  slot : { c.slot k with entries := (b.slot k).entries, tallies := (b.slot k).tallies, totals := (b.slot k).totals } = b.slot k
  entry : ∀ g, (c.slot k).entry g = if (∃ m ∈ l, (y m).segment = g) ∧ ((b.slot k).entry g).isResolved = false then .resolved .unlisted
    else (b.slot k).entry g
  totals : (c.slot k).totals = l.foldl (fun a m => a.add (y m)) (b.slot k).totals
  others : ∀ j, j ≠ k → c.slot j = b.slot j
  quiet : ∀ i, b.measure i = [] → c.measure i = []
  zeroQueue : c.store.zeroQueue = b.store.zeroQueue
  rest : { c with slots := b.slots, tiles := b.tiles, host := b.host, store := b.store, measuring := b.measuring } = b

theorem State.Dropping.nil (b : State) (k : Fin 4) (y : Fin 40 → Tile) : b.Dropping k y [] b :=
  ⟨fun _ => (if_neg nofun).symm, by simp, by simp, rfl, rfl, rfl, fun g => (if_neg fun h => by simpa using h.1).symm, rfl, fun _ _ => rfl,
    fun _ => id, rfl, rfl⟩

/-- One tile dropped. -/
theorem State.Dropping.one (owner : (b.tile n).owner = some k) (opened : (b.slot k).state = .opened) (y : Fin 40 → Tile)
    (same : b.tile n = y n) : b.Dropping k y [n] (State.discardUnlisted k b n) := by
  have tile := b.discardTile_tile n .unlisted
  have tiles := b.discardTile_tiles n .unlisted
  have host := b.discardTile_host n .unlisted
  have rest := b.discardTile_rest n .unlisted
  have quiet := fun i (h : b.measure i = []) => State.discardTile_quiet h n .unlisted
  have zeroQueue := b.discardTile_zeroQueue n .unlisted
  have slots := fun j => State.discardTile_slot b n .unlisted j
  have unfolded : State.discardUnlisted k b n = (b.discardTile n .unlisted).recordResolution k (b.tile n).segment .unlisted := rfl
  rw [unfolded]
  generalize b.discardTile n .unlisted = u at tile tiles host rest quiet zeroQueue slots
  have slot : u.slot k = { b.slot k with totals := (b.slot k).totals.add (b.tile n) } := (slots k).trans (if_pos owner)
  have others : ∀ j, j ≠ k → u.slot j = b.slot j := fun j other =>
    (slots j).trans (if_neg fun h => other (Option.some.inj (h.symm.trans owner)))
  have uncommitted : (u.slot k).isCommitted = false := by
    rw [slot]
    exact ExpSlot.not_isCommitted_of_opened (x := { b.slot k with totals := (b.slot k).totals.add (b.tile n) }) opened
  obtain ⟨z, step, keeps, entry⟩ : ∃ z : ExpSlot, u.recordResolution k (b.tile n).segment .unlisted = u.setSlot k z
      ∧ { z with entries := (b.slot k).entries, tallies := (b.slot k).tallies } = u.slot k
      ∧ ∀ g, z.entry g = if (b.tile n).segment = g ∧ ((b.slot k).entry g).isResolved = false then .resolved .unlisted
        else (b.slot k).entry g := by
    cases first : ((u.slot k).entry (b.tile n).segment).isResolved with
    | true =>
      refine ⟨u.slot k, ?_, ?_, fun g => ?_⟩
      · rw [State.recordResolution_of_resolved first]
        simp only [State.setSlot, State.slot, Fin.getElem_fin, Vector.set_getElem_self]
      · rw [slot]
      · rw [slot] at first ⊢
        refine (if_neg fun h => ?_).symm
        rw [h.1] at first
        exact Bool.false_ne_true (h.2.symm.trans first)
    | false =>
      refine ⟨(u.slot k).resolve (b.tile n).segment .unlisted, State.recordResolution_of_unlisted first .unlisted (.inl uncommitted), ?_,
        fun g => ?_⟩
      · rw [slot]
        rfl
      · refine (ExpSlot.entry_setEntry (u.slot k) (b.tile n).segment g (.resolved .unlisted)).trans ?_
        rw [slot] at first ⊢
        by_cases here : (b.tile n).segment = g
        · rw [if_pos here, if_pos ⟨here, by rw [← here]; exact first⟩]
        · rw [if_neg here, if_neg fun h => here h.1]
          rfl
  rw [step]
  have final : (u.setSlot k z).slot k = z := (State.slot_setSlot ..).trans (if_pos rfl)
  refine ⟨fun m => ?_, ?_, ?_, ?_, ?_, ?_, fun g => ?_, ?_, fun j other => ?_, quiet, zeroQueue, ?_⟩
  · refine (tile m).trans (if_congr ?_ rfl rfl)
    rw [List.mem_singleton]
    exact eq_comm
  · simp only [List.mem_singleton]
    exact (congrArg TileStore.queue tiles :)
  · simp only [List.mem_singleton]
    exact (congrArg TileStore.holding tiles :)
  · exact (congrArg TileStore.holdCounter tiles :)
  · rw [List.foldl_cons, List.foldl_nil, ← same]
    exact host
  · rw [final]
    exact ((congrArg (fun w : ExpSlot => ({ w with totals := (b.slot k).totals } : ExpSlot)) keeps :)).trans (by rw [slot])
  · rw [final, entry]
    refine if_congr (and_congr_left fun _ => ?_) rfl rfl
    rw [same]
    simp
  · rw [final, List.foldl_cons, List.foldl_nil, ← same]
    exact ((congrArg ExpSlot.totals keeps :)).trans (congrArg ExpSlot.totals slot)
  · rw [State.slot_setSlot, if_neg (Ne.symm other)]
    exact others j other
  · exact (congrArg (fun w : State => ({ w with slots := b.slots } : State)) rest :)

/-- A resolution after another for the same reason. -/
theorem Entry.resolve_twice {e : Entry} {why : Reason} {p q : Prop} [Decidable p] [Decidable q] :
    (if q ∧ (if p ∧ e.isResolved = false then Entry.resolved why else e).isResolved = false then .resolved why
      else if p ∧ e.isResolved = false then .resolved why else e) = if (p ∨ q) ∧ e.isResolved = false then .resolved why else e := by
  by_cases first : p ∧ e.isResolved = false
  · have done : ¬((Entry.resolved why).isResolved = false) := nofun
    rw [if_pos first, if_neg fun h => done h.2, if_pos ⟨.inl first.1, first.2⟩]
  · rw [if_neg first]
    refine if_congr (and_congr_left fun open_ => ?_) rfl rfl
    rw [or_iff_right fun h => first ⟨h, open_⟩]

theorem State.Dropping.trans {y : Fin 40 → Tile} {l l' : List (Fin 40)} {c d : State} (h : b.Dropping k y l c) (h' : c.Dropping k y l' d) :
    b.Dropping k y (l ++ l') d where
  tile m := by
    rw [h'.tile, h.tile]
    by_cases late : m ∈ l'
    · rw [if_pos late, if_pos (List.mem_append_right _ late)]
    · rw [if_neg late]
      exact if_congr (by rw [List.mem_append, or_iff_left late]) rfl rfl
  queue := by
    rw [h'.queue, h.queue, List.filter_filter]
    refine List.filter_congr fun m _ => ?_
    simp only [List.mem_append, not_or, Bool.decide_and, Bool.and_comm]
  holding := by
    rw [h'.holding, h.holding, List.filter_filter]
    refine List.filter_congr fun m _ => ?_
    simp only [List.mem_append, not_or, Bool.decide_and, Bool.and_comm]
  counter := h'.counter.trans h.counter
  host := by rw [h'.host, h.host, List.foldl_append]
  slot := ((congrArg (fun w : ExpSlot => ({ w with
      entries := (b.slot k).entries, tallies := (b.slot k).tallies, totals := (b.slot k).totals } : ExpSlot)) h'.slot :)).trans h.slot
  entry g := by
    rw [h'.entry, h.entry, Entry.resolve_twice]
    refine if_congr (and_congr_left fun _ => ?_) rfl rfl
    simp only [List.mem_append, or_and_right, exists_or]
  totals := by rw [h'.totals, h.totals, List.foldl_append]
  others j other := (h'.others j other).trans (h.others j other)
  quiet i quiet := h'.quiet i (h.quiet i quiet)
  zeroQueue := h'.zeroQueue.trans h.zeroQueue
  rest := ((congrArg (fun w : State => ({ w with
      slots := b.slots, tiles := b.tiles, host := b.host, store := b.store, measuring := b.measuring } : State)) h'.rest :)).trans h.rest

theorem State.Dropping.all (y : Fin 40 → Tile) (l : List (Fin 40)) : ∀ b : State, l.Nodup → (∀ n ∈ l, (b.tile n).owner = some k ∧ b.tile n = y n) →
    (b.slot k).state = .opened → b.Dropping k y l (l.foldl (State.discardUnlisted k) b) := by
  induction l with
  | nil => exact fun b _ _ _ => .nil b k y
  | cons n l ih =>
    intro b nodup own opened
    obtain ⟨fresh, nodup⟩ := List.nodup_cons.1 nodup
    obtain ⟨owner, same⟩ := own n List.mem_cons_self
    have first := State.Dropping.one owner opened y same
    have state : ((State.discardUnlisted k b n).slot k).state = (b.slot k).state := (congrArg ExpSlot.state first.slot :)
    refine first.trans (ih _ nodup (fun m mem => ?_) (state.trans opened))
    rw [first.tile, if_neg (show m ∉ [n] from fun h => fresh (by rw [← List.mem_singleton.1 h]; exact mem))]
    exact own m (List.mem_cons_of_mem _ mem)

end

end Sys2Proof.Machine
end

section
/-!
PROOF. The commit of a slot (R40 to R42).
-/

namespace Sys2Proof.Machine

/-! ## The checks (R40) -/

section
variable {s : State} {x : ExpSlot}

theorem State.commitRefusal_of_empty (empty : x.placements = []) : s.commitRefusal x = some .emptyPlan := if_pos empty

theorem State.enabled_iff : x.placements.all (fun p => s.segmentEnabled p.segment) = false ↔
    ¬∀ p ∈ x.placements, (s.port (linkOf p.segment)).cfg.slots.getLsbD (p.segment.val % 8) = true := by
  rw [← Bool.not_eq_true, List.all_eq_true]
  exact Iff.rfl

theorem State.cellClosed_iff : (x.placements.flatMap Placement.cells).any s.cellClosed = true ↔
    ¬∀ p ∈ x.placements, ∀ i ∈ p.cells, ∀ c, s.cell? i = some c → c.state = .untouched ∨ c.state = .pending := by
  have one : ∀ i, s.cellClosed i = true ↔ ∃ c, s.cell? i = some c ∧ ¬(c.state = .untouched ∨ c.state = .pending) := fun i => by
    rw [State.cellClosed]
    cases s.cell? i <;> simp
  rw [List.any_eq_true]
  simp only [List.mem_flatMap, one]
  push Not
  constructor
  · rintro ⟨i, ⟨p, mem, named⟩, c, cell, shut⟩
    exact ⟨p, mem, i, named, c, cell, shut⟩
  · rintro ⟨p, mem, i, named, c, cell, shut⟩
    exact ⟨i, ⟨p, mem, named⟩, c, cell, shut⟩

theorem ExpSlot.owing_countP (x : ExpSlot) (i : Nat) : x.owing.countP (fun p => decide (i ∈ p.cells)) =
    x.placements.countP fun q => decide (i ∈ q.cells) && !(x.entry q.segment).isResolved := by
  rw [ExpSlot.owing, List.countP_filter]

theorem State.overOwed_iff : (x.placements.flatMap Placement.cells).any (s.overOwed x) = true ↔
    ¬∀ p ∈ x.placements, ∀ i ∈ p.cells, ∀ c, s.cell? i = some c →
      c.owed + x.placements.countP (fun q => decide (i ∈ q.cells) && !(x.entry q.segment).isResolved) ≤ 255 := by
  have one : ∀ i, s.overOwed x i = true ↔ ∃ c, s.cell? i = some c
      ∧ ¬c.owed + x.placements.countP (fun q => decide (i ∈ q.cells) && !(x.entry q.segment).isResolved) ≤ 255 := fun i => by
    rw [State.overOwed, ← ExpSlot.owing_countP]
    cases s.cell? i <;> simp
  rw [List.any_eq_true]
  simp only [List.mem_flatMap, one]
  push Not
  constructor
  · rintro ⟨i, ⟨p, mem, named⟩, c, cell, excess⟩
    exact ⟨p, mem, i, named, c, cell, excess⟩
  · rintro ⟨p, mem, i, named, c, cell, excess⟩
    exact ⟨i, ⟨p, mem, named⟩, c, cell, excess⟩

/-- The four checks, in order. -/
theorem State.commitRefusal_cases (s : State) (x : ExpSlot) :
    let enabled := ∀ p ∈ x.placements, (s.port (linkOf p.segment)).cfg.slots.getLsbD (p.segment.val % 8) = true
    let open_ := ∀ p ∈ x.placements, ∀ i ∈ p.cells, ∀ c, s.cell? i = some c → c.state = .untouched ∨ c.state = .pending
    let fits := ∀ p ∈ x.placements, ∀ i ∈ p.cells, ∀ c, s.cell? i = some c →
      c.owed + x.placements.countP (fun q => decide (i ∈ q.cells) && !(x.entry q.segment).isResolved) ≤ 255
    (x.placements = [] → s.commitRefusal x = some .emptyPlan)
    ∧ (x.placements ≠ [] → ¬enabled → s.commitRefusal x = some .segmentOff)
    ∧ (x.placements ≠ [] → enabled → ¬open_ → s.commitRefusal x = some .cellClosed)
    ∧ (x.placements ≠ [] → enabled → open_ → ¬fits → s.commitRefusal x = some .owedLimit)
    ∧ (x.placements ≠ [] → enabled → open_ → fits → s.commitRefusal x = none) := by
  intro enabled open_ fits
  have off : ¬enabled → _ := State.enabled_iff.2
  have on : enabled → ¬_ := fun h off => State.enabled_iff.1 off h
  have shut : ¬open_ → _ := State.cellClosed_iff.2
  have free : open_ → ¬_ := fun h closed => State.cellClosed_iff.1 closed h
  have excess : ¬fits → _ := State.overOwed_iff.2
  have within : fits → ¬_ := fun h excess => State.overOwed_iff.1 excess h
  unfold State.commitRefusal
  dsimp only
  refine ⟨fun h => if_pos h, fun h h1 => ?_, fun h h1 h2 => ?_, fun h h1 h2 h3 => ?_, fun h h1 h2 h3 => ?_⟩
  · rw [if_neg h, if_pos (off h1)]
  · rw [if_neg h, if_neg (on h1), if_pos (shut h2)]
  · rw [if_neg h, if_neg (on h1), if_neg (free h2), if_pos (excess h3)]
  · rw [if_neg h, if_neg (on h1), if_neg (free h2), if_neg (within h3)]

end

/-! ## The parts of a commit -/

section
variable (s : State) (k : Fin 4)

/-- The HELD(PLAN) tiles of listed segments. -/
def State.movingOf : List (Fin 40) :=
  (s.tilesOf k).filter fun n => decide ((s.tile n).state = .heldPlan) && (s.slot k).planned (s.tile n).segment

/-- The tiles of unlisted segments. -/
def State.droppedOf : List (Fin 40) := (s.tilesOf k).filter fun n => !(s.slot k).planned (s.tile n).segment

/-- The part with its cells promised and the slot's tiles moved on or dropped. -/
def State.commitTiles : State :=
  (s.droppedOf k).foldl (State.discardUnlisted k) ((s.commitCells (s.slot k)).commitMoves (s.slot k) (s.movingOf k))

/-- The slot is committed and settled, its scale tested, and the placement unit takes. -/
def State.commitEnd : State :=
  (State.exhaustedTest State.take ((s.modSlot k fun y => { y with state := .committed }).settleSlot k) k).take

theorem State.commit_eq : s.commit k =
    State.done ((s.linksOf (s.droppedOf k)).foldl State.resumeLink ((s.commitTiles k).commitEnd k)).settle
      (code8 (((s.commitTiles k).commitEnd k).slot k).state.code ++ code8 (s.slot k).owing.length
        ++ code8 ((s.slot k).placements.length - (s.slot k).owing.length) ++ code8 (s.movingOf k).length
        ++ code8 (s.droppedOf k).length) := by
  have tiles : (s.commitCells (s.slot k)).tiles = s.tiles := (congrArg State.tiles (s.commitCells_rest _) :)
  have tile : ∀ n, (s.commitCells (s.slot k)).tile n = s.tile n := fun n => by rw [State.tile, State.tile, tiles]
  have own : (s.commitCells (s.slot k)).tilesOf k = s.tilesOf k := by simp only [State.tilesOf, tile]
  have moving : ((s.commitCells (s.slot k)).tilesOf k).filter (fun t => decide (((s.commitCells (s.slot k)).tile t).state = .heldPlan)
      && (s.slot k).planned ((s.commitCells (s.slot k)).tile t).segment) = s.movingOf k := by simp only [own, tile, State.movingOf]
  have dropped : ((s.commitCells (s.slot k)).tilesOf k).filter (fun t =>
      !(s.slot k).planned ((s.commitCells (s.slot k)).tile t).segment) = s.droppedOf k := by simp only [own, tile, State.droppedOf]
  have links : ∀ l, (s.commitCells (s.slot k)).linksOf l = s.linksOf l := fun l => by simp only [State.linksOf, tile]
  unfold State.commit
  dsimp only
  rw [moving, dropped, links]
  rfl

end

end Sys2Proof.Machine
end

section
/-!
PROOF. The commit of a slot with a segment still to come (R41, R42).
-/

namespace Sys2Proof.Machine

/-! ## The end of a commit -/

section
variable {s : State} {k : Fin 4}

theorem State.setSlot_setSlot (s : State) (k : Fin 4) (x y : ExpSlot) : (s.setSlot k x).setSlot k y = s.setSlot k y := by
  simp only [State.setSlot, Vector.set_set]

/-- The state a committed slot with a segment to come settles in. -/
def TimerState.commits (t : TimerState) : SlotState := if t = .notStarted then .committed else .reading

/-- With a segment that is not accounted for, and nothing for the placement unit to take, the slot is COMMITTED or READING. -/
theorem State.commitEnd_of_open {p : Placement} (timer : (s.slot k).timer ∈ [.notStarted, .running])
    (mem : p ∈ (s.slot k).placements) (late : (s.slot k).entry p.segment = .notStarted)
    (apart : ∀ n ∈ s.heldTiles k, (s.tile n).segment ≠ p.segment) (still : s.place ≠ none ∨ s.tiles.queue = []) :
    s.commitEnd k = s.setSlot k { s.slot k with state := (s.slot k).timer.commits } := by
  have slot : (s.modSlot k fun y => { y with state := .committed }).slot k = { s.slot k with state := .committed } :=
    (State.slot_modSlot ..).trans (if_pos rfl)
  have settled : (s.modSlot k fun y => { y with state := .committed }).settleSlot k
      = s.setSlot k { s.slot k with state := (s.slot k).timer.commits } := by
    rcases List.mem_pair.1 timer with idle | running
    · have step := State.settleSlot_of_notStarted (s := s.modSlot k fun y => { y with state := .committed }) (k := k)
        (by rw [slot]; rfl) (by rw [slot]; exact idle)
      rw [step, slot, TimerState.commits, if_pos idle]
      exact State.setSlot_setSlot s k _ _
    · have step := State.settleSlot_of_running (s := s.modSlot k fun y => { y with state := .committed }) (k := k)
        (by rw [slot]; rfl) (by rw [slot]; exact running) (by rw [slot]; exact ExpSlot.awaits_iff.2 ⟨p, mem, late⟩)
      rw [step, slot, TimerState.commits, if_neg (by rw [running]; exact nofun)]
      exact State.setSlot_setSlot s k _ _
  have final : (s.setSlot k { s.slot k with state := (s.slot k).timer.commits }).slot k
      = { s.slot k with state := (s.slot k).timer.commits } := (State.slot_setSlot ..).trans (if_pos rfl)
  rw [State.commitEnd, settled, State.exhaustedTest_of_unaccounted _ (p := p) (by rw [final]; exact mem)]
  · rcases still with busy | empty
    · exact State.take_of_busy _ busy
    · exact State.take_of_empty _ empty
  · refine Bool.eq_false_iff.2 fun counted => ?_
    rcases State.accounted_iff.1 counted with ⟨w, resolved⟩ | ⟨n, held, same⟩
    · rw [final] at resolved
      exact nomatch late.symm.trans resolved
    · exact apart n held same

/-- A link with nothing to measure and nothing to take in stays. -/
theorem State.resumeLink_of_bare {l : Fin 12} (quiet : s.measure l = []) (empty : (s.port l).buffer = []) : s.resumeLink l = s := by
  have same : s.setBuffer l [] = s := by
    have port : ({ s.port l with buffer := [] } : Port) = s.port l := by rw [← empty]
    show ({ s with ports := s.ports.set l.val { s.port l with buffer := [] } l.isLt } : State) = s
    rw [port, State.port, Fin.getElem_fin, Vector.set_getElem_self]
  rw [State.resumeLink_of_idle quiet]
  unfold State.intakeRun
  split
  · rw [empty, State.intakeItems_nil, same]
  · rfl

theorem State.resumes_of_bare (links : List (Fin 12)) (bare : ∀ l ∈ links, s.measure l = [] ∧ (s.port l).buffer = []) :
    links.foldl State.resumeLink s = s := by
  induction links with
  | nil => rfl
  | cons l links ih =>
    rw [List.foldl_cons, State.resumeLink_of_bare (bare l List.mem_cons_self).1 (bare l List.mem_cons_self).2]
    exact ih fun j mem => bare j (List.mem_cons_of_mem _ mem)

/-- A commit that passes its checks, and whose links find nothing to do. -/
theorem exec_exposureCommit {exposure : Nat} {tag : Byte} {d : State} (hs : s.Ready) (found : s.slotOf exposure = some k)
    (opened : (s.slot k).state = .opened) (passes : s.commitRefusal (s.slot k) = none) (ended : (s.commitTiles k).commitEnd k = d)
    (bare : ∀ l ∈ s.linksOf (s.droppedOf k), d.measure l = [] ∧ (d.port l).buffer = []) :
    exec (.exposureCommit tag exposure) s = .next (State.answered d.settle tag 0x0B
      (code8 (d.slot k).state.code ++ code8 (s.slot k).owing.length ++ code8 ((s.slot k).placements.length - (s.slot k).owing.length)
        ++ code8 (s.movingOf k).length ++ code8 (s.droppedOf k).length)) := by
  have owner : s.exposureCommit exposure = State.done d.settle (code8 (d.slot k).state.code ++ code8 (s.slot k).owing.length
      ++ code8 ((s.slot k).placements.length - (s.slot k).owing.length) ++ code8 (s.movingOf k).length
      ++ code8 (s.droppedOf k).length) := by
    have commit := s.commit_eq k
    rw [ended, State.resumes_of_bare _ bare] at commit
    rw [← commit]
    unfold State.exposureCommit
    rw [found]
    dsimp only
    rw [if_neg (not_not.2 opened), passes]
  have requests := (Cascade.exposureCommit s exposure).requests.trans hs.2.1
  rw [owner] at requests
  exact exec_of_done (.exposureCommit exposure) hs owner requests

theorem exec_exposureCommit_refused {exposure : Nat} {tag : Byte} {why : RefuseReason} (hs : s.Ready) (found : s.slotOf exposure = some k)
    (opened : (s.slot k).state = .opened) (fails : s.commitRefusal (s.slot k) = some why) :
    exec (.exposureCommit tag exposure) s = .next (s.turnedAway tag 0x0B why) := by
  have owner : s.exposureCommit exposure = s.refuse why := by
    unfold State.exposureCommit
    rw [found]
    dsimp only
    rw [if_neg (not_not.2 opened), fails]
  exact exec_of_refused (.exposureCommit exposure) hs owner

end

/-! ## The part after a commit -/

section
variable {s d : State} {k : Fin 4}

/-- What a commit leaves of the part and what it makes of the cells. -/
structure State.Committed (s : State) (k : Fin 4) (d : State) : Prop where
  rest : { d with slots := s.slots, tiles := s.tiles, host := s.host, store := s.store, measuring := s.measuring, canvas := s.canvas } = s
  canvas : d.canvas = (s.commitCells (s.slot k)).canvas
  zeroQueue : d.store.zeroQueue = (s.commitCells (s.slot k)).store.zeroQueue

theorem State.Committed.commits (h : s.Committed k d) : d.settle.canvas.commits = min 65535 (s.canvas.commits + 1) := by
  rw [State.settle_commits, h.canvas, State.commitCells_commits]

theorem State.Committed.cell (h : s.Committed k d) {i : Nat} {c : Cell} (cell : s.cell? i = some c)
    (open_ : c.state = .untouched ∨ c.state = .pending) (lists : ∀ p ∈ (s.slot k).placements, p.cells.Nodup)
    (named : ∃ p ∈ (s.slot k).placements, i ∈ p.cells) (queue : i ∉ s.drain.queue) :
    d.settle.cell? i = some { c.promised ((s.slot k).placements.countP fun p => decide (i ∈ p.cells) && (s.slot k).owes p)
        ((s.slot k).placements.countP fun p => decide (i ∈ p.cells) && !(s.slot k).owes p) with state := .pending }
    ∧ (c.state = .untouched → i ∈ d.settle.store.zeroQueue) := by
  obtain ⟨promised, queued⟩ := State.commitCells_cell cell open_ lists named
  have drain : d.drain = s.drain := (congrArg State.drain h.rest :)
  rw [State.settle_zeroQueue, h.zeroQueue]
  refine ⟨State.settle_cell (by rw [drain]; exact queue) ?_ rfl, queued⟩
  rw [State.cell?, h.canvas]
  exact promised

theorem State.Committed.rest_settled (h : s.Committed k d) : d.settle.mem = s.mem ∧ d.settle.ports = s.ports ∧ d.settle.cal = s.cal := by
  have settled := Settled.settle d
  exact ⟨(congrArg State.mem settled.rest :).trans (congrArg State.mem h.rest :),
    (congrArg State.ports settled.rest :).trans (congrArg State.ports h.rest :),
    (congrArg State.cal settled.rest :).trans (congrArg State.cal h.rest :)⟩

end

/-! ## A slot without tiles -/

section
variable {s : State} {k : Fin 4}

theorem State.movingOf_of_bare (bare : s.tilesOf k = []) : s.movingOf k = [] := by rw [State.movingOf, bare, List.filter_nil]

theorem State.droppedOf_of_bare (bare : s.tilesOf k = []) : s.droppedOf k = [] := by rw [State.droppedOf, bare, List.filter_nil]

theorem State.commitTiles_of_bare (bare : s.tilesOf k = []) : s.commitTiles k = s.commitCells (s.slot k) := by
  rw [State.commitTiles, State.movingOf_of_bare bare, State.droppedOf_of_bare bare]
  rfl

theorem ExpSlot.owing_of_fresh {x : ExpSlot} (fresh : ∀ g, x.entry g = .notStarted) : x.owing = x.placements :=
  List.filter_eq_self.2 fun p _ => by
    rw [fresh]
    rfl

/-- R41. The commit of a slot before its readout. -/
theorem exec_exposureCommit_fresh {exposure : Nat} {tag : Byte} (hs : s.Ready) (found : s.slotOf exposure = some k)
    (opened : (s.slot k).state = .opened) (idle : (s.slot k).timer = .notStarted) (bare : s.tilesOf k = [])
    (fresh : ∀ g, (s.slot k).entry g = .notStarted) (some_ : (s.slot k).placements ≠ [])
    (ready : ∀ p ∈ (s.slot k).placements, p.cells.Nodup
      ∧ (s.port (linkOf p.segment)).cfg.slots.getLsbD (p.segment.val % 8) = true
      ∧ ∀ i ∈ p.cells, ∃ c, s.cell? i = some c ∧ (c.state = .untouched ∨ c.state = .pending)
        ∧ c.owed + (s.slot k).placements.countP (fun q => decide (i ∈ q.cells)) ≤ 255)
    (queue : s.tiles.queue = []) (held : s.heldTiles k = []) :
    ∃ t, exec (.exposureCommit tag exposure) s = .next (State.answered t tag 0x0B
          (code8 2 ++ code8 (s.slot k).placements.length ++ code8 0 ++ code8 0 ++ code8 0))
      ∧ t.slot k = { s.slot k with state := .committed } ∧ (∀ j, j ≠ k → t.slot j = s.slot j)
      ∧ t.canvas.commits = min 65535 (s.canvas.commits + 1)
      ∧ (∀ i c, s.cell? i = some c → (∃ p ∈ (s.slot k).placements, i ∈ p.cells) → i ∉ s.drain.queue →
          t.cell? i = some { c with
            state := .pending
            owed := c.owed + (s.slot k).placements.countP (fun q => decide (i ∈ q.cells)) }
          ∧ (c.state = .untouched → i ∈ t.store.zeroQueue))
      ∧ t.tiles = s.tiles ∧ t.mem = s.mem ∧ t.ports = s.ports ∧ t.cal = s.cal := by
  have owes : ∀ i, ((s.slot k).placements.countP fun p => decide (i ∈ p.cells) && !((s.slot k).entry p.segment).isResolved)
      = (s.slot k).placements.countP fun p => decide (i ∈ p.cells) := fun i => by
    simp only [fresh, Entry.isResolved, Bool.not_false, Bool.and_true]
  have lapsed : ∀ i, ((s.slot k).placements.countP fun p => decide (i ∈ p.cells) && !!((s.slot k).entry p.segment).isResolved) = 0 :=
    fun i => List.countP_eq_zero.2 fun p _ => by simp [fresh, Entry.isResolved]
  have passes : s.commitRefusal (s.slot k) = none := by
    refine (s.commitRefusal_cases (s.slot k)).2.2.2.2 some_ (fun p mem => (ready p mem).2.1) (fun p mem i named c cell => ?_)
      fun p mem i named c cell => ?_
    all_goals
      obtain ⟨c', cell', open_, fits⟩ := (ready p mem).2.2 i named
      obtain rfl : c = c' := Option.some.inj (cell.symm.trans cell')
    · exact open_
    · rw [owes]
      exact fits
  obtain ⟨p, mem⟩ := List.exists_mem_of_ne_nil _ some_
  have cells := State.commitCells_rest s (s.slot k)
  have tiles : (s.commitCells (s.slot k)).tiles = s.tiles := (congrArg State.tiles cells :)
  have slots : ∀ j, (s.commitCells (s.slot k)).slot j = s.slot j := fun j => (congrArg (fun y : State => y.slot j) cells :)
  have heldTiles : (s.commitCells (s.slot k)).heldTiles k = [] := by
    rw [← held]
    simp only [State.heldTiles, State.tile, tiles]
    rfl
  have ended := State.commitEnd_of_open (s := s.commitCells (s.slot k)) (k := k) (p := p)
    (by rw [slots, idle]; decide) (by rw [slots]; exact mem) (by rw [slots]; exact fresh _) (by rw [heldTiles]; exact nofun)
    (.inr (by rw [tiles]; exact queue))
  rw [slots, TimerState.commits, if_pos idle, ← State.commitTiles_of_bare bare] at ended
  generalize hd : (s.commitTiles k).setSlot k { s.slot k with state := .committed } = d at ended
  have dslot : ∀ j, d.slot j = if k = j then { s.slot k with state := .committed } else s.slot j := fun j => by
    rw [← hd, State.slot_setSlot, State.commitTiles_of_bare bare, slots]
  have done : s.Committed k d := by
    rw [State.commitTiles_of_bare bare] at hd
    subst hd
    exact ⟨(congrArg (fun y : State => ({ y with
      slots := s.slots, tiles := s.tiles, host := s.host, measuring := s.measuring } : State)) cells :), rfl, rfl⟩
  have step := exec_exposureCommit (tag := tag) hs found opened passes ended (by
    rw [State.droppedOf_of_bare bare]
    exact nofun)
  rw [dslot, if_pos rfl, State.movingOf_of_bare bare, State.droppedOf_of_bare bare, ExpSlot.owing_of_fresh fresh, Nat.sub_self] at step
  have settled := Settled.settle d
  refine ⟨d.settle, step, ?_, fun j other => ?_, done.commits, fun i c cell named out => ?_, ?_, done.rest_settled⟩
  · rw [settled.tilesSame.slot, dslot, if_pos rfl]
  · rw [settled.tilesSame.slot, dslot, if_neg (Ne.symm other)]
  · obtain ⟨q, mem', inside⟩ := named
    obtain ⟨c', cell', open_, -⟩ := (ready q mem').2.2 i inside
    obtain rfl : c = c' := Option.some.inj (cell.symm.trans cell')
    obtain ⟨promised, zeroing⟩ := done.cell cell open_ (fun p mem => (ready p mem).1) ⟨q, mem', inside⟩ out
    refine ⟨promised.trans ?_, zeroing⟩
    simp only [ExpSlot.owes, owes, lapsed]
    rfl
  · rw [settled.tilesSame.tiles, ← hd]
    show (s.commitTiles k).tiles = _
    rw [State.commitTiles_of_bare bare, tiles]

end

end Sys2Proof.Machine
end

section
/-!
PROOF. The commit of a slot with tiles (R41, R42), and what a commit promises.
-/

namespace Sys2Proof.Machine

/-! ## The tiles that move on, and those that are dropped -/

section
variable {s : State} {x : ExpSlot} {moving : List (Fin 40)}

/-- The tiles after the moves of a commit. -/
theorem State.commitMoves_spec (nodup : moving.Nodup) (small : s.tiles.holdCounter < 65536) :
    (∀ n, (s.commitMoves x moving).tile n = if n ∈ moving then
        if x.photo.mode = .settled ∧ x.photo.frozen = false then
          { s.tile n with state := .heldScale, holdOrder := some ((s.tiles.holdCounter + moving.idxOf n) % 65536) }
        else { s.tile n with state := .queued, holdOrder := none }
      else s.tile n)
    ∧ (s.commitMoves x moving).tiles.queue =
        s.tiles.queue ++ (if x.photo.mode = .settled ∧ x.photo.frozen = false then [] else moving)
    ∧ (x.photo.mode = .settled ∧ x.photo.frozen = false → (s.commitMoves x moving).tiles.holding = s.tiles.holding ++ moving)
    ∧ (∀ n ∈ (s.commitMoves x moving).tiles.holding, n ∈ s.tiles.holding ∨ n ∈ moving)
    ∧ (s.commitMoves x moving).tiles.holdCounter =
        (s.tiles.holdCounter + (if x.photo.mode = .settled ∧ x.photo.frozen = false then moving.length else 0)) % 65536 := by
  by_cases settles : x.photo.mode = .settled ∧ x.photo.frozen = false
  · obtain ⟨tile, counter, holding, queue, -⟩ := State.holdTiles_moves moving s nodup small
    rw [State.commitMoves_of_settled settles]
    refine ⟨fun n => (tile n).trans ?_, ?_, fun _ => holding, fun n mem => ?_, ?_⟩
    · rw [if_pos settles]
    · rw [if_pos settles, List.append_nil]
      exact queue
    · rw [holding] at mem
      exact List.mem_append.1 mem
    · rw [if_pos settles]
      exact counter
  · obtain ⟨tile, queue, holding, counter, -⟩ := State.queueTiles_moves moving s
    rw [State.commitMoves_of_unsettled settles]
    refine ⟨fun n => (tile n).trans ?_, ?_, fun h => absurd h settles, fun n mem => ?_, ?_⟩
    · rw [if_neg settles]
    · rw [if_neg settles]
      exact queue
    · rw [holding] at mem
      exact .inl (List.mem_filter.1 mem).1
    · rw [if_neg settles, Nat.add_zero, Nat.mod_eq_of_lt small]
      exact counter

end

section
variable {s : State} {k : Fin 4}

theorem State.tilesOf_nodup (s : State) (k : Fin 4) : (s.tilesOf k).Nodup := (List.nodup_finRange 40).filter _

theorem State.mem_movingOf {n : Fin 40} :
    n ∈ s.movingOf k ↔ n ∈ s.tilesOf k ∧ (s.tile n).state = .heldPlan ∧ (s.slot k).planned (s.tile n).segment = true := by
  rw [State.movingOf, List.mem_filter, Bool.and_eq_true, decide_eq_true_iff]

theorem State.mem_droppedOf {n : Fin 40} : n ∈ s.droppedOf k ↔ n ∈ s.tilesOf k ∧ (s.slot k).planned (s.tile n).segment = false := by
  rw [State.droppedOf, List.mem_filter, Bool.not_eq_true']

theorem State.not_moving_of_dropped {n : Fin 40} (dropped : n ∈ s.droppedOf k) : n ∉ s.movingOf k := fun moving =>
  Bool.false_ne_true ((State.mem_droppedOf.1 dropped).2.symm.trans (State.mem_movingOf.1 moving).2.2)

/-- The part after the moves. -/
def State.commitMoved (s : State) (k : Fin 4) : State := (s.commitCells (s.slot k)).commitMoves (s.slot k) (s.movingOf k)

theorem State.commitMoved_rest : { s.commitMoved k with tiles := s.tiles, canvas := s.canvas, store := s.store } = s :=
  ((congrArg (fun y : State => ({ y with tiles := s.tiles, canvas := s.canvas, store := s.store } : State)) State.commitMoves_rest :)).trans
    (congrArg (fun y : State => ({ y with tiles := s.tiles } : State)) (State.commitCells_rest s (s.slot k)) :)

theorem State.commitMoved_canvas : (s.commitMoved k).canvas = (s.commitCells (s.slot k)).canvas :=
  (congrArg State.canvas (State.commitMoves_rest (s := s.commitCells (s.slot k)) (x := s.slot k) (moving := s.movingOf k)) :)

theorem State.commitMoved_store : (s.commitMoved k).store = (s.commitCells (s.slot k)).store :=
  (congrArg State.store (State.commitMoves_rest (s := s.commitCells (s.slot k)) (x := s.slot k) (moving := s.movingOf k)) :)

variable (small : s.tiles.holdCounter < 65536)
include small

/-- The tiles, the queue and the held tiles after the moves. -/
theorem State.commitMoved_spec :
    (∀ n, (s.commitMoved k).tile n = if n ∈ s.movingOf k then
        if (s.slot k).photo.mode = .settled ∧ (s.slot k).photo.frozen = false then
          { s.tile n with state := .heldScale, holdOrder := some ((s.tiles.holdCounter + (s.movingOf k).idxOf n) % 65536) }
        else { s.tile n with state := .queued, holdOrder := none }
      else s.tile n)
    ∧ (s.commitMoved k).tiles.queue =
        s.tiles.queue ++ (if (s.slot k).photo.mode = .settled ∧ (s.slot k).photo.frozen = false then [] else s.movingOf k)
    ∧ ((s.slot k).photo.mode = .settled ∧ (s.slot k).photo.frozen = false →
        (s.commitMoved k).tiles.holding = s.tiles.holding ++ s.movingOf k)
    ∧ (∀ n ∈ (s.commitMoved k).tiles.holding, n ∈ s.tiles.holding ∨ n ∈ s.movingOf k)
    ∧ (s.commitMoved k).tiles.holdCounter =
        (s.tiles.holdCounter + (if (s.slot k).photo.mode = .settled ∧ (s.slot k).photo.frozen = false then (s.movingOf k).length else 0))
          % 65536 := by
  have tiles : (s.commitCells (s.slot k)).tiles = s.tiles := (congrArg State.tiles (State.commitCells_rest s (s.slot k)) :)
  have tile : ∀ n, (s.commitCells (s.slot k)).tile n = s.tile n := fun n => by rw [State.tile, State.tile, tiles]
  have spec := State.commitMoves_spec (s := s.commitCells (s.slot k)) (x := s.slot k) (moving := s.movingOf k)
    ((State.tilesOf_nodup s k).filter _) (by rw [tiles]; exact small)
  simp only [tiles, tile] at spec
  exact spec

/-- The tiles of unlisted segments are dropped. -/
theorem State.commitTiles_dropping (opened : (s.slot k).state = .opened) :
    (s.commitMoved k).Dropping k s.tile (s.droppedOf k) (s.commitTiles k) := by
  obtain ⟨tile, -⟩ := State.commitMoved_spec (k := k) small
  refine State.Dropping.all s.tile (s.droppedOf k) (s.commitMoved k) ((State.tilesOf_nodup s k).filter _) (fun n mem => ?_) ?_
  · have same : (s.commitMoved k).tile n = s.tile n := by rw [tile, if_neg (State.not_moving_of_dropped mem)]
    rw [same]
    exact ⟨(State.mem_tilesOf.1 (State.mem_droppedOf.1 mem).1).2, rfl⟩
  · rw [show (s.commitMoved k).slot k = s.slot k from (congrArg (fun y : State => y.slot k) State.commitMoved_rest :)]
    exact opened

theorem State.commitTiles_committed (opened : (s.slot k).state = .opened) (z : ExpSlot) : s.Committed k ((s.commitTiles k).setSlot k z) := by
  have drops := State.commitTiles_dropping (k := k) small opened
  have moved := State.commitMoved_rest (s := s) (k := k)
  refine ⟨?_, ?_, ?_⟩
  · exact ((congrArg (fun y : State => ({ y with
      slots := s.slots, tiles := s.tiles, host := s.host, store := s.store, measuring := s.measuring, canvas := s.canvas } : State))
      drops.rest :)).trans (congrArg (fun y : State => ({ y with
      slots := s.slots, host := s.host, measuring := s.measuring } : State)) moved :)
  · show (s.commitTiles k).canvas = _
    exact (congrArg State.canvas drops.rest :).trans State.commitMoved_canvas
  · show (s.commitTiles k).store.zeroQueue = _
    rw [drops.zeroQueue, State.commitMoved_store]

end

end Sys2Proof.Machine
end

section
/-!
PROOF. What a commit promises to the cells, and what the resolutions after it pay.
-/

namespace Sys2Proof.Machine

section
variable {s : State} {k : Fin 4}

/-- The slot's record after a commit that leaves a segment to come. -/
def State.commitSlot (s : State) (k : Fin 4) : ExpSlot := { (s.commitTiles k).slot k with state := (s.slot k).timer.commits }

variable (opened : (s.slot k).state = .opened) (timer : (s.slot k).timer ∈ [.notStarted, .running])
  (small : s.tiles.holdCounter < 65536)
include opened small

/-- No tile held for the scale is of a segment that no tile was of. -/
theorem State.commitTiles_apart {g : Fin 96} (own : ∀ n ∈ s.tilesOf k, (s.tile n).segment ≠ g)
    (held : ∀ n ∈ s.heldTiles k, (s.tile n).segment ≠ g) : ∀ n ∈ (s.commitTiles k).heldTiles k, ((s.commitTiles k).tile n).segment ≠ g := by
  have drops := State.commitTiles_dropping (k := k) small opened
  obtain ⟨tile, -, -, holding, -⟩ := State.commitMoved_spec (k := k) small
  intro n mem same
  obtain ⟨inside, owner⟩ := State.mem_heldTiles.1 mem
  rw [drops.holding, List.mem_filter, decide_eq_true_iff] at inside
  rw [drops.tile, if_neg inside.2, tile] at owner same
  by_cases moving : n ∈ s.movingOf k
  · rw [if_pos moving] at same
    refine own n (State.mem_movingOf.1 moving).1 ?_
    split at same <;> exact same
  · rw [if_neg moving] at owner same
    exact held n (State.mem_heldTiles.2 ⟨(holding n inside.1).resolve_right moving, owner⟩) same

theorem State.commitTiles_slot : { (s.commitTiles k).slot k with
      entries := (s.slot k).entries, tallies := (s.slot k).tallies, totals := (s.slot k).totals } = s.slot k
    ∧ (∀ g, ((s.commitTiles k).slot k).entry g =
        if (∃ n ∈ s.droppedOf k, (s.tile n).segment = g) ∧ ((s.slot k).entry g).isResolved = false then .resolved .unlisted
        else (s.slot k).entry g)
    ∧ ((s.commitTiles k).slot k).totals = (s.droppedOf k).foldl (fun a n => a.add (s.tile n)) (s.slot k).totals
    ∧ ∀ j, j ≠ k → (s.commitTiles k).slot j = s.slot j := by
  have drops := State.commitTiles_dropping (k := k) small opened
  have slots : ∀ j, (s.commitMoved k).slot j = s.slot j := fun j => (congrArg (fun y : State => y.slot j) State.commitMoved_rest :)
  have slot := drops.slot
  have entry := drops.entry
  have totals := drops.totals
  rw [slots] at slot totals
  simp only [slots] at entry
  exact ⟨slot, entry, totals, fun j other => (drops.others j other).trans (slots j)⟩

/-- The tiles, the queue, the held tiles and the reports of a commit. -/
theorem State.commitTiles_tiles :
    (∀ n ∈ s.movingOf k, (s.commitTiles k).tile n = if (s.slot k).photo.mode = .settled ∧ (s.slot k).photo.frozen = false
      then { s.tile n with state := .heldScale, holdOrder := some ((s.tiles.holdCounter + (s.movingOf k).idxOf n) % 65536) }
      else { s.tile n with state := .queued, holdOrder := none })
    ∧ (∀ n ∈ s.droppedOf k, ((s.commitTiles k).tile n).state = .free)
    ∧ (∀ n, n ∉ s.movingOf k → n ∉ s.droppedOf k → (s.commitTiles k).tile n = s.tile n)
    ∧ (s.commitTiles k).tiles.queue = s.tiles.queue.filter (fun n => decide (n ∉ s.droppedOf k))
        ++ (if (s.slot k).photo.mode = .settled ∧ (s.slot k).photo.frozen = false then [] else s.movingOf k)
    ∧ ((s.slot k).photo.mode = .settled ∧ (s.slot k).photo.frozen = false → (s.commitTiles k).tiles.holding =
        s.tiles.holding.filter (fun n => decide (n ∉ s.droppedOf k)) ++ s.movingOf k)
    ∧ (s.commitTiles k).tiles.holdCounter = (s.tiles.holdCounter
        + (if (s.slot k).photo.mode = .settled ∧ (s.slot k).photo.frozen = false then (s.movingOf k).length else 0)) % 65536
    ∧ (s.commitTiles k).host = (s.droppedOf k).foldl (fun h n => h.raise .tileReport ((s.tile n).report n .unlisted)) s.host := by
  have drops := State.commitTiles_dropping (k := k) small opened
  obtain ⟨tile, queue, holding, -, counter⟩ := State.commitMoved_spec (k := k) small
  have apart : (s.movingOf k).filter (fun n => decide (n ∉ s.droppedOf k)) = s.movingOf k :=
    List.filter_eq_self.2 fun n moving => decide_eq_true fun dropped => State.not_moving_of_dropped dropped moving
  refine ⟨fun n moving => ?_, fun n dropped => ?_, fun n still kept => ?_, ?_, fun settles => ?_, drops.counter.trans counter, ?_⟩
  · rw [drops.tile, if_neg fun dropped => State.not_moving_of_dropped dropped moving, tile, if_pos moving]
  · rw [drops.tile, if_pos dropped]
    rfl
  · rw [drops.tile, if_neg kept, tile, if_neg still]
  · rw [drops.queue, queue, List.filter_append]
    split
    · rfl
    · rw [apart]
  · rw [drops.holding, holding settles, List.filter_append, apart]
  · rw [drops.host, show (s.commitMoved k).host = s.host from (congrArg State.host State.commitMoved_rest :)]

/-- The end of the commit of a slot with a segment to come. -/
theorem State.commitEnd_of_late {p : Placement} (timer : (s.slot k).timer ∈ [.notStarted, .running]) (busy : s.place ≠ none)
    (mem : p ∈ (s.slot k).placements) (late : (s.slot k).entry p.segment = .notStarted)
    (own : ∀ n ∈ s.tilesOf k, (s.tile n).segment ≠ p.segment) (held : ∀ n ∈ s.heldTiles k, (s.tile n).segment ≠ p.segment) :
    (s.commitTiles k).commitEnd k = (s.commitTiles k).setSlot k (s.commitSlot k) := by
  obtain ⟨slot, entry, -⟩ := State.commitTiles_slot opened small
  have timers : ((s.commitTiles k).slot k).timer = (s.slot k).timer := (congrArg ExpSlot.timer slot :)
  have placements : ((s.commitTiles k).slot k).placements = (s.slot k).placements := (congrArg ExpSlot.placements slot :)
  have place : (s.commitTiles k).place = s.place := (congrArg State.place (State.commitTiles_committed small opened (s.slot k)).rest :)
  have ended := State.commitEnd_of_open (s := s.commitTiles k) (k := k) (p := p) (by rw [timers]; exact timer)
    (by rw [placements]; exact mem) ?_ (State.commitTiles_apart opened small own held) (.inl (by rw [place]; exact busy))
  · rw [timers] at ended
    exact ended
  · rw [entry, if_neg]
    · exact late
    · rintro ⟨⟨n, dropped, same⟩, -⟩
      exact own n (State.mem_droppedOf.1 dropped).1 same

/-- R41, R42. The commit of a slot with a segment to come. -/
theorem exec_exposureCommit_late {exposure : Nat} {tag : Byte} {p : Placement} (timer : (s.slot k).timer ∈ [.notStarted, .running])
    (hs : s.Ready) (found : s.slotOf exposure = some k)
    (passes : s.commitRefusal (s.slot k) = none) (busy : s.place ≠ none)
    (mem : p ∈ (s.slot k).placements) (late : (s.slot k).entry p.segment = .notStarted)
    (own : ∀ n ∈ s.tilesOf k, (s.tile n).segment ≠ p.segment) (held : ∀ n ∈ s.heldTiles k, (s.tile n).segment ≠ p.segment)
    (bare : ∀ n ∈ s.droppedOf k, s.measure (linkOf (s.tile n).segment) = [] ∧ (s.port (linkOf (s.tile n).segment)).buffer = []) :
    exec (.exposureCommit tag exposure) s = .next (State.answered ((s.commitTiles k).setSlot k (s.commitSlot k)).settle tag 0x0B
      (code8 (s.slot k).timer.commits.code ++ code8 (s.slot k).owing.length
        ++ code8 ((s.slot k).placements.length - (s.slot k).owing.length) ++ code8 (s.movingOf k).length
        ++ code8 (s.droppedOf k).length)) := by
  have ended := State.commitEnd_of_late opened small timer busy mem late own held
  have done := State.commitTiles_committed small opened (s.commitSlot k)
  have drops := State.commitTiles_dropping (k := k) small opened
  have step := exec_exposureCommit (tag := tag) hs found opened passes ended fun l inside => ?_
  · rw [State.slot_setSlot, if_pos rfl] at step
    exact step
  · obtain ⟨n, dropped, rfl⟩ := List.mem_map.1 inside
    obtain ⟨quiet, empty⟩ := bare n dropped
    have before : (s.commitMoved k).measure (linkOf (s.tile n).segment) = [] := by
      rw [State.measure, (congrArg State.measuring State.commitMoved_rest :)]
      exact quiet
    refine ⟨drops.quiet _ before, ?_⟩
    rw [State.port, (congrArg State.ports done.rest :)]
    exact empty

end

/-- Settles O24: the checks of a commit, what it makes of the cells, the tiles and the slot, and what each resolution pays. -/
theorem commitPromisesToCells : Obligations.CommitPromisesToCells := by
  refine ⟨fun s tag exposure k hs found opened => ?_,
    fun s tag exposure k hs found opened idle bare fresh some_ ready queue held =>
      exec_exposureCommit_fresh hs found opened idle bare fresh some_ ready queue held,
    fun s tag exposure k hs found opened timer busy small => ?_, fun s k g why => ?_, fun s i c placed cell => ?_⟩
  · intro x enabled open_ fits answer
    obtain ⟨empty, off, shut, excess, -⟩ := s.commitRefusal_cases x
    have refused : ∀ {why}, s.commitRefusal x = some why → answer = .next (s.turnedAway tag 0x0B why) :=
      fun fails => exec_exposureCommit_refused hs found opened fails
    exact ⟨fun h => refused (empty h), fun h h1 => refused (off h h1), fun h h1 h2 => refused (shut h h1 h2),
      fun h h1 h2 h3 => refused (excess h h1 h2 h3)⟩
  · intro x owing moving dropped settles after ready open_ bare
    obtain ⟨p, mem, late, own, held⟩ := open_
    have passes : s.commitRefusal x = none := by
      refine (s.commitRefusal_cases x).2.2.2.2 (List.ne_nil_of_mem mem) (fun q inside => (ready q inside).2.1)
        (fun q inside i named c cell => ?_) fun q inside i named c cell => ?_
      all_goals
        obtain ⟨c', cell', open_, fits⟩ := (ready q inside).2.2 i named
        obtain rfl : c = c' := Option.some.inj (cell.symm.trans cell')
      · exact open_
      · rw [← ExpSlot.owing_countP]
        exact fits
    have step := exec_exposureCommit_late (tag := tag) opened small timer hs found passes busy mem late own held bare
    have done := State.commitTiles_committed small opened (s.commitSlot k)
    obtain ⟨slot, entry, totals, others⟩ := State.commitTiles_slot (k := k) opened small
    obtain ⟨moved, freed, kept, queue, holding, counter, host⟩ := State.commitTiles_tiles (k := k) opened small
    generalize hd : (s.commitTiles k).setSlot k (s.commitSlot k) = d at step done
    have settled := Settled.settle d
    have dslot : ∀ j, d.settle.slot j = if k = j then s.commitSlot k else (s.commitTiles k).slot j := fun j => by
      rw [settled.tilesSame.slot, ← hd, State.slot_setSlot]
    have here : d.settle.slot k = s.commitSlot k := (dslot k).trans (if_pos rfl)
    have tiles : d.settle.tiles = (s.commitTiles k).tiles := by
      rw [settled.tilesSame.tiles, ← hd]
      rfl
    have tile : ∀ n, d.settle.tile n = (s.commitTiles k).tile n := fun n => by rw [State.tile, tiles, State.tile]
    refine ⟨d.settle, ?_, fun n inside => (tile n).trans (moved n inside), fun n inside => ?_,
      fun n out gone => (tile n).trans (kept n out gone), ?_, fun h => ?_, ?_, ?_, ?_, ?_, ?_, ?_, ?_, fun g => ?_, ?_, fun j other => ?_,
      done.commits, fun i c cell named out resolved writtenOff => ?_, done.rest_settled⟩
    · refine step.trans ?_
      rcases List.mem_pair.1 timer with idle | running
      · have chosen : after = .committed := if_pos idle
        rw [chosen, TimerState.commits, if_pos idle]
        rfl
      · have chosen : after = .reading := if_neg (by rw [running]; exact nofun)
        rw [chosen, TimerState.commits, if_neg (by rw [running]; exact nofun)]
        rfl
    · rw [tile]
      exact freed n inside
    · rw [tiles]
      exact queue
    · rw [tiles]
      exact holding h
    · rw [tiles]
      exact counter
    · rw [settled.host, ← hd]
      exact host
    · rw [here]
      rfl
    · rw [here]
      exact (congrArg ExpSlot.timer slot :)
    · rw [here]
      exact (congrArg ExpSlot.placements slot :)
    · rw [here]
      exact (congrArg ExpSlot.photo slot :)
    · rw [here]
      exact (congrArg ExpSlot.refs slot :)
    · rw [here]
      exact entry g
    · rw [here]
      exact totals
    · rw [dslot, if_neg (Ne.symm other)]
      exact others j other
    · obtain ⟨q, inside, within⟩ := named
      obtain ⟨c', cell', open_, -⟩ := (ready q inside).2.2 i within
      obtain rfl : c = c' := Option.some.inj (cell.symm.trans cell')
      obtain ⟨promised, zeroing⟩ := done.cell cell open_ (fun p mem => (ready p mem).1) ⟨q, inside, within⟩ out
      refine ⟨promised.trans ?_, zeroing⟩
      have lapsed : (s.slot k).placements.countP (fun p => decide (i ∈ p.cells) && !(s.slot k).owes p)
          = (s.slot k).placements.countP fun p => decide (i ∈ p.cells) && ((s.slot k).entry p.segment).isResolved := by
        simp only [ExpSlot.owes, Bool.not_not]
      have owed : (s.slot k).placements.countP (fun p => decide (i ∈ p.cells) && (s.slot k).owes p)
          = (s.slot k).owing.countP fun p => decide (i ∈ p.cells) := (ExpSlot.owing_countP _ i).symm
      rw [lapsed, owed, Cell.promised, count16_of_le resolved, count16_of_le writtenOff]
      rfl
  · intro x marked
    refine ⟨fun done => State.recordResolution_of_resolved (Entry.isResolved_iff.2 done) why, fun open_ => ?_⟩
    have first : ((s.slot k).entry g).isResolved = false := Entry.not_isResolved_iff.2 open_
    refine ⟨fun unlisted => ?_, fun p state listed => ?_⟩
    · exact State.recordResolution_of_unlisted first why (unlisted.imp_left ExpSlot.not_isCommitted_iff.2)
    · exact State.recordResolution_of_listed first why (ExpSlot.isCommitted_iff.2 state) listed
  · intro told u
    have record : c.resolve placed = told := c.resolve_eq placed
    refine ⟨fun shut => ?_, fun pending more => ?_, fun pending last closed => ?_⟩
    · rw [← record]
      exact State.payCell_of_closed cell shut placed
    · rw [← record]
      exact State.payCell_of_owing cell pending placed more
    · rw [← record]
      exact State.payCell_of_last cell pending placed last closed

end Sys2Proof.Machine
end

section
/-!
PROOF. The taking of a readout start: the armed transfers, the latch, and the intake after it (R12, R13, R63).
-/

namespace Sys2Proof.Machine

/-! ## The latch and the match -/

theorem Port.latch_of_cycle {p : Port} {e : Nat} {c : HkCycle} (cycle : p.hk = some c) (mine : c.words.getD 1 0 = e)
    (timed : 1 ≤ c.words.getD 2 0 + 65536 * c.words.getD 3 0) (nominal : Option Nat) :
    p.latch e nominal = { time := some (c.words.getD 2 0 + 65536 * c.words.getD 3 0), temp := some (c.words.getD 4 0), nominal := false
                          warm := decide (c.words.getD 4 0 < p.cfg.low ∨ p.cfg.high < c.words.getD 4 0) } := by
  unfold Port.latch
  rw [cycle]
  exact if_pos ⟨mine, timed⟩

theorem Port.latch_of_nominal {p : Port} {e : Nat}
    (without : ∀ c, p.hk = some c → c.words.getD 1 0 ≠ e ∨ c.words.getD 2 0 + 65536 * c.words.getD 3 0 = 0) (nominal : Option Nat) :
    p.latch e nominal = { time := nominal, temp := none, nominal := true, warm := false } := by
  unfold Port.latch
  cases cycle : p.hk with
  | none => rfl
  | some c =>
    refine if_neg fun h => ?_
    rcases without c cycle with other | untimed
    · exact other h.1
    · rw [untimed] at h
      exact absurd h.2 (by decide)

theorem CalRec.mismatch_eq_none {r : CalRec} {cfg : LinkConfig} :
    r.mismatch cfg = none ↔ r.columns = cfg.active ∧ r.rows = cfg.rows ∧ ∀ k, r.bias = .overscan k → k + 4 ≤ cfg.overscan := by
  have fits : r.bias.fits cfg.overscan = true ↔ ∀ k, r.bias = .overscan k → k + 4 ≤ cfg.overscan := by
    cases r.bias with
    | overscan k => simp [Bias.fits]
    | fixed v => simp [Bias.fits]
  rw [← fits]
  unfold CalRec.mismatch
  split_ifs <;> simp_all

/-! ## The armed transfers -/

/-- The armed transfers of some amplifier slots of a link. -/
def State.transfers (s : State) (l : Fin 12) (as : List (Fin 8)) : State := as.foldl (fun s a => s.armedTransfer (segmentOf l a)) s

section
variable {s : State} {l : Fin 12}

theorem State.armedTransfer_eq (s : State) (g : Fin 96) :
    s.armedTransfer g = { s with cal := if (s.segCal g).armed = true then s.cal.set g.val (s.segCal g).transfer g.isLt else s.cal } := by
  unfold State.armedTransfer
  dsimp only
  split <;> rfl

theorem State.armedTransfer_segCal (s : State) (g h : Fin 96) :
    (s.armedTransfer g).segCal h = if g = h ∧ (s.segCal h).armed = true then (s.segCal h).transfer else s.segCal h := by
  rw [State.armedTransfer_eq]
  by_cases armed : (s.segCal g).armed = true
  · rw [if_pos armed, State.segCal]
    refine (Vector.getElem_set g.isLt h.isLt).trans ?_
    by_cases here : g = h
    · subst here
      rw [if_pos rfl, if_pos ⟨rfl, armed⟩]
    · rw [if_neg fun same => here (Fin.ext same), if_neg fun c => here c.1]
      rfl
  · rw [if_neg armed, if_neg]
    rintro ⟨rfl, h⟩
    exact armed h

/-- A transfer after another. -/
theorem SegCal.transfer_twice {c : SegCal} {p q : Prop} [Decidable p] [Decidable q] :
    (if q ∧ (if p ∧ c.armed = true then c.transfer else c).armed = true then (if p ∧ c.armed = true then c.transfer else c).transfer
      else if p ∧ c.armed = true then c.transfer else c) = if (p ∨ q) ∧ c.armed = true then c.transfer else c := by
  by_cases first : p ∧ c.armed = true
  · have done : ¬c.transfer.armed = true := nofun
    rw [if_pos first, if_neg fun h => done h.2, if_pos ⟨.inl first.1, first.2⟩]
  · rw [if_neg first]
    refine if_congr (and_congr_left fun armed => ?_) rfl rfl
    rw [or_iff_right fun h => first ⟨h, armed⟩]

theorem State.transfers_ports (as : List (Fin 8)) : ∀ (s : State) (ports : Vector Port 12),
    State.transfers { s with ports := ports } l as = { s.transfers l as with ports := ports } := by
  induction as with
  | nil => exact fun s ports => rfl
  | cons a as ih =>
    intro s ports
    have one : State.armedTransfer { s with ports := ports } (segmentOf l a) = { s.armedTransfer (segmentOf l a) with ports := ports } := by
      rw [State.armedTransfer_eq, State.armedTransfer_eq]
      rfl
    show State.transfers (State.armedTransfer { s with ports := ports } (segmentOf l a)) l as = _
    rw [one]
    exact ih _ ports

theorem State.transfers_rest (as : List (Fin 8)) : ∀ s : State, { s.transfers l as with cal := s.cal } = s := by
  induction as with
  | nil => exact fun s => rfl
  | cons a as ih =>
    intro s
    have one : { s.armedTransfer (segmentOf l a) with cal := s.cal } = s := by rw [State.armedTransfer_eq]
    exact ((congrArg (fun x : State => ({ x with cal := s.cal } : State)) (ih (s.armedTransfer (segmentOf l a))) :)).trans one

theorem State.transfers_slots (as : List (Fin 8)) : (s.transfers l as).slots = s.slots := by
  have kept := State.transfers_rest (l := l) as s
  generalize s.transfers l as = t at kept ⊢
  exact (congrArg State.slots kept :)

theorem State.transfers_segCal (as : List (Fin 8)) : ∀ (s : State) (g : Fin 96), (s.transfers l as).segCal g =
    if (∃ a ∈ as, segmentOf l a = g) ∧ (s.segCal g).armed = true then (s.segCal g).transfer else s.segCal g := by
  induction as with
  | nil => exact fun s g => (if_neg fun h => by simpa using h.1).symm
  | cons a as ih =>
    intro s g
    refine (ih (s.armedTransfer (segmentOf l a)) g).trans ?_
    rw [State.armedTransfer_segCal, SegCal.transfer_twice]
    refine if_congr (and_congr_left fun _ => ?_) rfl rfl
    simp only [List.mem_cons, exists_eq_or_imp]

theorem State.transfers_of_unarmed (as : List (Fin 8)) (unarmed : ∀ a, (s.segCal (segmentOf l a)).armed = false) : s.transfers l as = s := by
  induction as with
  | nil => rfl
  | cons a as ih =>
    have still : s.armedTransfer (segmentOf l a) = s := by
      unfold State.armedTransfer
      exact if_neg (by rw [unarmed a]; exact nofun)
    show State.transfers (s.armedTransfer (segmentOf l a)) l as = s
    rw [still]
    exact ih

theorem exists_segmentOf {g : Fin 96} : (∃ a ∈ allAmplifiers, segmentOf l a = g) ↔ linkOf g = l := by
  constructor
  · rintro ⟨a, -, rfl⟩
    exact Fin.ext (show (l.val * 8 + a.val) / 8 = l.val by omega)
  · rintro rfl
    refine ⟨⟨g.val % 8, Nat.mod_lt _ (by decide)⟩, List.mem_finRange _, Fin.ext ?_⟩
    show g.val / 8 * 8 + g.val % 8 = g.val
    omega

end

/-! ## The taking of a start -/

/-- The port of a link whose start is taken: its values latched in the readout's context. -/
def Port.startTaken (p : Port) (lat : Latched) (rest : List BufItem) : Port :=
  { p with buffer := rest, ctx := p.ctx.map fun c => if hasStart rest = true then c else { c with latched := some lat } }

section
variable {s : State} {l : Fin 12} {e row : Nat} {rest : List BufItem}

theorem State.latchContext_eq (s : State) (l : Fin 12) (lat : Latched) (rest : List BufItem) :
    s.latchContext l lat rest = s.setPort l { s.port l with
      ctx := (s.port l).ctx.map fun c => if hasStart rest = true then c else { c with latched := some lat } } := by
  unfold State.latchContext State.modPort
  refine congrArg (s.setPort l) ?_
  generalize s.port l = p
  dsimp only
  split
  · next ctx =>
    rw [ctx, Option.map_none, ← ctx]
  · next c ctx =>
    rw [ctx, Option.map_some]
    split
    · rw [← ctx]
    · rfl

/-- The part as the start is taken, before its association. -/
def State.startTaken (s : State) (l : Fin 12) (e : Nat) (rest : List BufItem) : State :=
  { s.transfers l allAmplifiers with
    ports := s.ports.set l.val ((s.port l).startTaken ((s.port l).latch e ((s.slotOf e).map fun k => (s.slot k).nominal)) rest) l.isLt }

theorem State.takeStart_eq : (s.setBuffer l rest).takeStart l e row rest = (s.startTaken l e rest).associate l e row := by
  have moved : State.transfers (s.setBuffer l rest) l allAmplifiers =
      { s.transfers l allAmplifiers with ports := (s.setBuffer l rest).ports } := State.transfers_ports allAmplifiers s _
  have slots : (s.transfers l allAmplifiers).slots = s.slots := State.transfers_slots allAmplifiers
  have step : (s.setBuffer l rest).takeStart l e row rest = State.associate (State.latchContext
      (State.transfers (s.setBuffer l rest) l allAmplifiers) l
      (((State.transfers (s.setBuffer l rest) l allAmplifiers).port l).latch e
        (((State.transfers (s.setBuffer l rest) l allAmplifiers).slotOf e).map fun k =>
          ((State.transfers (s.setBuffer l rest) l allAmplifiers).slot k).nominal)) rest) l e row := rfl
  rw [step, moved, State.startTaken]
  clear step moved
  generalize s.transfers l allAmplifiers = t at slots
  have port : ({ t with ports := (s.setBuffer l rest).ports } : State).port l = { s.port l with buffer := rest } :=
    (State.port_setPort s l l { s.port l with buffer := rest }).trans (if_pos rfl)
  have found : State.slotOf { t with ports := (s.setBuffer l rest).ports } e = s.slotOf e := by
    simp only [State.slotOf, State.slot, slots]
    rfl
  have nominal : ∀ k, State.slot { t with ports := (s.setBuffer l rest).ports } k = s.slot k := fun k => by
    simp only [State.slot, slots]
  rw [State.latchContext_eq, port, found]
  simp only [nominal]
  refine congrArg (fun x : State => x.associate l e row) ?_
  show ({ t with ports := Vector.set (s.ports.set l.val _ l.isLt) l.val _ l.isLt } : State) = _
  rw [Vector.set_set]
  rfl

/-- A start at the head of the buffer of a link that may act on it. -/
theorem State.readoutStart_of_start (measuring : s.measure l = []) (free : s.holdsClaim (.intake l) = false)
    (buffer : (s.port l).buffer = .start e row :: rest) :
    s.readoutStart l = ((s.startTaken l e rest).associate l e row).resumeLink l := by
  unfold State.readoutStart
  rw [if_pos ⟨measuring, free⟩, buffer, State.takeMarkers, State.takeStart_eq]

theorem State.startTaken_port : (s.startTaken l e rest).port l =
    (s.port l).startTaken ((s.port l).latch e ((s.slotOf e).map fun k => (s.slot k).nominal)) rest := by
  rw [State.startTaken]
  generalize s.transfers l allAmplifiers = t
  exact (State.port_setPort s l l _).trans (if_pos rfl)

theorem State.startTaken_rest : { s.startTaken l e rest with cal := s.cal, ports := s.ports } = s := by
  have kept := State.transfers_rest (l := l) allAmplifiers s
  rw [State.startTaken]
  generalize s.transfers l allAmplifiers = t at kept
  exact (congrArg (fun x : State => ({ x with ports := s.ports } : State)) kept :)

theorem State.startTaken_of_unarmed (unarmed : ∀ a, (s.segCal (segmentOf l a)).armed = false) :
    s.startTaken l e rest =
      s.setPort l ((s.port l).startTaken ((s.port l).latch e ((s.slotOf e).map fun k => (s.slot k).nominal)) rest) := by
  rw [State.startTaken, State.transfers_of_unarmed _ unarmed]
  rfl

end

/-! ## The intake after a start -/

/-- The items of a buffer from the first that is no row and no END. -/
def laterItems (rest : List BufItem) : List BufItem :=
  rest.dropWhile fun it => match it with
    | .row _ | .finish => true
    | .start _ _ | .truncation => false

section
variable {s : State} {l : Fin 12} {rest : List BufItem}

theorem State.setBuffer_setBuffer (s : State) (l : Fin 12) (a b : List BufItem) : (s.setBuffer l a).setBuffer l b = s.setBuffer l b := by
  have port : (s.setBuffer l a).port l = { s.port l with buffer := a } := (State.port_setPort ..).trans (if_pos rfl)
  show ({ s with ports := Vector.set (s.ports.set l.val _ l.isLt) l.val { (s.setBuffer l a).port l with buffer := b } l.isLt } : State) = _
  rw [Vector.set_set, port]
  rfl

theorem State.liveSlots_of_none (shut : ∀ a, s.fillingTile (segmentOf l a) = none) (rows : List SlotRow) : s.liveSlots l rows = [] := by
  rw [State.liveSlots, List.dropWhile_eq_nil_iff]
  intro sr _
  rw [shut]
  rfl

/-- With no tile to fill, the rows and END markers leave the buffer. -/
theorem State.intakeItems_of_none (items : List BufItem) : ∀ s : State, (∀ a, s.fillingTile (segmentOf l a) = none) → s.measure l = [] →
    s.intakeItems l items = s.setBuffer l (laterItems items) := by
  induction items with
  | nil => exact fun s _ _ => State.intakeItems_nil s
  | cons item rest ih =>
    intro s shut quiet
    cases item with
    | truncation => rfl
    | start tag row => rfl
    | finish =>
      have closed : (s.setBuffer l rest).openTiles l = [] := State.openTiles_eq_nil.2 shut
      have quiet' : (s.setBuffer l rest).measure l = [] := quiet
      unfold State.intakeItems
      dsimp only
      rw [State.closeTiles_of_none closed, if_pos quiet', ih (s.setBuffer l rest) shut quiet, State.setBuffer_setBuffer]
      rfl
    | row b =>
      unfold State.intakeItems
      rw [State.liveSlots_of_none shut]
      exact ih s shut quiet

theorem State.resumeLink_unheld (quiet : s.measure l = []) (free : s.holdsClaim (.intake l) = false) (buffer : (s.port l).buffer = rest)
    (unheld : rest = [] ∨ ∀ a, s.fillingTile (segmentOf l a) = none) : s.resumeLink l = s.setBuffer l (laterItems rest) := by
  rw [State.resumeLink_of_idle quiet, State.intakeRun_of_free quiet free, buffer]
  rcases unheld with rfl | shut
  · exact State.intakeItems_nil s
  · exact State.intakeItems_of_none rest s shut quiet

/-- With a tile to fill at the head of the buffer, its row waits for the write. -/
theorem State.resumeLink_claimable (quiet : s.measure l = []) (free : s.holdsClaim (.intake l) = false) (buffer : (s.port l).buffer = rest)
    (head : rest = [] ∨ ∃ (b : BufRow) (tail : List BufItem) (sr : SlotRow) (more : List SlotRow),
      rest = .row b :: tail ∧ b.slots = sr :: more ∧ s.fillingTile (segmentOf l sr.slot) ≠ none) :
    s.resumeLink l = if rest = [] then s else s.claim (.intake l) := by
  rw [State.resumeLink_of_idle quiet]
  rcases head with rfl | ⟨b, tail, sr, more, rfl, slots, filling⟩
  · rw [if_pos rfl]
    exact State.intakeRun_of_empty buffer
  · have live : s.liveSlots l b.slots = sr :: more := by
      rw [State.liveSlots, slots, List.dropWhile_cons_of_neg]
      rw [Option.isNone_iff_eq_none]
      exact filling
    have same : ({ b with slots := sr :: more } : BufRow) = b := by rw [← slots]
    rw [if_neg (by exact nofun), State.intakeRun_of_row quiet free buffer live, same, ← buffer, State.setBuffer_self]

end

/-! ## The event -/

theorem exec_readoutStart {s : State} {l : Fin 12} (idle : s.host.requests = []) :
    exec (.readoutStart l) s = .next (s.readoutStart l).settle.outboundGrant :=
  congrArg Host.Outcome.next (State.settle_pump ((Arming.readoutStart s l).rest.requests.trans idle))

end Sys2Proof.Machine
end

section
/-!
PROOF. The rest of an event that takes a readout start: what its association must leave for the intake to go on (R9, R12, R43).
-/

namespace Sys2Proof.Machine

/-- The association leaves the ports and the measurement, and claims nothing for an intake. -/
structure Undisturbed (s t : State) : Prop where
  ports : t.ports = s.ports
  measuring : t.measuring = s.measuring
  claims : ∀ l, t.holdsClaim (.intake l) = true → s.holdsClaim (.intake l) = true

section
variable {s t u : State} {k : Fin 4}

theorem Undisturbed.refl (s : State) : Undisturbed s s := ⟨rfl, rfl, fun _ => id⟩

theorem Undisturbed.trans (a : Undisturbed s t) (b : Undisturbed t u) : Undisturbed s u :=
  ⟨b.ports.trans a.ports, b.measuring.trans a.measuring, fun l => a.claims l ∘ b.claims l⟩

theorem Undisturbed.setSlot (s : State) (k : Fin 4) (x : ExpSlot) : Undisturbed s (s.setSlot k x) := ⟨rfl, rfl, fun _ => id⟩

theorem Undisturbed.foldl {α : Type} {f : State → α → State} (step : ∀ s a, Undisturbed s (f s a)) (as : List α) :
    ∀ s : State, Undisturbed s (as.foldl f s) := by
  induction as with
  | nil => exact .refl
  | cons a as ih => exact fun s => (step s a).trans (ih _)

/-- A cell that leaves the wait claims a placement at most. -/
theorem Undisturbed.leaveWait (s : State) (i : Nat) : Undisturbed s (s.leaveWait i) := by
  unfold State.leaveWait
  split
  · exact .refl s
  · dsimp only
    split
    · split
      · exact ⟨rfl, rfl, fun l held => (State.holdsClaim_claim.1 held).resolve_left nofun⟩
      · exact ⟨rfl, rfl, fun _ => id⟩
    · exact .refl s

theorem Undisturbed.completeCell (s : State) (i : Nat) (c : Cell) : Undisturbed s (s.completeCell i c) := by
  unfold State.completeCell
  dsimp only
  refine Undisturbed.trans ?_ (.leaveWait _ i)
  exact ⟨rfl, rfl, fun _ => id⟩

theorem Undisturbed.payCell (placed : Bool) (s : State) (i : Nat) : Undisturbed s (s.payCell placed i) := by
  unfold State.payCell
  split
  · exact .refl s
  · next c _ =>
    have set : ∀ c, Undisturbed s (s.setCell i c) := fun _ => ⟨rfl, rfl, fun _ => id⟩
    dsimp only
    split
    · split
      · exact .completeCell s i _
      · exact set _
    · exact set _

theorem Undisturbed.recordResolution (s : State) (k : Fin 4) (g : Fin 96) (why : Reason) :
    Undisturbed s (s.recordResolution k g why) := by
  cases first : ((s.slot k).entry g).isResolved with
  | true =>
    rw [State.recordResolution_of_resolved first]
    exact .refl s
  | false =>
    cases committed : (s.slot k).isCommitted with
    | false =>
      rw [State.recordResolution_of_unlisted first why (.inl committed)]
      exact .setSlot s k _
    | true =>
      rw [State.recordResolution_committed first why committed]
      exact (Undisturbed.setSlot s k _).trans (.foldl (Undisturbed.payCell _) _ _)

theorem Undisturbed.settleSlot (s : State) (k : Fin 4) : Undisturbed s (s.settleSlot k) := by
  rcases s.settleSlot_shape k with h | ⟨y, h, -⟩ | h
  · rw [h]
    exact .refl s
  · rw [h]
    exact .setSlot s k y
  · rw [h]
    exact ⟨rfl, rfl, fun _ => id⟩

theorem Undisturbed.of_frozen {content : List Byte} (frozen : s.Frozen t k content) : Undisturbed s t := by
  have store : t.store = s.store := (congrArg State.store frozen.rest :)
  refine ⟨(congrArg State.ports frozen.rest :), (congrArg State.measuring frozen.rest :), fun l held => ?_⟩
  rwa [State.holdsClaim, store] at held

theorem Undisturbed.measure (h : Undisturbed s t) (l : Fin 12) : t.measure l = s.measure l := by
  rw [State.measure, State.measure, h.measuring]

theorem Undisturbed.port (h : Undisturbed s t) (l : Fin 12) : t.port l = s.port l := by
  rw [State.port, State.port, h.ports]

theorem Undisturbed.free (h : Undisturbed s t) {l : Fin 12} (free : s.holdsClaim (.intake l) = false) :
    t.holdsClaim (.intake l) = false :=
  Bool.eq_false_iff.2 fun held => Bool.eq_false_iff.1 free (h.claims l held)

end

/-! ## The start and what follows its association -/

/-- The link may act on the readout start of exposure `e` at the head of its buffer (R9, R97). -/
structure State.Starts (s : State) (l : Fin 12) (e row : Nat) (rest : List BufItem) : Prop where
  idle : s.host.requests = []
  measure : s.measure l = []
  free : s.holdsClaim (.intake l) = false
  buffer : (s.port l).buffer = .start e row :: rest

section
variable {s u v : State} {l : Fin 12} {e row : Nat} {rest : List BufItem}

theorem State.Starts.exec (h : s.Starts l e row rest) : exec (.readoutStart l) s =
    .next (State.outboundGrant (State.settle (((s.startTaken l e rest).associate l e row).resumeLink l))) := by
  rw [exec_readoutStart h.idle, State.readoutStart_of_start h.measure h.free h.buffer]

theorem State.startTaken_undisturbed : { s with ports := (s.startTaken l e rest).ports, cal := (s.startTaken l e rest).cal } =
    s.startTaken l e rest := by
  have kept := State.startTaken_rest (s := s) (l := l) (e := e) (rest := rest)
  generalize s.startTaken l e rest = t at kept ⊢
  exact (congrArg (fun x : State => ({ x with ports := t.ports, cal := t.cal } : State)) kept :).symm

theorem State.startTaken_buffer : ((s.startTaken l e rest).port l).buffer = rest := by rw [State.startTaken_port]; rfl

/-- With no tile to fill, the intake drops the rows and END markers behind the start. -/
theorem State.Starts.unheld (h : s.Starts l e row rest) (unarmed : ∀ a, (s.segCal (segmentOf l a)).armed = false)
    (run : (s.startTaken l e rest).associate l e row = v) (still : Undisturbed (s.startTaken l e rest) v)
    (empty : rest = [] ∨ ∀ a, v.fillingTile (segmentOf l a) = none) :
    ∃ t, Machine.exec (.readoutStart l) s = .next t ∧ (t.port l).buffer = laterItems rest ∧ TilesSame v t := by
  have taken := State.startTaken_of_unarmed (e := e) (rest := rest) unarmed
  have quiet : v.measure l = [] := by
    rw [still.measure, taken]
    exact h.measure
  have free : v.holdsClaim (.intake l) = false := still.free (by rw [taken]; exact h.free)
  have buffer : (v.port l).buffer = rest := by rw [still.port, State.startTaken_buffer]
  have same := TilesSame.settled_granted (v.setBuffer l (laterItems rest))
  refine ⟨_, ?_, ?_, ⟨same.tiles, same.slots, same.measuring⟩⟩
  · rw [h.exec, run, State.resumeLink_unheld quiet free buffer empty]
  · rw [State.settled_granted_port]
    exact congrArg Port.buffer ((State.port_setPort v l l _).trans (if_pos rfl))

/-- With a tile to fill, the row behind the start claims its write. -/
theorem State.Starts.claimable (h : s.Starts l e row rest) (unarmed : ∀ a, (s.segCal (segmentOf l a)).armed = false)
    (run : (s.startTaken l e rest).associate l e row = v) (still : Undisturbed (s.startTaken l e rest) v)
    (head : rest = [] ∨ ∃ (b : BufRow) (tail : List BufItem) (sr : SlotRow) (more : List SlotRow),
      rest = .row b :: tail ∧ b.slots = sr :: more ∧ v.fillingTile (segmentOf l sr.slot) ≠ none) :
    ∃ t, Machine.exec (.readoutStart l) s = .next t ∧ (t.port l).buffer = rest ∧ (rest ≠ [] → t.holdsClaim (.intake l) = true)
      ∧ t.cal = v.cal ∧ TilesSame v t := by
  have taken := State.startTaken_of_unarmed (e := e) (rest := rest) unarmed
  have quiet : v.measure l = [] := by
    rw [still.measure, taken]
    exact h.measure
  have free : v.holdsClaim (.intake l) = false := still.free (by rw [taken]; exact h.free)
  have buffer : (v.port l).buffer = rest := by rw [still.port, State.startTaken_buffer]
  refine ⟨_, by rw [h.exec, run, State.resumeLink_claimable quiet free buffer head], ?_, fun some => ?_, ?_, ?_⟩
  · rw [State.settled_granted_port]
    split <;> exact buffer
  · rw [if_neg some, State.outboundGrant_holdsClaim]
    exact State.holdsClaim_settle (v.holdsClaim_claim_self _)
  · split
    · exact ((congrArg State.cal (Outbound.outboundGrant _).rest :)).trans (congrArg State.cal (Settled.settle v).rest :)
    · exact ((congrArg State.cal (Outbound.outboundGrant _).rest :)).trans (congrArg State.cal (Settled.settle (v.claim (.intake l))).rest :)
  · split
    · exact .settled_granted v
    · have claimed : TilesSame v (v.claim (.intake l)) := ⟨rfl, rfl, rfl⟩
      exact claimed.trans (.settled_granted _)

end

/-! ## A start that no exposure waits for -/

section
variable {s : State} {l : Fin 12} {e row : Nat} {rest : List BufItem}

theorem State.associate_of_absent (absent : s.slotOf e = none) :
    s.associate l e row = s.raise .readoutIgnored (code8 l.val ++ code16 e ++ code16 row) := by
  unfold State.associate
  rw [absent]

theorem State.transfers_eq (s : State) (l : Fin 12) (as : List (Fin 8)) : s.transfers l as = { s with cal := (s.transfers l as).cal } := by
  have kept := State.transfers_rest (l := l) as s
  generalize s.transfers l as = t at kept ⊢
  exact (congrArg (fun x : State => ({ x with cal := t.cal } : State)) kept :)

theorem State.startTaken_slotOf : (s.startTaken l e rest).slotOf e = s.slotOf e := by
  rw [← State.startTaken_undisturbed]
  rfl

/-- R12, R43. The start is ignored, but its link's armed transfers and its latch are done. -/
theorem State.Starts.ignored (h : s.Starts l e row rest)
    (empty : rest = [] ∨ ∀ a, s.fillingTile (segmentOf l a) = none) (absent : s.slotOf e = none) :
    Machine.exec (.readoutStart l) s = .next (State.outboundGrant (State.settle
      (State.raise { s with
          cal := (s.transfers l allAmplifiers).cal
          ports := s.ports.set l.val { (s.port l).startTaken ((s.port l).latch e none) rest with buffer := laterItems rest } l.isLt }
        .readoutIgnored (code8 l.val ++ code16 e ++ code16 row)))) := by
  have taken : s.startTaken l e rest = { s with
      cal := (s.transfers l allAmplifiers).cal
      ports := s.ports.set l.val ((s.port l).startTaken ((s.port l).latch e none) rest) l.isLt } := by
    rw [State.startTaken, absent, State.transfers_eq]
    rfl
  have buffer := State.startTaken_buffer (s := s) (l := l) (e := e) (rest := rest)
  rw [h.exec, State.associate_of_absent (State.startTaken_slotOf.trans absent)]
  rw [taken] at buffer ⊢
  generalize (s.transfers l allAmplifiers).cal = cal at buffer ⊢
  obtain ⟨w, started⟩ : ∃ w : State, w = { s with
      cal := cal, ports := s.ports.set l.val ((s.port l).startTaken ((s.port l).latch e none) rest) l.isLt } := ⟨_, rfl⟩
  rw [← started] at buffer ⊢
  have resumed : (w.raise .readoutIgnored (code8 l.val ++ code16 e ++ code16 row)).resumeLink l =
      (w.setBuffer l (laterItems rest)).raise .readoutIgnored (code8 l.val ++ code16 e ++ code16 row) :=
    State.resumeLink_unheld (by rw [started]; exact h.measure) (by rw [started]; exact h.free) buffer (by rw [started]; exact empty)
  rw [resumed, State.setBuffer, State.modPort]
  have port : w.port l = (s.port l).startTaken ((s.port l).latch e none) rest := by
    rw [started]
    exact (State.port_setPort s l l _).trans (if_pos rfl)
  rw [port, started]
  refine congrArg (fun ports : Vector Port 12 => Host.Outcome.next (State.outboundGrant (State.settle
    (State.raise { s with cal := cal, ports := ports } .readoutIgnored (code8 l.val ++ code16 e ++ code16 row))))) ?_
  exact (Vector.set_set ((s.port l).startTaken ((s.port l).latch e none) rest) l.isLt :)

end

end Sys2Proof.Machine
end

section
/-!
PROOF. The handling of one amplifier slot of an associated readout start, and the pressure on the store (R43, R44, R106).
-/

namespace Sys2Proof.Machine

/-! ## STORE_PRESSURE on several slots -/

/-- STORE_PRESSURE freezes the slot. -/
def State.Pressable (s : State) (j : Fin 4) : Prop := (s.slot j).freezable = true ∧ s.heldTiles j ≠ []

/-- STORE_PRESSURE has reached the slots `js`, with the placement unit busy. -/
structure State.Pressed (s t : State) (js : List (Fin 4)) : Prop where
  still : Undisturbed s t
  place : t.place = s.place
  frozen : ∀ j ∈ js, s.Pressable j → t.slot j = (s.slot j).freeze
  kept : ∀ j, (j ∉ js ∨ ¬s.Pressable j) → t.slot j = s.slot j
  queue : t.tiles.queue = s.tiles.queue ++ js.flatMap fun j => if (s.slot j).freezable = true then s.heldTiles j else []
  filling : ∀ n, (t.tile n).state = .filling → t.tile n = s.tile n

section
variable {s t : State} (at_ : Fin 96)

theorem State.pressSlot_of_not_pressable {k : Fin 4} (no : ¬s.Pressable k) : s.pressSlot at_ k = s := by
  by_cases bare : s.heldTiles k = []
  · exact State.pressSlot_of_bare at_ bare
  · rw [State.pressSlot_of_held at_ bare]
    exact State.freezeSlot_of_not_freezable _ (Bool.eq_false_iff.2 fun can => no ⟨can, bare⟩) _ _

theorem State.Pressed.nil (s : State) : s.Pressed s [] :=
  ⟨.refl s, rfl, fun _ mem => (nomatch mem), fun _ _ => rfl, (List.append_nil _).symm, fun _ _ => rfl⟩

theorem State.Pressed.one (busy : s.place ≠ none) (k : Fin 4) : s.Pressed (s.pressSlot at_ k) [k] := by
  by_cases can : s.Pressable k
  · have frozen := State.freezeSlot_of_busy can.1 busy .storePressure (some at_)
    rw [State.pressSlot_of_held at_ can.2]
    refine ⟨.of_frozen frozen, frozen.place, fun j mem _ => ?_, fun j no => ?_, ?_, fun n now => ?_⟩
    · rw [List.mem_singleton.1 mem]
      exact frozen.slot
    · refine frozen.others j fun same => ?_
      subst same
      exact no.elim (fun out => out (List.mem_singleton_self _)) fun h => h can
    · rw [frozen.queue, List.flatMap_singleton, if_pos can.1]
    · rw [frozen.tile] at now ⊢
      by_cases held : n ∈ s.heldTiles k
      · rw [if_pos held] at now
        exact nomatch now
      · rw [if_neg held]
  · rw [State.pressSlot_of_not_pressable at_ can]
    refine ⟨.refl s, rfl, fun j mem h => absurd (List.mem_singleton.1 mem ▸ h) can, fun _ _ => rfl, ?_, fun _ _ => rfl⟩
    rw [List.flatMap_singleton]
    by_cases free : (s.slot k).freezable = true
    · rw [if_pos free, Classical.not_not.1 fun held => can ⟨free, held⟩, List.append_nil]
    · rw [if_neg free, List.append_nil]

/-- The pressure on one slot leaves what it does to another. -/
theorem State.pressSlot_pressable (busy : s.place ≠ none) {j k : Fin 4} (other : j ≠ k) :
    (s.pressSlot at_ k).Pressable j ↔ s.Pressable j := by
  obtain ⟨slot, held, -⟩ := State.pressSlot_others at_ busy other
  rw [State.Pressable, State.Pressable, slot, held]

/-- The pressure, slot by slot. -/
theorem State.Pressed.cons {k : Fin 4} {js : List (Fin 4)} (absent : k ∉ js) (busy : s.place ≠ none)
    (more : (s.pressSlot at_ k).Pressed t js) : s.Pressed t (k :: js) := by
  have one := State.Pressed.one at_ busy k
  refine ⟨one.still.trans more.still, more.place.trans one.place, fun j mem can => ?_, fun j no => ?_, ?_, fun n now => ?_⟩
  · by_cases here : j = k
    · subst here
      rw [more.kept j (.inl absent)]
      exact one.frozen j (List.mem_singleton_self j) can
    · rw [more.frozen j ((List.mem_cons.1 mem).resolve_left here) ((State.pressSlot_pressable at_ busy here).2 can),
        (State.pressSlot_others at_ busy here).1]
  · by_cases here : j = k
    · subst here
      rw [more.kept j (.inl absent)]
      exact one.kept j (no.imp_left fun out => absurd List.mem_cons_self out)
    · rw [more.kept j (no.imp (fun out mem => out (List.mem_cons_of_mem _ mem)) fun cannot can =>
        cannot ((State.pressSlot_pressable at_ busy here).1 can)), (State.pressSlot_others at_ busy here).1]
  · rw [more.queue, one.queue, List.flatMap_singleton, List.flatMap_cons, List.append_assoc]
    refine congrArg (s.tiles.queue ++ ·) (congrArg ((if (s.slot k).freezable = true then s.heldTiles k else []) ++ ·) ?_)
    refine List.flatMap_congr fun j mem => ?_
    obtain ⟨slot, held, -⟩ := State.pressSlot_others at_ busy (j := j) (k := k) fun same => absent (same ▸ mem)
    rw [slot, held]
  · have later := more.filling n now
    rw [later] at now ⊢
    exact one.filling n now

theorem State.Pressed.foldl (js : List (Fin 4)) : ∀ {s : State}, s.place ≠ none → js.Nodup →
    s.Pressed (js.foldl (State.pressSlot at_) s) js := by
  induction js with
  | nil => exact fun _ _ => .nil _
  | cons k js ih =>
    intro s busy nodup
    obtain ⟨absent, nodup⟩ := List.nodup_cons.1 nodup
    have busy' : (s.pressSlot at_ k).place ≠ none := by rw [(State.Pressed.one at_ busy k).place]; exact busy
    exact .cons at_ absent busy (ih busy' nodup)

/-- STORE_PRESSURE, while the placement unit is busy. -/
theorem State.pressFreeze_pressed (busy : s.place ≠ none) : s.Pressed (s.pressFreeze State.take at_) allSlots :=
  .foldl at_ allSlots busy allSlots_nodup

/-- No tile starts to fill. -/
theorem State.Pressed.fillingTile {js : List (Fin 4)} (h : s.Pressed t js) {g : Fin 96} (shut : s.fillingTile g = none) :
    t.fillingTile g = none := by
  rw [State.fillingTile, List.find?_eq_none] at shut ⊢
  intro n mem open_
  refine shut n mem ?_
  have now : (t.tile n).state = .filling := (of_decide_eq_true open_).1
  rw [← h.filling n now]
  exact open_

end

/-! ## One amplifier slot (R44) -/

/-- The record of the segment fits the link. -/
def State.Fits (s : State) (l : Fin 12) (g : Fin 96) : Prop :=
  ∃ r, (s.segCal g).active = some r ∧ r.mismatch (s.port l).cfg = none

section
variable {s : State} {l : Fin 12} {k : Fin 4} {e : Nat} {lat : Latched} {a : Fin 8}

theorem State.startSegment_of_unfit {g : Fin 96} (unfit : ¬s.Fits l g) :
    s.startSegment l k e lat g = s.resolve State.take k g .noCalibration := by
  unfold State.startSegment
  dsimp only
  split
  · rfl
  · next r active => exact if_pos fun fits => unfit ⟨r, active, fits⟩

theorem State.startSegment_of_full {g : Fin 96} (fits : s.Fits l g) (full : s.freeTile = none) :
    s.startSegment l k e lat g = (s.resolve State.take k g .storeFull).pressFreeze State.take g := by
  obtain ⟨r, active, fit⟩ := fits
  unfold State.startSegment
  dsimp only
  rw [active, full]
  exact if_neg fun unfit => unfit fit

/-- The record of the tile allocated to a segment that fits. -/
def State.newTile (s : State) (l : Fin 12) (k : Fin 4) (e : Nat) (lat : Latched) (g : Fin 96) : Tile :=
  { Tile.empty with
    state := .filling, owner := some k, exposure := e, segment := g, cal := (s.segCal g).active
    generation := (s.segCal g).generation, columns := (s.port l).cfg.active, rows := (s.port l).cfg.rows
    limit := (s.port l).cfg.missing, time := lat.time.getD 0, temp := lat.temp, nominal := lat.nominal, warm := lat.warm }

theorem State.startSegment_of_free {g : Fin 96} {n : Fin 40} (fits : s.Fits l g) (room : s.freeTile = some n) :
    s.startSegment l k e lat g = (s.setTile n (s.newTile l k e lat g)).setSlot k ((s.slot k).setEntry g .inStore) := by
  obtain ⟨r, active, fit⟩ := fits
  unfold State.startSegment State.newTile
  dsimp only
  rw [active, room]
  exact if_neg fun unfit => unfit fit

variable (tagged : (s.slot k).state ≠ .free ∧ (s.slot k).exposure = e)
include tagged

theorem State.handleSegment_of_started (again : (s.slot k).entry (segmentOf l a) ≠ .notStarted) :
    s.handleSegment l k e lat a = s.setSlot k { s.slot k with duplicates := min 65535 ((s.slot k).duplicates + 1) } := by
  have count : satAdd Config.sat16 (s.slot k).duplicates 1 = min 65535 ((s.slot k).duplicates + 1) := by
    rw [satAdd, Config.sat16]
    split <;> omega
  rw [← count, State.handleSegment]
  exact (if_neg fun h => h.elim tagged.1 fun other => other tagged.2).trans (if_pos again)

theorem State.handleSegment_of_unplanned (first : (s.slot k).entry (segmentOf l a) = .notStarted) (shut : (s.slot k).state ≠ .opened)
    (unplanned : (s.slot k).planned (segmentOf l a) = false) : s.handleSegment l k e lat a = s := by
  have unlisted : (s.slot k).listed (segmentOf l a) = false := by rw [ExpSlot.listed, unplanned, Bool.and_false]
  rw [State.handleSegment]
  exact (if_neg fun h => h.elim tagged.1 fun other => other tagged.2).trans ((if_neg fun again => again first).trans (if_pos ⟨shut, unlisted⟩))

theorem State.handleSegment_of_first (first : (s.slot k).entry (segmentOf l a) = .notStarted)
    (takes : (s.slot k).state = .opened ∨ (s.slot k).listed (segmentOf l a) = true) :
    s.handleSegment l k e lat a = s.startSegment l k e lat (segmentOf l a) := by
  rw [State.handleSegment]
  refine (if_neg fun h => h.elim tagged.1 fun other => other tagged.2).trans ((if_neg fun again => again first).trans (if_neg ?_))
  rintro ⟨shut, unlisted⟩
  rcases takes with opened | listed
  · exact shut opened
  · exact nomatch listed.symm.trans unlisted

end

/-! ## The association -/

/-- The slot at the first readout of its exposure: its timer runs. -/
def ExpSlot.begin (x : ExpSlot) : ExpSlot := { x with timer := if x.timer = .notStarted then .running else x.timer }

section
variable {s : State} {l : Fin 12} {e row : Nat} {rest : List BufItem} {k : Fin 4}

theorem State.associate_of_found (found : s.slotOf e = some k) :
    s.associate l e row = State.settleSlot ((s.port l).cfg.enabled.foldl
      (State.handleSegment l k e ((s.port l).latch e (some (s.slot k).nominal))) (s.setSlot k (s.slot k).begin)) k := by
  have begun : (if (s.slot k).timer = .notStarted then { s.slot k with timer := .running } else s.slot k) = (s.slot k).begin := by
    rw [ExpSlot.begin]
    split <;> rfl
  unfold State.associate
  rw [found, ← begun]
  rfl

/-- R12, R43. The association of a start with its exposure, on a link without an armed segment. -/
theorem State.startTaken_associate (unarmed : ∀ a, (s.segCal (segmentOf l a)).armed = false) (found : s.slotOf e = some k) :
    (s.startTaken l e rest).associate l e row = State.settleSlot ((s.port l).cfg.enabled.foldl
      (State.handleSegment l k e ((s.port l).latch e (some (s.slot k).nominal)))
      ((s.startTaken l e rest).setSlot k (s.slot k).begin)) k := by
  have port := State.startTaken_port (s := s) (l := l) (e := e) (rest := rest)
  rw [State.associate_of_found (State.startTaken_slotOf.trans found), port, State.startTaken_of_unarmed unarmed]
  rfl

/-- A link with one enabled amplifier slot. -/
theorem LinkConfig.enabled_of_one {c : LinkConfig} {a : Fin 8} (one : ∀ b : Fin 8, c.slots.getLsbD b.val = true ↔ b = a) :
    c.enabled = [a] := by
  have only : c.enabled = allAmplifiers.filter fun b => decide (b = a) := List.filter_congr fun b _ => by
    rw [Bool.eq_iff_iff, decide_eq_true_iff]
    exact one b
  rw [only]
  clear only one
  revert a
  decide

end

end Sys2Proof.Machine
end

section
/-!
PROOF. A readout start on a link with one enabled amplifier slot (R43, R44).
-/

namespace Sys2Proof.Machine

/-! ## What changes one slot only -/

/-- The slot `k` becomes `y`; no other slot and no tile changes. -/
structure State.OnlySlot (s t : State) (k : Fin 4) (y : ExpSlot) : Prop where
  slot : t.slot k = y
  others : ∀ j, j ≠ k → t.slot j = s.slot j
  tiles : t.tiles = s.tiles
  still : Undisturbed s t

section
variable {s t u : State} {k : Fin 4} {x y : ExpSlot}

theorem State.OnlySlot.trans (a : s.OnlySlot t k x) (b : t.OnlySlot u k y) : s.OnlySlot u k y :=
  ⟨b.slot, fun j other => (b.others j other).trans (a.others j other), b.tiles.trans a.tiles, a.still.trans b.still⟩

theorem State.OnlySlot.refl (slot : s.slot k = y) : s.OnlySlot s k y := ⟨slot, fun _ _ => rfl, rfl, .refl s⟩

theorem State.OnlySlot.setSlot (s : State) (k : Fin 4) (y : ExpSlot) : s.OnlySlot (s.setSlot k y) k y :=
  ⟨(State.slot_setSlot ..).trans (if_pos rfl), fun _ other => (State.slot_setSlot ..).trans (if_neg (Ne.symm other)), rfl, .setSlot s k y⟩

theorem State.OnlySlot.settle_of_open (h : s.OnlySlot t k y) (open_ : y.isCommitted = false) : s.OnlySlot (t.settleSlot k) k y := by
  rw [State.settleSlot_of_uncommitted (by rw [h.slot]; exact open_)]
  exact h

/-- A committed slot whose timer runs is READING while a listed segment has not started. -/
theorem State.OnlySlot.settle_of_running (h : s.OnlySlot t k y) (committed : y.isCommitted = true) (running : y.timer = .running)
    (awaits : y.awaits = true) : s.OnlySlot (t.settleSlot k) k { y with state := .reading } := by
  rw [State.settleSlot_of_running (by rw [h.slot]; exact committed) (by rw [h.slot]; exact running) (by rw [h.slot]; exact awaits), h.slot]
  exact h.trans (.setSlot t k _)

theorem State.OnlySlot.recordResolution {g : Fin 96} (first : ((s.slot k).entry g).isResolved = false) (why : Reason) :
    s.OnlySlot (s.recordResolution k g why) k ((s.slot k).resolve g why) := by
  have side := State.recordResolution_side first why
  have set := State.OnlySlot.setSlot s k ((s.slot k).resolve g why)
  exact ⟨(side.slot k).trans set.slot, fun j other => (side.slot j).trans (set.others j other), side.tilesSame.tiles,
    .recordResolution s k g why⟩

theorem State.OnlySlot.resolve_of_open {g : Fin 96} (first : ((s.slot k).entry g).isResolved = false) (why : Reason)
    (open_ : (s.slot k).isCommitted = false) : s.OnlySlot (s.resolve State.take k g why) k ((s.slot k).resolve g why) := by
  rw [State.resolve_of_uncommitted _ first why open_]
  exact .setSlot s k _

theorem State.OnlySlot.resolve_of_running {g : Fin 96} (first : ((s.slot k).entry g).isResolved = false) (why : Reason)
    (committed : (s.slot k).isCommitted = true) (running : (s.slot k).timer = .running)
    (awaits : ((s.slot k).resolve g why).awaits = true) (mode : (s.slot k).photo.mode ≠ .settled) :
    s.OnlySlot (s.resolve State.take k g why) k { (s.slot k).resolve g why with state := .reading } := by
  have settled := (State.OnlySlot.recordResolution first why).settle_of_running committed running awaits
  rw [State.resolve_of_first _ first, State.exhaustedTest_of_not_freezable]
  · exact settled
  · rw [settled.slot]
    exact decide_eq_false fun can => mode can.2.1

end

/-- Another segment to come keeps the slot waiting. -/
theorem ExpSlot.awaits_of_other {x y : ExpSlot} {g : Fin 96} (other : ∃ p ∈ x.placements, p.segment ≠ g ∧ x.entry p.segment = .notStarted)
    (placements : y.placements = x.placements) (entries : ∀ h, h ≠ g → y.entry h = x.entry h) : y.awaits = true := by
  obtain ⟨p, mem, apart, late⟩ := other
  exact ExpSlot.awaits_iff.2 ⟨p, placements ▸ mem, (entries _ apart).trans late⟩

theorem ExpSlot.resolve_entry {x : ExpSlot} {g h : Fin 96} (other : h ≠ g) (why : Reason) : (x.resolve g why).entry h = x.entry h :=
  (ExpSlot.entry_setEntry x g h (.resolved why)).trans (if_neg (Ne.symm other))

/-! ## The start, its slot's timer running -/

/-- The part as a start of the exposure in slot `k` is taken: the latch is done and the slot's timer runs. -/
def State.begun (s : State) (l : Fin 12) (e : Nat) (rest : List BufItem) (k : Fin 4) : State :=
  (s.startTaken l e rest).setSlot k (s.slot k).begin

/-- The values latched for the exposure in slot `k`. -/
def State.latchOf (s : State) (l : Fin 12) (e : Nat) (k : Fin 4) : Latched := (s.port l).latch e (some (s.slot k).nominal)

/-- A readout start that slot `k` waits for, on a link without an armed segment. -/
structure State.Associates (s : State) (l : Fin 12) (e row : Nat) (rest : List BufItem) (k : Fin 4) : Prop
    extends s.Starts l e row rest where
  unarmed : ∀ a, (s.segCal (segmentOf l a)).armed = false
  found : s.slotOf e = some k

section
variable {s v : State} {l : Fin 12} {e row : Nat} {rest : List BufItem} {k : Fin 4} {a : Fin 8} {g : Fin 96}

theorem State.begun_slot : (s.begun l e rest k).slot k = (s.slot k).begin := (State.slot_setSlot ..).trans (if_pos rfl)

theorem State.begins : Undisturbed (s.startTaken l e rest) (s.begun l e rest k) := by
  rw [State.begun]
  exact .setSlot _ k _

variable (h : s.Associates l e row rest k)
include h

theorem State.Associates.begun_eq : s.begun l e rest k = (s.setPort l ((s.port l).startTaken
    ((s.port l).latch e ((s.slotOf e).map fun k => (s.slot k).nominal)) rest)).setSlot k (s.slot k).begin := by
  rw [State.begun, State.startTaken_of_unarmed h.unarmed]

theorem State.Associates.begun_tiles : (s.begun l e rest k).tiles = s.tiles := by
  rw [h.begun_eq]
  rfl

theorem State.Associates.begun_tile (n : Fin 40) : (s.begun l e rest k).tile n = s.tile n := by
  rw [State.tile, State.tile, h.begun_tiles]

theorem State.Associates.begun_place : (s.begun l e rest k).place = s.place := by
  rw [h.begun_eq]
  rfl

theorem State.Associates.begun_other {j : Fin 4} (other : j ≠ k) : (s.begun l e rest k).slot j = s.slot j := by
  rw [h.begun_eq, State.slot_setSlot, if_neg (Ne.symm other)]
  rfl

theorem State.Associates.begun_segCal (g : Fin 96) : (s.begun l e rest k).segCal g = s.segCal g := by
  rw [h.begun_eq]
  rfl

omit h in
theorem State.begun_port : (s.begun l e rest k).port l =
    (s.port l).startTaken ((s.port l).latch e ((s.slotOf e).map fun k => (s.slot k).nominal)) rest := by
  rw [State.begins.port, State.startTaken_port]

theorem State.Associates.begun_fits : (s.begun l e rest k).Fits l g ↔ s.Fits l g := by
  rw [State.Fits, State.Fits, h.begun_segCal, State.begun_port]
  rfl

theorem State.Associates.begun_freeTile : (s.begun l e rest k).freeTile = s.freeTile := by
  simp only [State.freeTile, h.begun_tile]

theorem State.Associates.begun_heldTiles (j : Fin 4) : (s.begun l e rest k).heldTiles j = s.heldTiles j := by
  simp only [State.heldTiles, h.begun_tile, h.begun_tiles]

theorem State.Associates.tagged : ((s.begun l e rest k).slot k).state ≠ .free ∧ ((s.begun l e rest k).slot k).exposure = e := by
  obtain ⟨-, live, tag⟩ := State.slotOf_spec h.found
  rw [State.begun_slot]
  exact ⟨live, tag⟩

theorem State.Associates.associate : (s.startTaken l e rest).associate l e row =
    State.settleSlot ((s.port l).cfg.enabled.foldl (State.handleSegment l k e (s.latchOf l e k)) (s.begun l e rest k)) k :=
  State.startTaken_associate h.unarmed h.found

/-- The tiles that fill are those of before; the rows without one leave the buffer. -/
theorem State.Associates.leads (run : (s.startTaken l e rest).associate l e row = v) (still : Undisturbed (s.begun l e rest k) v)
    (filling : ∀ g, (s.begun l e rest k).fillingTile g = none → v.fillingTile g = none)
    (empty : rest = [] ∨ ∀ a, s.fillingTile (segmentOf l a) = none) :
    ∃ t, exec (.readoutStart l) s = .next t ∧ (t.port l).buffer = laterItems rest ∧ TilesSame v t := by
  have begins := State.begins (s := s) (l := l) (e := e) (rest := rest) (k := k)
  refine h.unheld h.unarmed run (begins.trans still) (empty.imp_right fun shut a => filling _ ?_)
  rw [State.fillingTile]
  simp only [h.begun_tile]
  exact shut a

/-- R43, R44, where the start changes one slot and no tile. -/
theorem State.Associates.leads_quiet (one : (s.port l).cfg.enabled = [a]) {y : ExpSlot}
    (only : (s.begun l e rest k).OnlySlot
      (((s.begun l e rest k).handleSegment l k e (s.latchOf l e k) a).settleSlot k) k y)
    (empty : rest = [] ∨ ∀ a, s.fillingTile (segmentOf l a) = none) :
    ∃ t, exec (.readoutStart l) s = .next t ∧ (t.port l).buffer = laterItems rest
      ∧ t.slot k = y ∧ (∀ j, j ≠ k → t.slot j = s.slot j) ∧ t.tiles = s.tiles := by
  have run := h.associate
  rw [one, List.foldl_cons, List.foldl_nil] at run
  generalize ((s.begun l e rest k).handleSegment l k e (s.latchOf l e k) a).settleSlot k = v at run only
  obtain ⟨t, next, buffer, same⟩ := h.leads run only.still (fun g shut => by
    rw [State.fillingTile] at shut ⊢
    simp only [State.tile, only.tiles]
    exact shut) empty
  exact ⟨t, next, buffer, (same.slot k).trans only.slot, fun j other => (same.slot j).trans ((only.others j other).trans (h.begun_other other)),
    same.tiles.trans (only.tiles.trans h.begun_tiles)⟩

end

end Sys2Proof.Machine
end

section
/-!
PROOF. The cases of a readout start on a link with one enabled amplifier slot (R43, R44).
-/

namespace Sys2Proof.Machine

theorem ExpSlot.begin_timer {x : ExpSlot} (timer : x.timer ∈ [.notStarted, .running]) : x.begin.timer = .running := by
  rw [ExpSlot.begin]
  rcases List.mem_pair.1 timer with h | h <;> simp [h]

theorem ExpSlot.begin_committed {x : ExpSlot} (committed : x.state ∈ [.committed, .reading, .placing]) : x.begin.isCommitted = true :=
  ExpSlot.isCommitted_iff.2 committed

theorem Entry.isResolved_notStarted {e : Entry} (first : e = .notStarted) : e.isResolved = false := by
  rw [first]
  rfl

/-! ## The lowest free tile -/

theorem State.freeTile_eq_none {s : State} : s.freeTile = none ↔ ∀ n, (s.tile n).state ≠ .free := by
  simp [State.freeTile, List.find?_eq_none, allTiles]

theorem State.freeTile_of_lowest {s : State} {n : Fin 40} (free : (s.tile n).state = .free)
    (lowest : ∀ m, m < n → (s.tile m).state ≠ .free) : s.freeTile = some n := by
  refine List.find?_eq_some_iff_getElem.2 ⟨decide_eq_true free, n.val, by simp [allTiles], by simp [allTiles], fun j before => ?_⟩
  have below : allTiles[j]'(by simp [allTiles]; omega) < n := by
    simp only [allTiles, List.getElem_finRange]
    exact before
  simp [lowest _ below]

section
variable {s : State} {l : Fin 12} {e row : Nat} {rest : List BufItem} {k : Fin 4} {a : Fin 8}
  (h : s.Associates l e row rest k) (one : (s.port l).cfg.enabled = [a])
include h

theorem State.Associates.handled_again (again : (s.slot k).entry (segmentOf l a) ≠ .notStarted) :
    (s.begun l e rest k).OnlySlot ((s.begun l e rest k).handleSegment l k e (s.latchOf l e k) a) k
      { (s.slot k).begin with duplicates := min 65535 ((s.slot k).duplicates + 1) } := by
  have slot := State.begun_slot (s := s) (l := l) (e := e) (rest := rest) (k := k)
  rw [State.handleSegment_of_started h.tagged (by rw [slot]; exact again), slot]
  exact .setSlot _ k _

theorem State.Associates.handled_unplanned (first : (s.slot k).entry (segmentOf l a) = .notStarted) (shut : (s.slot k).state ≠ .opened)
    (unplanned : (s.slot k).planned (segmentOf l a) = false) :
    (s.begun l e rest k).OnlySlot ((s.begun l e rest k).handleSegment l k e (s.latchOf l e k) a) k (s.slot k).begin := by
  have slot := State.begun_slot (s := s) (l := l) (e := e) (rest := rest) (k := k)
  rw [State.handleSegment_of_unplanned h.tagged (by rw [slot]; exact first) (by rw [slot]; exact shut) (by rw [slot]; exact unplanned)]
  exact .refl slot

theorem State.Associates.handled_first (first : (s.slot k).entry (segmentOf l a) = .notStarted)
    (takes : (s.slot k).state = .opened ∨ (s.slot k).listed (segmentOf l a) = true) :
    (s.begun l e rest k).handleSegment l k e (s.latchOf l e k) a =
      (s.begun l e rest k).startSegment l k e (s.latchOf l e k) (segmentOf l a) := by
  have slot := State.begun_slot (s := s) (l := l) (e := e) (rest := rest) (k := k)
  exact State.handleSegment_of_first h.tagged (by rw [slot]; exact first) (by rw [slot]; exact takes)

theorem State.Associates.handled_unfit (first : (s.slot k).entry (segmentOf l a) = .notStarted)
    (takes : (s.slot k).state = .opened ∨ (s.slot k).listed (segmentOf l a) = true) (unfit : ¬s.Fits l (segmentOf l a)) :
    (s.begun l e rest k).handleSegment l k e (s.latchOf l e k) a =
      (s.begun l e rest k).resolve State.take k (segmentOf l a) .noCalibration := by
  rw [h.handled_first first takes, State.startSegment_of_unfit (h.begun_fits.not.2 unfit)]

theorem State.Associates.handled_unfit_open (first : (s.slot k).entry (segmentOf l a) = .notStarted)
    (opened : (s.slot k).state = .opened) (unfit : ¬s.Fits l (segmentOf l a)) :
    (s.begun l e rest k).OnlySlot ((s.begun l e rest k).handleSegment l k e (s.latchOf l e k) a) k
      ((s.slot k).begin.resolve (segmentOf l a) .noCalibration) := by
  have slot := State.begun_slot (s := s) (l := l) (e := e) (rest := rest) (k := k)
  rw [h.handled_unfit first (.inl opened) unfit, ← slot]
  refine .resolve_of_open ?_ _ ?_
  · rw [slot]
    exact Entry.isResolved_notStarted first
  · rw [slot]
    exact ExpSlot.not_isCommitted_of_opened opened

theorem State.Associates.handled_unfit_committed (first : (s.slot k).entry (segmentOf l a) = .notStarted)
    (committed : (s.slot k).state ∈ [.committed, .reading, .placing]) (timer : (s.slot k).timer ∈ [.notStarted, .running])
    (other : ∃ p ∈ (s.slot k).placements, p.segment ≠ segmentOf l a ∧ (s.slot k).entry p.segment = .notStarted)
    (planned : (s.slot k).planned (segmentOf l a) = true) (unfit : ¬s.Fits l (segmentOf l a)) (mode : (s.slot k).photo.mode ≠ .settled) :
    (s.begun l e rest k).OnlySlot ((s.begun l e rest k).handleSegment l k e (s.latchOf l e k) a) k
      { (s.slot k).begin.resolve (segmentOf l a) .noCalibration with state := .reading } := by
  have slot := State.begun_slot (s := s) (l := l) (e := e) (rest := rest) (k := k)
  have listed : (s.slot k).listed (segmentOf l a) = true := by
    rw [ExpSlot.listed, planned, Bool.and_true]
    exact ExpSlot.isCommitted_iff.2 committed
  rw [h.handled_unfit first (.inr listed) unfit, ← slot]
  refine .resolve_of_running ?_ _ ?_ ?_ ?_ ?_
  · rw [slot]
    exact Entry.isResolved_notStarted first
  · rw [slot]
    exact ExpSlot.begin_committed committed
  · rw [slot]
    exact ExpSlot.begin_timer timer
  · rw [slot]
    exact ExpSlot.awaits_of_other other rfl fun g apart => ExpSlot.resolve_entry (x := (s.slot k).begin) apart _
  · rw [slot]
    exact mode

/-! ## A full store -/

theorem State.Associates.handled_full (first : (s.slot k).entry (segmentOf l a) = .notStarted) (opened : (s.slot k).state = .opened)
    (fits : s.Fits l (segmentOf l a)) (full : ∀ n, (s.tile n).state ≠ .free) :
    (s.begun l e rest k).handleSegment l k e (s.latchOf l e k) a =
      ((s.begun l e rest k).setSlot k ((s.slot k).begin.resolve (segmentOf l a) .storeFull)).pressFreeze State.take (segmentOf l a) := by
  have slot := State.begun_slot (s := s) (l := l) (e := e) (rest := rest) (k := k)
  rw [h.handled_first first (.inl opened), State.startSegment_of_full (h.begun_fits.2 fits) (by
    rw [h.begun_freeTile]; exact State.freeTile_eq_none.2 full), State.resolve_of_uncommitted, slot]
  · rw [slot]
    exact Entry.isResolved_notStarted first
  · rw [slot]
    exact ExpSlot.not_isCommitted_of_opened opened

omit h in
/-- The pressure leaves an OPEN slot as it is, but for its scale. -/
theorem State.Pressed.settleSlot {v w : State} {j : Fin 4} (pressed : w.Pressed v allSlots) (opened : (w.slot j).state = .opened) :
    v.settleSlot j = v := by
  refine State.settleSlot_of_uncommitted (ExpSlot.not_isCommitted_of_opened ?_)
  by_cases can : w.Pressable j
  · rw [pressed.frozen j (mem_allSlots j) can]
    exact opened
  · rw [pressed.kept j (.inr can)]
    exact opened

/-- The slots of the start, but for one that keeps its state and its photometry. -/
theorem State.Associates.set_photo {y : ExpSlot} (state : y.state = (s.slot k).state) (photo : y.photo = (s.slot k).photo) (j : Fin 4) :
    (((s.begun l e rest k).setSlot k y).slot j).state = (s.slot j).state
    ∧ (((s.begun l e rest k).setSlot k y).slot j).photo = (s.slot j).photo := by
  rw [State.slot_setSlot]
  by_cases here : k = j
  · subst here
    rw [if_pos rfl]
    exact ⟨state, photo⟩
  · rw [if_neg here, h.begun_other (Ne.symm here)]
    exact ⟨rfl, rfl⟩

/-- A trigger can freeze slot `j`. -/
theorem State.Associates.set_freezable {y : ExpSlot} (state : y.state = (s.slot k).state) (photo : y.photo = (s.slot k).photo) (j : Fin 4) :
    (((s.begun l e rest k).setSlot k y).slot j).freezable = true ↔
      (s.slot j).photo.mode = .settled ∧ (s.slot j).photo.frozen = false ∧ (s.slot j).state ≠ .free := by
  obtain ⟨same, kept⟩ := h.set_photo state photo j
  rw [ExpSlot.freezable_iff, same, kept]
  exact ⟨fun ⟨live, mode, open_⟩ => ⟨mode, open_, live⟩, fun ⟨mode, open_, live⟩ => ⟨live, mode, open_⟩⟩

include one

theorem State.Associates.leads_full (first : (s.slot k).entry (segmentOf l a) = .notStarted) (opened : (s.slot k).state = .opened)
    (fits : s.Fits l (segmentOf l a)) (full : ∀ n, (s.tile n).state ≠ .free) (busy : s.place ≠ none)
    (empty : rest = [] ∨ ∀ a, s.fillingTile (segmentOf l a) = none) :
    ∃ t v, exec (.readoutStart l) s = .next t ∧ (t.port l).buffer = laterItems rest ∧ TilesSame v t
      ∧ ((s.begun l e rest k).setSlot k ((s.slot k).begin.resolve (segmentOf l a) .storeFull)).Pressed v allSlots := by
  have run := h.associate
  rw [one, List.foldl_cons, List.foldl_nil, h.handled_full first opened fits full] at run
  obtain ⟨w, set⟩ : ∃ w, w = (s.begun l e rest k).setSlot k ((s.slot k).begin.resolve (segmentOf l a) .storeFull) := ⟨_, rfl⟩
  rw [← set] at run ⊢
  have only := State.OnlySlot.setSlot (s.begun l e rest k) k ((s.slot k).begin.resolve (segmentOf l a) .storeFull)
  rw [← set] at only
  have place : w.place = s.place := by
    have same : ∀ (u : State) y, (u.setSlot k y).place = u.place := fun _ _ => rfl
    rw [set, same, h.begun_place]
  have pressed := State.pressFreeze_pressed (s := w) (segmentOf l a) (by rw [place]; exact busy)
  obtain ⟨v, frozen⟩ : ∃ v, v = w.pressFreeze State.take (segmentOf l a) := ⟨_, rfl⟩
  rw [← frozen] at run pressed
  rw [pressed.settleSlot (by rw [only.slot]; exact opened)] at run
  obtain ⟨t, next, buffer, same⟩ := h.leads run (only.still.trans pressed.still) (fun g shut => pressed.fillingTile (by
    rw [State.fillingTile] at shut ⊢
    simp only [State.tile, only.tiles]
    exact shut)) empty
  exact ⟨t, v, next, buffer, same, pressed⟩

end

end Sys2Proof.Machine
end

section
/-!
PROOF. The allocation of tiles to the segments of a readout start (R44, R80).
-/

namespace Sys2Proof.Machine

theorem segmentOf_left_injective {l : Fin 12} {a b : Fin 8} (same : segmentOf l a = segmentOf l b) : a = b := by
  have values : l.val * 8 + a.val = l.val * 8 + b.val := congrArg Fin.val same
  exact Fin.ext (by omega)

section
variable {s t u : State} {l : Fin 12} {k : Fin 4} {e : Nat} {lat : Latched} {a : Fin 8}

/-! ## Free tiles -/

theorem State.exists_freeTile (room : 1 ≤ s.freeTiles) : ∃ n, s.freeTile = some n := by
  obtain ⟨n, mem, free⟩ := List.countP_pos_iff.1 room
  refine Option.ne_none_iff_exists'.1 fun full => ?_
  exact State.freeTile_eq_none.1 full n (of_decide_eq_true free)

theorem State.freeTile_spec {n : Fin 40} (found : s.freeTile = some n) : (s.tile n).state = .free :=
  of_decide_eq_true (List.find?_some found :)

/-- One tile taken leaves the others free. -/
theorem State.freeTiles_le_setTile (s : State) (n : Fin 40) (x : Tile) : s.freeTiles ≤ (s.setTile n x).freeTiles + 1 := by
  rw [State.freeTiles, State.freeTiles, List.countP_eq_length_filter, List.countP_eq_length_filter, ← List.length_cons (a := n)]
  refine (List.subperm_of_subset ((List.nodup_finRange 40).filter _) fun m mem => ?_).length_le
  by_cases here : m = n
  · exact here ▸ List.mem_cons_self
  · refine List.mem_cons_of_mem _ (List.mem_filter.2 ⟨List.mem_finRange m, ?_⟩)
    rw [State.tile_setTile, if_neg (Ne.symm here)]
    exact (List.mem_filter.1 mem).2

/-! ## One segment -/

/-- The part with tile `n` allocated to segment `g` for slot `k`. -/
def State.allocate (s : State) (l : Fin 12) (k : Fin 4) (e : Nat) (lat : Latched) (g : Fin 96) (n : Fin 40) : State :=
  (s.setTile n (s.newTile l k e lat g)).setSlot k ((s.slot k).setEntry g .inStore)

theorem State.handleSegment_of_free {n : Fin 40} (tagged : (s.slot k).state ≠ .free ∧ (s.slot k).exposure = e)
    (first : (s.slot k).entry (segmentOf l a) = .notStarted)
    (takes : (s.slot k).state = .opened ∨ (s.slot k).listed (segmentOf l a) = true) (fits : s.Fits l (segmentOf l a))
    (room : s.freeTile = some n) : s.handleSegment l k e lat a = s.allocate l k e lat (segmentOf l a) n := by
  rw [State.handleSegment_of_first tagged first takes, State.startSegment_of_free fits room, State.allocate]

section
variable (s : State) (l : Fin 12) (k : Fin 4) (e : Nat) (lat : Latched) (g : Fin 96) (n : Fin 40)

theorem State.allocate_tile (m : Fin 40) : (s.allocate l k e lat g n).tile m = if n = m then s.newTile l k e lat g else s.tile m :=
  State.tile_setTile s n m _

theorem State.allocate_slot : (s.allocate l k e lat g n).slot k = (s.slot k).setEntry g .inStore :=
  (State.slot_setSlot ..).trans (if_pos rfl)

theorem State.allocate_other {j : Fin 4} (other : j ≠ k) : (s.allocate l k e lat g n).slot j = s.slot j :=
  (State.slot_setSlot ..).trans (if_neg (Ne.symm other))

theorem State.allocate_still : Undisturbed s (s.allocate l k e lat g n) := ⟨rfl, rfl, fun _ => id⟩

end

/-! ## The segments of a link -/

/-- Slot `k` has a tile for each of the segments of `as`. -/
structure State.Allocated (s t : State) (l : Fin 12) (k : Fin 4) (e : Nat) (lat : Latched) (as : List (Fin 8)) : Prop where
  still : Undisturbed s t
  cal : t.cal = s.cal
  slot : { t.slot k with entries := (s.slot k).entries } = s.slot k
  stored : ∀ a ∈ as, (t.slot k).entry (segmentOf l a) = .inStore
  entry : ∀ a, a ∉ as → (t.slot k).entry (segmentOf l a) = (s.slot k).entry (segmentOf l a)
  others : ∀ j, j ≠ k → t.slot j = s.slot j
  tile : ∀ a ∈ as, ∃ n, (s.tile n).state = .free ∧ t.tile n = s.newTile l k e lat (segmentOf l a)
  kept : ∀ n, (s.tile n).state ≠ .free → t.tile n = s.tile n
  room : s.freeTiles ≤ t.freeTiles + as.length

theorem State.Allocated.nil (s : State) : s.Allocated s l k e lat [] :=
  ⟨.refl s, rfl, rfl, fun _ mem => (nomatch mem), fun _ _ => rfl, fun _ _ => rfl, fun _ mem => (nomatch mem), fun _ _ => rfl, Nat.le_refl _⟩

theorem State.Allocated.one {n : Fin 40} (room : s.freeTile = some n) :
    s.Allocated (s.allocate l k e lat (segmentOf l a) n) l k e lat [a] where
  still := s.allocate_still l k e lat _ n
  cal := rfl
  slot := by rw [State.allocate_slot]; rfl
  stored b mem := by
    rw [List.mem_singleton.1 mem, State.allocate_slot, ExpSlot.entry_setEntry, if_pos rfl]
  entry b out := by
    rw [State.allocate_slot, ExpSlot.entry_setEntry, if_neg]
    exact fun same => out (List.mem_singleton.2 (segmentOf_left_injective same).symm)
  others j other := s.allocate_other l k e lat _ n other
  tile b mem := ⟨n, State.freeTile_spec room, by rw [List.mem_singleton.1 mem, State.allocate_tile, if_pos rfl]⟩
  kept m taken := by
    rw [State.allocate_tile, if_neg]
    rintro rfl
    exact taken (State.freeTile_spec room)
  room := State.freeTiles_le_setTile s n _

theorem State.Allocated.newTile {as : List (Fin 8)} (h : s.Allocated t l k e lat as) (g : Fin 96) :
    t.newTile l k e lat g = s.newTile l k e lat g := by
  have seg : t.segCal g = s.segCal g := by rw [State.segCal, State.segCal, h.cal]
  rw [State.newTile, State.newTile, seg, h.still.port]

theorem State.Allocated.fits {as : List (Fin 8)} (h : s.Allocated t l k e lat as) {g : Fin 96} : t.Fits l g ↔ s.Fits l g := by
  have seg : t.segCal g = s.segCal g := by rw [State.segCal, State.segCal, h.cal]
  rw [State.Fits, State.Fits, seg, h.still.port]

/-- What was free at the end was free before. -/
theorem State.Allocated.free {as : List (Fin 8)} (h : s.Allocated t l k e lat as) {n : Fin 40} (free : (t.tile n).state = .free) :
    (s.tile n).state = .free := by
  by_contra taken
  rw [h.kept n taken] at free
  exact taken free

theorem State.Allocated.trans {as bs : List (Fin 8)} (h : s.Allocated t l k e lat as) (more : t.Allocated u l k e lat bs) :
    s.Allocated u l k e lat (as ++ bs) where
  still := h.still.trans more.still
  cal := more.cal.trans h.cal
  slot := ((congrArg (fun x : ExpSlot => ({ x with entries := (s.slot k).entries } : ExpSlot)) more.slot :)).trans h.slot
  stored a mem := by
    by_cases later : a ∈ bs
    · exact more.stored a later
    · rw [more.entry a later]
      exact h.stored a ((List.mem_append.1 mem).resolve_right later)
  entry a out := by
    rw [List.mem_append, not_or] at out
    rw [more.entry a out.2, h.entry a out.1]
  others j other := (more.others j other).trans (h.others j other)
  tile a mem := by
    rcases List.mem_append.1 mem with before | later
    · obtain ⟨n, free, made⟩ := h.tile a before
      refine ⟨n, free, ?_⟩
      rw [more.kept n (by rw [made]; exact nofun), made]
    · obtain ⟨n, free, made⟩ := more.tile a later
      exact ⟨n, h.free free, made.trans (h.newTile _)⟩
  kept n taken := by
    have before := h.kept n taken
    rw [more.kept n (by rw [before]; exact taken), before]
  room := by
    have first := h.room
    have second := more.room
    rw [List.length_append]
    omega

/-- With room for each of them, the segments of an OPEN slot that fit are allocated. -/
theorem State.Allocated.foldl (as : List (Fin 8)) : ∀ {s : State}, as.Nodup → (s.slot k).state = .opened → (s.slot k).exposure = e →
    (∀ a ∈ as, (s.slot k).entry (segmentOf l a) = .notStarted ∧ s.Fits l (segmentOf l a)) → as.length ≤ s.freeTiles →
    s.Allocated (as.foldl (State.handleSegment l k e lat) s) l k e lat as := by
  induction as with
  | nil => exact fun _ _ _ _ _ => .nil _
  | cons a as ih =>
    intro s nodup opened tag fresh room
    obtain ⟨absent, nodup⟩ := List.nodup_cons.1 nodup
    obtain ⟨n, free⟩ := State.exists_freeTile (s := s) (le_trans (by rw [List.length_cons]; omega) room)
    obtain ⟨first, fits⟩ := fresh a List.mem_cons_self
    have one : s.Allocated (s.handleSegment l k e lat a) l k e lat [a] := by
      rw [State.handleSegment_of_free ⟨by rw [opened]; exact nofun, tag⟩ first (.inl opened) fits free]
      exact .one free
    have space := one.room
    refine one.trans (ih nodup ?_ ?_ (fun b mem => ?_) ?_)
    · exact (congrArg ExpSlot.state one.slot :).trans opened
    · exact (congrArg ExpSlot.exposure one.slot :).trans tag
    · have apart : b ∉ [a] := fun same => absent (List.mem_singleton.1 same ▸ mem)
      obtain ⟨first, fits⟩ := fresh b (List.mem_cons_of_mem _ mem)
      exact ⟨(one.entry b apart).trans first, one.fits.2 fits⟩
    · rw [List.length_cons] at room
      rw [List.length_singleton] at space
      omega

/-- A tile allocated may be written. -/
theorem State.fillingTile_of_newTile {n : Fin 40} {g : Fin 96} (made : t.tile n = s.newTile l k e lat g) : t.fillingTile g ≠ none :=
  fun shut => State.fillingTile_eq_none.1 shut n (by rw [made]; exact ⟨rfl, rfl, rfl⟩)

end

end Sys2Proof.Machine
end

section
/-!
PROOF. O34: what a readout start does, for each exposure that may wait for it.
-/

namespace Sys2Proof.Machine

section
variable {s : State} {l : Fin 12} {e row : Nat} {rest : List BufItem} {k : Fin 4} {a : Fin 8}

/-! ## Allocation -/

section
variable (h : s.Associates l e row rest k)
include h

theorem State.Associates.begun_freeTiles : (s.begun l e rest k).freeTiles = s.freeTiles := by
  simp only [State.freeTiles, h.begun_tile]

theorem State.Associates.begun_cal : (s.begun l e rest k).cal = s.cal := by
  rw [h.begun_eq]
  rfl

theorem State.Associates.begun_newTile (lat : Latched) (g : Fin 96) :
    (s.begun l e rest k).newTile l k e lat g = s.newTile l k e lat g := by
  rw [State.newTile, State.newTile, h.begun_segCal, State.begun_port]
  rfl

/-- The row behind the start claims its write to a tile of the start. -/
theorem State.Associates.claims {v : State} (run : (s.startTaken l e rest).associate l e row = v)
    (still : Undisturbed (s.begun l e rest k) v)
    (head : rest = [] ∨ ∃ (b : BufRow) (tail : List BufItem) (sr : SlotRow) (more : List SlotRow),
      rest = .row b :: tail ∧ b.slots = sr :: more ∧ v.fillingTile (segmentOf l sr.slot) ≠ none) :
    ∃ t, exec (.readoutStart l) s = .next t ∧ (t.port l).buffer = rest ∧ (rest ≠ [] → t.holdsClaim (.intake l) = true)
      ∧ t.cal = v.cal ∧ TilesSame v t := by
  have begins := State.begins (s := s) (l := l) (e := e) (rest := rest) (k := k)
  exact h.claimable h.unarmed run (begins.trans still) head

/-- With room for all the segments of the link, each gets its tile. -/
theorem State.Associates.leads_allocated (opened : (s.slot k).state = .opened)
    (fresh : ∀ a, (s.port l).cfg.slots.getLsbD a.val = true → (s.slot k).entry (segmentOf l a) = .notStarted
      ∧ s.Fits l (segmentOf l a))
    (room : 8 ≤ s.freeTiles)
    (head : rest = [] ∨ ∃ (b : BufRow) (tail : List BufItem) (sr : SlotRow) (more : List SlotRow),
      rest = .row b :: tail ∧ b.slots = sr :: more ∧ (s.port l).cfg.slots.getLsbD sr.slot.val = true) :
    ∃ t v, exec (.readoutStart l) s = .next t ∧ (t.port l).buffer = rest ∧ (rest ≠ [] → t.holdsClaim (.intake l) = true)
      ∧ t.cal = v.cal ∧ TilesSame v t
      ∧ (s.begun l e rest k).Allocated v l k e (s.latchOf l e k) (s.port l).cfg.enabled := by
  have slot := State.begun_slot (s := s) (l := l) (e := e) (rest := rest) (k := k)
  have run := h.associate
  have all : (s.begun l e rest k).Allocated
      ((s.port l).cfg.enabled.foldl (State.handleSegment l k e (s.latchOf l e k)) (s.begun l e rest k)) l k e (s.latchOf l e k)
      (s.port l).cfg.enabled := by
    refine .foldl _ ((List.nodup_finRange 8).filter _) (by rw [slot]; exact opened) h.tagged.2 (fun a mem => ?_) ?_
    · obtain ⟨first, fits⟩ := fresh a (List.mem_filter.1 mem).2
      rw [slot, h.begun_fits]
      exact ⟨first, fits⟩
    · rw [h.begun_freeTiles]
      exact (List.length_filter_le _ _).trans room
  generalize List.foldl _ _ _ = v at run all
  have open_ : (v.slot k).isCommitted = false := by
    refine ExpSlot.not_isCommitted_of_opened ((congrArg ExpSlot.state all.slot :).trans ?_)
    rw [slot]
    exact opened
  rw [State.settleSlot_of_uncommitted open_] at run
  obtain ⟨t, next, buffer, claim, cal, same⟩ := h.claims run all.still (head.imp_right fun ⟨b, tail, sr, more, items, slots, on⟩ => by
    obtain ⟨n, -, made⟩ := all.tile sr.slot (List.mem_filter.2 ⟨List.mem_finRange _, on⟩)
    exact ⟨b, tail, sr, more, items, slots, State.fillingTile_of_newTile made⟩)
  exact ⟨t, v, next, buffer, claim, cal, same, all⟩

/-- With a committed slot, the one segment of the link gets the lowest free tile. -/
theorem State.Associates.leads_allocated_committed (one : (s.port l).cfg.enabled = [a])
    (first : (s.slot k).entry (segmentOf l a) = .notStarted)
    (committed : (s.slot k).state ∈ [.committed, .reading, .placing]) (timer : (s.slot k).timer ∈ [.notStarted, .running])
    (other : ∃ p ∈ (s.slot k).placements, p.segment ≠ segmentOf l a ∧ (s.slot k).entry p.segment = .notStarted)
    (planned : (s.slot k).planned (segmentOf l a) = true) (fits : s.Fits l (segmentOf l a)) {n : Fin 40}
    (room : s.freeTile = some n)
    (head : rest = [] ∨ ∃ (b : BufRow) (tail : List BufItem) (sr : SlotRow) (more : List SlotRow),
      rest = .row b :: tail ∧ b.slots = sr :: more ∧ sr.slot = a) :
    ∃ t, exec (.readoutStart l) s = .next t ∧ (t.port l).buffer = rest ∧ (rest ≠ [] → t.holdsClaim (.intake l) = true)
      ∧ t.slot k = { (s.slot k).begin.setEntry (segmentOf l a) .inStore with state := .reading }
      ∧ t.tile n = s.newTile l k e (s.latchOf l e k) (segmentOf l a)
      ∧ (∀ m, m ≠ n → t.tile m = s.tile m) ∧ ∀ j, j ≠ k → t.slot j = s.slot j := by
  have slot := State.begun_slot (s := s) (l := l) (e := e) (rest := rest) (k := k)
  have listed : (s.slot k).listed (segmentOf l a) = true := by
    rw [ExpSlot.listed, planned, Bool.and_true]
    exact ExpSlot.isCommitted_iff.2 committed
  have run := h.associate
  rw [one, List.foldl_cons, List.foldl_nil, State.handleSegment_of_free (n := n) h.tagged (by rw [slot]; exact first)
    (by rw [slot]; exact .inr listed) (h.begun_fits.2 fits) (by rw [h.begun_freeTile]; exact room)] at run
  have mine := (s.begun l e rest k).allocate_slot l k e (s.latchOf l e k) (segmentOf l a) n
  have others := fun j (other : j ≠ k) => (s.begun l e rest k).allocate_other l k e (s.latchOf l e k) (segmentOf l a) n other
  have tile := (s.begun l e rest k).allocate_tile l k e (s.latchOf l e k) (segmentOf l a) n
  have still := (s.begun l e rest k).allocate_still l k e (s.latchOf l e k) (segmentOf l a) n
  generalize State.allocate _ l k e _ _ n = u at run mine others tile still
  rw [slot] at mine
  have settled := (State.OnlySlot.refl (s := u) mine).settle_of_running (ExpSlot.begin_committed committed) (ExpSlot.begin_timer timer)
    (ExpSlot.awaits_of_other other rfl fun g apart =>
      (ExpSlot.entry_setEntry (s.slot k).begin (segmentOf l a) g .inStore).trans (if_neg (Ne.symm apart)))
  generalize u.settleSlot k = v at run settled
  have last : ∀ m, v.tile m = if n = m then s.newTile l k e (s.latchOf l e k) (segmentOf l a) else s.tile m := fun m => by
    rw [State.tile, settled.tiles, ← State.tile, tile, h.begun_newTile, h.begun_tile]
  obtain ⟨t, next, buffer, claim, -, same⟩ := h.claims run (still.trans settled.still) (head.imp_right
    fun ⟨b, tail, sr, more, items, slots, on⟩ => ⟨b, tail, sr, more, items, slots, by
      rw [on]
      exact State.fillingTile_of_newTile ((last n).trans (if_pos rfl))⟩)
  refine ⟨t, next, buffer, claim, (same.slot k).trans settled.slot, ?_, fun m apart => ?_, fun j other => ?_⟩
  · rw [same.tile, last, if_pos rfl]
  · rw [same.tile, last, if_neg (Ne.symm apart)]
  · rw [same.slot, settled.others j other, others j other, h.begun_other other]

end

end

end Sys2Proof.Machine
end

section
/-!
PROOF. O34: what a readout start does (R12, R13, R43, R44, R106).
-/

namespace Sys2Proof.Machine

section
variable {s t v : State} {l : Fin 12} {e row : Nat} {rest : List BufItem} {k : Fin 4} {a : Fin 8}

/-! ## The pressure on the slots of before -/

/-- R103, R106. STORE_PRESSURE freezes slot `j`. -/
def State.Freezes (s : State) (j : Fin 4) : Prop :=
  (s.slot j).photo.mode = .settled ∧ (s.slot j).photo.frozen = false ∧ (s.slot j).state ≠ .free ∧ s.heldTiles j ≠ []

section
variable (h : s.Associates l e row rest k) {y : ExpSlot}
  (state : y.state = (s.slot k).state) (photo : y.photo = (s.slot k).photo)
include h

theorem State.Associates.set_heldTiles (j : Fin 4) : ((s.begun l e rest k).setSlot k y).heldTiles j = s.heldTiles j := by
  have same : ∀ (u : State) x, (u.setSlot k x).heldTiles j = u.heldTiles j := fun _ _ => rfl
  rw [same, h.begun_heldTiles]

include state photo

theorem State.Associates.set_pressable (j : Fin 4) : ((s.begun l e rest k).setSlot k y).Pressable j ↔ s.Freezes j := by
  rw [State.Pressable, h.set_freezable state photo, h.set_heldTiles, State.Freezes, and_assoc, and_assoc]

variable (pressed : ((s.begun l e rest k).setSlot k y).Pressed v allSlots)
include pressed

theorem State.Associates.pressed_photo (j : Fin 4) :
    (s.Freezes j → (v.slot j).photo = { (s.slot j).photo with frozen := true })
    ∧ (¬s.Freezes j → (v.slot j).photo = (s.slot j).photo) := by
  obtain ⟨-, same⟩ := h.set_photo state photo j
  have can := h.set_pressable state photo j
  refine ⟨fun freezes => ?_, fun no => ?_⟩
  · rw [pressed.frozen j (mem_allSlots j) (can.2 freezes), ExpSlot.freeze, same]
  · rw [pressed.kept j (.inr (can.not.2 no)), same]

omit h state in
theorem State.pressed_slot : { v.slot k with photo := (s.slot k).photo } = y := by
  have slot : ((s.begun l e rest k).setSlot k y).slot k = y := (State.slot_setSlot ..).trans (if_pos rfl)
  by_cases can : ((s.begun l e rest k).setSlot k y).Pressable k
  · rw [pressed.frozen k (mem_allSlots k) can, slot, ← photo]
    rfl
  · rw [pressed.kept k (.inr can), slot, ← photo]

theorem State.Associates.pressed_queue : v.tiles.queue = s.tiles.queue ++ allSlots.flatMap fun j =>
    if (s.slot j).photo.mode = .settled ∧ (s.slot j).photo.frozen = false ∧ (s.slot j).state ≠ .free then s.heldTiles j else [] := by
  have same : ∀ (u : State) x, (u.setSlot k x).tiles = u.tiles := fun _ _ => rfl
  rw [pressed.queue, same, h.begun_tiles]
  refine congrArg (s.tiles.queue ++ ·) (List.flatMap_congr fun j _ => ?_)
  rw [h.set_heldTiles]
  exact if_congr (h.set_freezable state photo j) rfl rfl

end

/-! ## The tiles of a start -/

/-- With all the segments of the link allocated, the event keeps to them. -/
theorem State.Associates.allocated_tile (h : s.Associates l e row rest k) {as : List (Fin 8)}
    (all : (s.begun l e rest k).Allocated v l k e (s.latchOf l e k) as) (mem : a ∈ as) :
    ∃ n, (s.tile n).state = .free ∧ v.tile n = s.newTile l k e (s.latchOf l e k) (segmentOf l a) := by
  obtain ⟨n, free, made⟩ := all.tile a mem
  rw [h.begun_tile] at free
  exact ⟨n, free, made.trans (h.begun_newTile _ _)⟩

/-- R43, R44, for an OPEN slot whose segments all fit, with room for them. -/
theorem State.Associates.leads_opened (h : s.Associates l e row rest k) (opened : (s.slot k).state = .opened)
    (fresh : ∀ a, (s.port l).cfg.slots.getLsbD a.val = true → (s.slot k).entry (segmentOf l a) = .notStarted
      ∧ s.Fits l (segmentOf l a))
    (room : 8 ≤ s.freeTiles)
    (head : rest = [] ∨ ∃ (b : BufRow) (tail : List BufItem) (sr : SlotRow) (more : List SlotRow),
      rest = .row b :: tail ∧ b.slots = sr :: more ∧ (s.port l).cfg.slots.getLsbD sr.slot.val = true) :
    ∃ t, exec (.readoutStart l) s = .next t ∧ (t.port l).buffer = rest ∧ (rest ≠ [] → t.holdsClaim (.intake l) = true)
      ∧ t.cal = s.cal ∧ (t.slot k).timer = (s.slot k).begin.timer
      ∧ (∀ a, (s.port l).cfg.slots.getLsbD a.val = true → (t.slot k).entry (segmentOf l a) = .inStore
        ∧ ∃ n, (s.tile n).state = .free ∧ t.tile n = s.newTile l k e (s.latchOf l e k) (segmentOf l a))
      ∧ (∀ n, (s.tile n).state ≠ .free → t.tile n = s.tile n) ∧ ∀ j, j ≠ k → t.slot j = s.slot j := by
  obtain ⟨t, v, next, buffer, claim, cal, same, all⟩ := h.leads_allocated opened fresh room head
  have slot := State.begun_slot (s := s) (l := l) (e := e) (rest := rest) (k := k)
  refine ⟨t, next, buffer, claim, cal.trans (all.cal.trans h.begun_cal), ?_, fun a on => ?_, fun n taken => ?_, fun j other => ?_⟩
  · rw [same.slot, ← slot]
    exact (congrArg ExpSlot.timer all.slot :)
  · have mem : a ∈ (s.port l).cfg.enabled := List.mem_filter.2 ⟨List.mem_finRange a, on⟩
    obtain ⟨n, free, made⟩ := h.allocated_tile all mem
    rw [same.slot]
    exact ⟨all.stored a mem, n, free, (same.tile n).trans made⟩
  · rw [same.tile, all.kept n (by rw [h.begun_tile]; exact taken), h.begun_tile]
  · rw [same.slot, all.others j other, h.begun_other other]

/-- R106, for an OPEN slot whose one segment finds the store full. -/
theorem State.Associates.leads_storeFull (h : s.Associates l e row rest k) (one : (s.port l).cfg.enabled = [a])
    (first : (s.slot k).entry (segmentOf l a) = .notStarted) (opened : (s.slot k).state = .opened)
    (fits : s.Fits l (segmentOf l a)) (full : ∀ n, (s.tile n).state ≠ .free) (busy : s.place ≠ none)
    (empty : rest = [] ∨ ∀ a, s.fillingTile (segmentOf l a) = none) :
    ∃ t, exec (.readoutStart l) s = .next t ∧ (t.port l).buffer = laterItems rest
      ∧ { t.slot k with photo := (s.slot k).photo } = (s.slot k).begin.resolve (segmentOf l a) .storeFull
      ∧ (∀ j, s.Freezes j → (t.slot j).photo = { (s.slot j).photo with frozen := true })
      ∧ (∀ j, ¬s.Freezes j → (t.slot j).photo = (s.slot j).photo)
      ∧ t.tiles.queue = s.tiles.queue ++ allSlots.flatMap fun j =>
          if (s.slot j).photo.mode = .settled ∧ (s.slot j).photo.frozen = false ∧ (s.slot j).state ≠ .free then s.heldTiles j
          else [] := by
  obtain ⟨t, v, next, buffer, same, pressed⟩ := h.leads_full one first opened fits full busy empty
  obtain ⟨y, resolved⟩ : ∃ y, y = (s.slot k).begin.resolve (segmentOf l a) .storeFull := ⟨_, rfl⟩
  have state : y.state = (s.slot k).state := by rw [resolved]; rfl
  have photo : y.photo = (s.slot k).photo := by rw [resolved]; rfl
  rw [← resolved] at pressed ⊢
  refine ⟨t, next, buffer, ?_, fun j freezes => ?_, fun j no => ?_, ?_⟩
  · rw [same.slot]
    exact State.pressed_slot photo pressed
  · rw [same.slot]
    exact (h.pressed_photo state photo pressed j).1 freezes
  · rw [same.slot]
    exact (h.pressed_photo state photo pressed j).2 no
  · rw [same.tiles]
    exact h.pressed_queue state photo pressed

end

/-- Settles O34: the start that no exposure waits for is ignored but for its transfers and latch; an OPEN slot with room gets a tile for
each enabled segment; for one enabled segment, each outcome of R44 changes its slot, its tile or the scales as it says. -/
theorem readoutStartsIgnoreOrAllocate : Obligations.ReadoutStartsIgnoreOrAllocate := by
  unfold Obligations.ReadoutStartsIgnoreOrAllocate
  refine ⟨?_, ?_, ?_, fun _ _ => CalRec.mismatch_eq_none, fun p e nominal =>
    ⟨fun c cycle mine timed => Port.latch_of_cycle cycle mine timed nominal, fun without => Port.latch_of_nominal without nominal⟩⟩
  · intro s l e row rest idle measure free buffer empty absent
    have start : s.Starts l e row rest := ⟨idle, measure, free, buffer⟩
    refine ⟨_, _, fun g => ?_, ?_, fun j other => ?_, start.ignored empty absent⟩
    · exact (State.transfers_segCal (l := l) allAmplifiers s g).trans (if_congr (and_congr_left fun _ => exists_segmentOf) rfl rfl)
    · exact (State.port_setPort s l l _).trans (if_pos rfl)
    · exact (State.port_setPort s l j _).trans (if_neg (Ne.symm other))
  · intro s l e row rest k idle measure free buffer head found opened unarmed fresh room
    have start : s.Associates l e row rest k := ⟨⟨idle, measure, free, buffer⟩, unarmed, found⟩
    exact start.leads_opened opened fresh room head
  · intro s l e row rest k a idle measure free buffer found unarmed on
    have start : s.Associates l e row rest k := ⟨⟨idle, measure, free, buffer⟩, unarmed, found⟩
    have one := LinkConfig.enabled_of_one on
    refine ⟨fun opened => ?_, fun committed timer other => ?_⟩
    · have open_ : (s.slot k).begin.isCommitted = false := ExpSlot.not_isCommitted_of_opened opened
      refine ⟨fun again empty => ?_, fun first unfit empty => ?_, fun first fits full busy empty => ?_⟩
      · exact start.leads_quiet one ((start.handled_again again).settle_of_open open_) empty
      · exact start.leads_quiet one ((start.handled_unfit_open first opened unfit).settle_of_open open_) empty
      · exact start.leads_storeFull one first opened fits full busy empty
    · have live : (s.slot k).begin.isCommitted = true := ExpSlot.begin_committed committed
      have running := ExpSlot.begin_timer timer
      have awaits : (s.slot k).begin.awaits = true := ExpSlot.awaits_of_other other rfl fun _ _ => rfl
      refine ⟨fun again empty => ?_, fun first unplanned empty => ?_, fun first planned unfit mode empty => ?_,
        fun first planned fits n free lowest head => ?_⟩
      · exact start.leads_quiet one ((start.handled_again again).settle_of_running live running awaits) empty
      · have shut : (s.slot k).state ≠ .opened := fun opened => by
          rw [opened] at committed
          exact absurd committed (by decide)
        exact start.leads_quiet one ((start.handled_unplanned first shut unplanned).settle_of_running live running awaits) empty
      · have late := ExpSlot.awaits_of_other (y := (s.slot k).begin.resolve (segmentOf l a) .noCalibration) other rfl
          fun g apart => ExpSlot.resolve_entry (x := (s.slot k).begin) apart _
        exact start.leads_quiet one
          ((start.handled_unfit_committed first committed timer other planned unfit mode).settle_of_running rfl running late) empty
      · obtain ⟨t, next, kept, claim, slot, tile, tiles, slots⟩ :=
          start.leads_allocated_committed one first committed timer other planned fits (State.freeTile_of_lowest free lowest) head
        refine ⟨t, next, kept, claim, slot, ?_, ?_, ?_, ?_, ?_, ?_, ?_, tiles, slots⟩ <;> rw [tile] <;> rfl

end Sys2Proof.Machine
end
